-- ==== Sys2Proof/Word.lean ====
section
/-! DEFINITION. The word types and their plainest arithmetic: bytes, little-endian values, wrapping. -/

namespace Sys2Proof

/-- One byte. -/
abbrev Byte := BitVec 8

/-- A byte string: an OCTET_STRING, a frame, an image. -/
abbrev Bytes := List Byte

/-- Monotonic time (R119): nanoseconds with a 32-bit fraction, as one number in units of 2^-32 ns. -/
abbrev Time := Nat

/-- `n` nanoseconds as a `Time`. -/
def nsT (n : Nat) : Time := n * 4294967296

/-- `n` microseconds as a `Time`. -/
def usT (n : Nat) : Time := nsT (n * 1000)

/-- `n` milliseconds as a `Time`. -/
def msT (n : Nat) : Time := nsT (n * 1000000)

/-- `n` seconds as a `Time`. -/
def secT (n : Nat) : Time := nsT (n * 1000000000)

/-- `n` units of 1.5625 ns (half a casement clock) as a `Time`. -/
def unitT (n : Nat) : Time := n * 6710886400

/-- Whole nanoseconds of a `Time`. -/
def toNs (t : Time) : Nat := t / 4294967296

/-- The signed value of the low `w` bits (two's complement, R4). -/
def wrapS (w : Nat) (x : Int) : Int := (BitVec.ofInt w x).toInt

/-- The unsigned value of the low `w` bits. -/
def wrapU (w : Nat) (x : Int) : Int := ((BitVec.ofInt w x).toNat : Int)

/-- The signed 64-bit difference of two positions (R19). -/
def sdiff (a b : Int) : Int := wrapS 64 (a - b)

/-- Saturation to signed 32 bits (R280). -/
def sat32 (x : Int) : Int := max (-2147483648) (min 2147483647 x)

/-- Arithmetic shift right (R4): rounds toward minus infinity. -/
def asr (x : Int) (n : Nat) : Int := x / (2 ^ n : Nat)

/-- Division that truncates toward zero (R4). -/
def tdiv (a b : Int) : Int := Int.tdiv a b

/-- Division rounded up of natural numbers. -/
def cdiv (a b : Nat) : Nat := (a + b - 1) / b

/-- Bit `i` of a natural number. -/
def bit (x i : Nat) : Bool := (x >>> i) % 2 == 1

/-- Bits [hi:lo] of a natural number. -/
def bits (x hi lo : Nat) : Nat := (x >>> lo) % 2 ^ (hi + 1 - lo)

/-- 1 for true, 0 for false. -/
def b2n (b : Bool) : Nat := if b then 1 else 0

/-- `x` in `n` bytes, little-endian (R329). -/
def leBytes : Nat → Nat → Bytes
  | 0, _ => []
  | n + 1, x => BitVec.ofNat 8 x :: leBytes n (x / 256)

/-- The value of a little-endian byte string. -/
def leNat : Bytes → Nat
  | [] => 0
  | b :: bs => b.toNat + 256 * leNat bs

/-- The value of a big-endian byte string. -/
def beNat (bs : Bytes) : Nat := leNat bs.reverse

/-- `x` in `n` bytes, big-endian. -/
def beBytes (n x : Nat) : Bytes := (leBytes n x).reverse

/-- The bytes at [i, i+n) of a string; bytes past its end are 0. -/
def sliceB (bs : Bytes) (i n : Nat) : Bytes :=
  let r := (bs.drop i).take n
  r ++ List.replicate (n - r.length) 0

/-- The little-endian number of `n` bytes at offset `i`. -/
def fieldLE (bs : Bytes) (i n : Nat) : Nat := leNat ((bs.drop i).take n)

/-- The set bits of a mask among positions 0 to n-1, ascending. -/
def setBits (n mask : Nat) : List Nat := (List.range n).filter (bit mask)

/-- Text as bytes. -/
def ascii (s : String) : Bytes := s.toUTF8.toList.map (fun c => BitVec.ofNat 8 c.toNat)

end Sys2Proof
end

