-- ==== Sys2Proof/Syntax.lean ====
section
/-! DEFINITION. The commands: one constructor per row of spec/opcode_table.json, with the unit it names, the
monotonic time `t` at which it occurs, and the data the outside brings. -/

namespace Sys2Proof

/-- The paths of R331 over which an access arrives. -/
inductive Path where
  | bar0
  | queue (q : Nat)
  | mailbox
  | kdp
  | usdo (node : Fin 2)
  deriving DecidableEq, Repr

/-- The three commit objects of R86. -/
inductive CommitKind where
  | template
  | glyphSet
  | rotorTable
  deriving DecidableEq, Repr

/-- Which pair a wire check concerns (R27). -/
inductive WirePair where
  | a
  | b
  | z
  deriving DecidableEq, Repr

/-- The casement analog pins (R178). -/
inductive AdcPin where
  | cth
  | cvs
  | cms
  deriving DecidableEq, Repr

/-- What came on a sill line after a request (R172, R173): the levels of each cell at one quarter and at three quarters of it, true
released; no cell where no transition came within 60 us. -/
structure SillReply where
  cells : List (Bool × Bool)
  deriving DecidableEq, Repr

/-- Kinds of host reset (R326). -/
inductive HostResetKind where
  | functionLevel
  | hot
  | linkLoss
  deriving DecidableEq, Repr

/-- Why a fabric port goes down (R358, R432 bits 48 to 51). -/
inductive DownCause where
  | lock
  | codeErrors
  | noIdle
  | replay
  deriving DecidableEq, Repr

/-- The mark identity of R360. -/
structure MarkId where
  node : Nat
  casement : Nat
  seq : Nat
  deriving DecidableEq, Repr

/-- The fields of a POSITION frame (R360). -/
structure PosFrame where
  src : Nat
  seq : Nat
  slot : Nat
  axis : Nat
  status : Nat
  epoch : Nat
  ftime : Nat
  pos : Int
  vel : Int
  deriving DecidableEq, Repr

/-- One neighbour entry of a TOPOLOGY frame (R360). -/
structure TopoEntry where
  port : Nat
  nbNode : Nat
  nbPort : Nat
  state : Nat
  deriving DecidableEq, Repr

/-- The PTP messages the engine receives (R353), reduced to what the rules use. -/
inductive PtpMsg where
  | announce (gm : Nat) (priority1 clockClass : Nat) (utcValid : Bool) (utc : Int)
  | sync (seq : Nat) (origin : Int) (twoStep : Bool) (rx : Int)
  | followUp (seq : Nat) (origin : Int)
  | delayReq (seq : Nat) (port : Nat) (rx : Int)
  | delayResp (seq : Nat) (rxAtMaster : Int)
  | pdelayReq (seq : Nat) (rx : Int)
  | pdelayResp (seq : Nat) (t2 t3 rx : Int)
  | management
  deriving DecidableEq, Repr

/-- What a PTP port sends on its own (R353). -/
inductive PtpSend where
  | delayReq
  | announce
  | sync
  deriving DecidableEq, Repr

/-- The commands. `t` is the monotonic time of the command; `p` the path of a dictionary access. -/
inductive Instr where
  -- registers and dictionary
  | registerWrite (t : Time) (off : Nat) (wide : Bool) (v : BitVec 64)
  | dictionaryWrite (t : Time) (p : Path) (idx : BitVec 16) (sub : BitVec 8) (v : Bytes)
  -- line axes, encoders, inputs
  | encoderEdge (t : Time) (e : Fin 16) (a b : Bool)
  | sincosSample (t : Time) (e : Fin 16) (s c : Int)
  | index (t : Time) (e : Fin 16)
  | wireCheckExpiry (t : Time) (e : Fin 16) (pair : WirePair)
  | autoTrackUpdate (t : Time) (e : Fin 16) (smin smax cmin cmax freq : Int)
  | encStatusClear (t : Time) (e : Fin 16) (v : BitVec 32) (present : BitVec 9)
  | lineAxisUpdate (t : Time) (k : Fin 32)
  | sourceKindWrite (t : Time) (p : Path) (k : Fin 32) (v : Nat)
  | sourceSwitch (t : Time) (k : Fin 32)
  | lineAxisSourceFault (t : Time) (k : Fin 32)
  | deadReckonExpiry (t : Time) (k : Fin 32)
  | zeroSpeedTimeout (t : Time) (k : Fin 32)
  | ginEdge (t : Time) (n : Fin 64)
  | ginPulseRejected (t : Time) (n : Fin 64)
  | ginStuckTimeout (t : Time) (n : Fin 64)
  | plsStepOut (t : Time) (n : Fin 8)
  | plsRatioWrite (t : Time) (p : Path) (n : Fin 8) (isM : Bool) (v : Nat)
  | laxSnap (t : Time)
  -- Shutter
  | decisionPoint (t : Time) (c : Fin 48)
  | compositionStart (t : Time) (c : Fin 48)
  | changeApply (t : Time)
  | markClose (t : Time) (c : Fin 48)
  | goDeadline (t : Time) (c : Fin 48)
  | reportMarginReached (t : Time) (c : Fin 48)
  | rejectPosition (t : Time) (r : Fin 8)
  | rejectPulseEnd (t : Time) (r : Fin 8)
  | casementArm (t : Time) (p : Path) (c : Fin 48)
  | casementDisarm (t : Time) (p : Path) (c : Fin 48)
  | casementEnterService (t : Time) (p : Path) (c : Fin 48)
  | casementLeaveService (t : Time) (p : Path) (c : Fin 48)
  | casementClearFault (t : Time) (p : Path) (c : Fin 48)
  | armingComplete (t : Time) (c : Fin 48)
  | armingTimeout (t : Time) (c : Fin 48)
  | headPoll (t : Time) (c : Fin 48)
  -- Compositor
  | templateCommit (t : Time) (p : Path) (v : Nat)
  | glyphSetCommit (t : Time) (p : Path) (v : Nat)
  | rotorTableCommit (t : Time) (p : Path) (v : Nat)
  | commitValidationDone (t : Time) (kind : CommitKind)
  | glyphSetPin (t : Time) (p : Path) (s : Fin 64) (v : Nat)
  | templateQuery (t : Time) (p : Path) (v : Nat)
  | typeCaseFillDone (t : Time) (set block : Nat)
  | compositionUnitDispatch (t : Time) (u : Fin 8)
  | galleyRefillDone (t : Time) (c : Fin 48) (line : Nat)
  -- time, calendar, tallies
  | timeWriteStaged (t : Time) (p : Path)
  | timeWriteImmediate (t : Time) (p : Path)
  | stagedTimeApply (t : Time)
  | ptpOffset (t : Time) (theta : Int) (utc : Option Int)
  | ptpHoldoverTimeout (t : Time)
  | holdoverExpiry (t : Time)
  | calendarRealign (t : Time)
  | calendarTrimStep (t : Time)
  | timeSnap (t : Time)
  | leapSecondApply (t : Time)
  | daylightChange (t : Time)
  | shiftChange (t : Time)
  | tallyWrite (t : Time) (p : Path) (n : Fin 256) (v : Nat)
  | tallyLoRead (t : Time) (n : Fin 256)
  | persistMarkConfirmed (t : Time) (n : Fin 256)
  -- Notary
  | notaryDispatch (t : Time)
  | notaryOperationDone (t : Time)
  | keyImport (t : Time) (p : Path) (v : Nat)
  | keyRevoke (t : Time) (p : Path) (v : Nat)
  | verifyExecute (t : Time) (p : Path) (v : Nat)
  -- ports, sill line, ADC
  | trainingEnd (t : Time) (c : Fin 48)
  | strobeLimit (t : Time) (c : Fin 48) (overlap : Bool)
  | sillTransactionStart (t : Time) (c : Fin 48)
  | sillTransactionDone (t : Time) (c : Fin 48) (r : SillReply)
  | sillRetry (t : Time) (c : Fin 48)
  | adcConversion (t : Time) (c : Fin 48) (pin : AdcPin) (code : Nat)
  | vddaReferenceConversion (t : Time) (j : Fin 8) (code : Nat)
  | serviceRead (t : Time) (p : Path) (c : Fin 48)
  | serviceWrite (t : Time) (p : Path) (c : Fin 48)
  -- firing
  | lineLoad (t : Time) (c : Fin 48)
  | loadDeadline (t : Time) (c : Fin 48)
  | lineFreeze (t : Time) (c : Fin 48)
  | lineTrigger (t : Time) (c : Fin 48)
  | lineFired (t : Time) (c : Fin 48)
  | minPeriodRefresh (t : Time) (c : Fin 48)
  -- Ledger
  | measureCycle (t : Time) (c : Fin 48) (vb vh von : Nat)
  | measurePassStart (t : Time) (c : Fin 48)
  | serviceFullPass (t : Time) (p : Path) (c : Fin 48)
  | serviceOneElement (t : Time) (p : Path) (c : Fin 48)
  | defectDeclare (t : Time) (p : Path) (c : Fin 48) (e : Nat)
  | defectClear (t : Time) (p : Path) (c : Fin 48) (e : Nat)
  | scrubStep (t : Time)
  | consumeAdjust (t : Time) (p : Path) (c : Fin 48) (v : Nat)
  | spoolSpan (t : Time) (c : Fin 48)
  | inkSensorPoll (t : Time) (c : Fin 48)
  | hostSensorWrite (t : Time) (p : Path) (c : Fin 48) (v : Nat)
  | newSupply (t : Time) (p : Path) (c : Fin 48) (v : Nat)
  | usageLinesFlush (t : Time) (c : Fin 48)
  | usageHour (t : Time) (c : Fin 48)
  | recordWrite (t : Time) (p : Path) (c : Fin 48) (v : Nat)
  | ledgerExport (t : Time) (p : Path) (c : Fin 48)
  | ledgerImport (t : Time) (p : Path) (c : Fin 48)
  -- axes
  | axisEnable (t : Time) (p : Path) (a : Fin 48)
  | axisDisable (t : Time) (p : Path) (a : Fin 48)
  | axisMove (t : Time) (p : Path) (a : Fin 48)
  | axisVelocity (t : Time) (p : Path) (a : Fin 48)
  | axisRun (t : Time) (p : Path) (a : Fin 48)
  | axisStop (t : Time) (p : Path) (a : Fin 48)
  | axisAlign (t : Time) (p : Path) (a : Fin 48)
  | axisBrake (t : Time) (p : Path) (a : Fin 48)
  | axisClearFault (t : Time) (p : Path) (a : Fin 48)
  | axisTick (t : Time) (a : Fin 48)
  | runCheckDone (t : Time) (a : Fin 48)
  | runTrigger (t : Time) (a : Fin 48)
  | limitInput (t : Time) (a : Fin 48) (positive : Bool)
  | followingError (t : Time) (a : Fin 48)
  | holdCurrentTimeout (t : Time) (a : Fin 48)
  | chopOff (t : Time) (a : Fin 16) (phase : Fin 3) (i : Int)
  | chopCycleEnd (t : Time) (a : Fin 16) (phase : Fin 3) (sense : Int × Fin 4096)
  | overcurrent (t : Time) (a : Fin 16) (is : Fin 4 × Fin 256)
  | observerUpdate (t : Time) (a : Fin 16) (is01 is23 vp01 : Fin 4096 × Fin 4096) (vp2 : Fin 4096)
  | observerDisagreement (t : Time) (a : Fin 16)
  | startTimeout (t : Time) (a : Fin 16)
  | catchDone (t : Time) (a : Fin 48)
  | segmentWrite (t : Time) (p : Path) (data : Bytes)
  -- loop engine
  | loopTick (t : Time)
  | coefficientApply (t : Time) (p : Path) (n : Fin 64) (v : Nat)
  | loopOverrunClear (t : Time) (p : Path) (v : Nat)
  | plannedPassRefresh (t : Time)
  -- host interface
  | bar2Access (t : Time) (off : Nat) (write : Option Bytes) (len : Nat) (bad : Bool)
  | queueEnable (t : Time) (q : Nat)
  | queueDisable (t : Time) (q : Nat)
  | doorbellWrite (t : Time) (p : Path) (q : Nat) (v : BitVec 32)
  | porterGrant (t : Time) (ok : Bool)
  | agingPromotion (t : Time) (q : Nat)
  | markRequestAccept (t : Time) (q : Nat) (ok : Bool)
  | recordAccept (t : Time) (q : Nat) (ok : Bool)
  | dictionaryRequest (t : Time)
  | mailboxSubmit (t : Time) (v : BitVec 32)
  | completionDrain (t : Time) (q : Nat)
  | eventWrite (t : Time)
  | irqModerationTimeout (t : Time) (q : Nat)
  | dmaStart (t : Time) (n : Fin 64)
  | dmaAbort (t : Time) (n : Fin 64)
  | dmaBurst (t : Time) (n : Fin 64) (ok : Bool)
  | hostReset (t : Time) (kind : HostResetKind)
  -- persistent store
  | storeSave (t : Time) (p : Path) (v : Nat)
  | storeRestore (t : Time) (p : Path) (v : Nat)
  | storeSaveDone (t : Time)
  | autoSave (t : Time)
  -- dictionary networks
  | dramDataWrite (t : Time) (p : Path) (data : Bytes)
  | dramDataRead (t : Time) (p : Path) (bad : Bool)
  | usdoRequest (t : Time) (i : Fin 2) (idx : BitVec 16) (sub : BitVec 8) (write : Option Bytes)
  | rpdoReceive (t : Time) (i : Fin 2) (n : Fin 16) (data : Bytes)
  | tpdoTransmit (t : Time) (i : Fin 2) (n : Fin 16)
  | syncReceive (t : Time) (i : Fin 2) (counter : Nat)
  | nmtStartRemoteNode (t : Time) (i : Fin 2)
  | nmtEnterPreoperational (t : Time) (i : Fin 2)
  | nmtStopRemoteNode (t : Time) (i : Fin 2)
  | nmtResetCommunication (t : Time) (i : Fin 2)
  | nmtResetNode (t : Time) (i : Fin 2)
  | heartbeatTimeout (t : Time) (i : Fin 2) (slot : Fin 8)
  | emcyInhibitExpiry (t : Time) (i : Fin 2)
  | busOff (t : Time) (i : Fin 2)
  | busOffRecovery (t : Time) (i : Fin 2)
  | kdpRequest (t : Time) (m : Fin 2) (src : BitVec 32) (port : BitVec 16) (data : Bytes)
  | kdpEventSend (t : Time)
  | arpRequest (t : Time) (m : Fin 2) (target sender : BitVec 32) (senderMac : BitVec 48)
  | icmpEcho (t : Time) (m : Fin 2) (src dst : BitVec 32) (data : Bytes)
  | ptpMessage (t : Time) (m : Fin 2) (domain : Nat) (msg : PtpMsg)
  | ptpAnnounceTimeout (t : Time)
  -- fabric
  | portUp (t : Time) (p : Fin 4)
  | portDown (t : Time) (p : Fin 4) (cause : DownCause)
  | positionSend (t : Time) (j : Fin 8)
  | position (t : Time) (p : Fin 4) (f : PosFrame)
  | positionLossTimeout (t : Time) (k : Fin 32)
  | timeSyncSend (t : Time) (p : Fin 4)
  | timeSync (t : Time) (p : Fin 4) (seq : Nat) (t1 t2 t3 t4 foffParent : Int)
  | helloSend (t : Time)
  | hello (t : Time) (p : Fin 4) (seq : Nat) (src : Nat) (fabric : Nat) (nbPort : Nat) (root : Bool) (serial : Nat)
  | topology (t : Time) (p : Fin 4) (seq : Nat) (src : Nat) (version : Nat) (entries : List TopoEntry)
  | viewStable (t : Time)
  | tree (t : Time) (p : Fin 4) (seq : Nat) (version : Nat) (applyTime : Nat) (root : Nat) (epoch : Nat)
  | treeApply (t : Time)
  | failover (t : Time) (p : Fin 4) (link : Nat)
  | rediscoveryStart (t : Time) (link : Nat)
  | ack (t : Time) (p : Fin 4) (seq : Nat)
  | nak (t : Time) (p : Fin 4) (seq : Nat)
  | replayTimeout (t : Time) (p : Fin 4)
  | anchor (t : Time) (p : Fin 4) (seq : Nat) (dst : Nat) (id : MarkId) (ref : Nat) (aref : Int) (ftime : Nat) (template tag : Nat)
  | voteReceive (t : Time) (p : Fin 4) (seq : Nat) (id : MarkId) (src : Nat) (cas : Nat) (yes : Bool) (items : Nat) (deadline : Nat)
  | voteCutoff (t : Time) (c : Fin 48)
  | go (t : Time) (p : Fin 4) (seq : Nat) (id : MarkId)
  | abort (t : Time) (p : Fin 4) (seq : Nat) (id : MarkId)
  | report (t : Time) (p : Fin 4) (seq : Nat) (id : MarkId) (src : Nat) (cas : Nat) (flags : BitVec 32) (late : Nat)
  -- Lamplighter
  | pgChange (t : Time) (n : Fin 64) (level : Bool)
  | pgTimeout (t : Time) (n : Fin 64)
  | retryDelayExpiry (t : Time) (n : Fin 64)
  | retryCountReset (t : Time) (n : Fin 64)
  | programStart (t : Time) (p : Path) (v : Nat)
  | end_ (t : Time) (x : Fin 49)
  | enable (t : Time) (x : Fin 49)
  | disable (t : Time) (x : Fin 49)
  | wait (t : Time) (x : Fin 49)
  | waitPg (t : Time) (x : Fin 49)
  | checkJump (t : Time) (x : Fin 49)
  | syncStep (t : Time) (x : Fin 49)
  | lsyncQualify (t : Time)
  | lsyncRedrive (t : Time)
  | syncTimeout (t : Time) (x : Fin 49)
  | contention (t : Time)
  | programTimeLimit (t : Time) (x : Fin 49)
  | shutdownTimeLimit (t : Time)
  | storeCommit (t : Time) (p : Path) (v : Nat)
  | pressed (t : Time)
  | short (t : Time)
  | forceOff (t : Time)
  | manualReset (t : Time)
  -- OTP, boot, firmware
  | otpRead (t : Time)
  | otpMarginRead (t : Time) (weak : BitVec 39)
  | otpProgram (t : Time) (p : Path) (v : Nat)
  | otpProgramDone (t : Time) (weak : Bool)
  | lifecycleAdvance (t : Time) (p : Path) (v : Nat)
  | setRestrict (t : Time) (p : Path)
  | setDebugLock (t : Time) (p : Path)
  | revokeFirmwareKey (t : Time) (p : Path) (v : Nat)
  | advanceSecurityCounter (t : Time) (p : Path) (v : Nat)
  | updateExecute (t : Time) (p : Path) (v : Nat)
  | updateDone (t : Time) (ok : Bool)
  | activate (t : Time) (p : Path) (v : Nat)
  | confirmed (t : Time)
  | hostBootLoad (t : Time) (len : BitVec 32)
  -- modes and resets
  | requestConfigure (t : Time) (p : Path)
  | requestStandby (t : Time) (p : Path)
  | requestReady (t : Time) (p : Path)
  | requestMarking (t : Time) (p : Path)
  | requestService (t : Time) (p : Path)
  | requestSafe (t : Time) (p : Path)
  | modeTransitionComplete (t : Time)
  | porstLow (t : Time)
  | porstRelease (t : Time) (straps : BitVec 3)
  | startupStandbyRequest (t : Time)
  | deviceResetCommand (t : Time) (p : Path)
  | firmwareRestartCommand (t : Time) (p : Path)
  | resetHoldEnd (t : Time)
  | restartEnd (t : Time)
  -- faults
  | faultOccurrence (t : Time) (b : Fin 64) (cause inst : Nat) (detail : Nat)
  | faultClear (t : Time) (p : Path) (mask : BitVec 64)
  | fswLoRead (t : Time) (live : Bool)
  | watchdog (t : Time) (code : Nat)
  | watchdogRestartStart (t : Time)
  | lockstepMismatch (t : Time) (group : Nat)
  | dieTemperatureMeasure (t : Time) (celsius : Int)
  | referenceLost (t : Time) (pll : Option (Fin 2))
  | injectionExecute (t : Time) (p : Path)
  | injectionRewrite (t : Time)
  | safeHeartbeat (t : Time)
  -- rows the table lists last
  | inputInactive (t : Time) (n : Fin 64)
  | alignTimeExpiry (t : Time) (a : Fin 48)
  | catchBrakeExpiry (t : Time) (a : Fin 48)
  | pcieLinkUp (t : Time) (speed width : Nat)
  | ethernetLinkUp (t : Time) (m : Fin 2) (speed : Nat)
  | ethernetLinkDown (t : Time) (m : Fin 2)
  | errorPassive (t : Time) (i : Fin 2) (passive : Bool)
  | heartbeatProduce (t : Time) (i : Fin 2)
  | syncProduce (t : Time) (i : Fin 2)
  | ptpTransmit (t : Time) (msg : PtpSend)
  deriving DecidableEq, Repr

end Sys2Proof
end

