-- ==== Sys2Proof/Machine/Crypto.lean ====
section
/-! DEFINITION. The published algorithms that the Notary and the boot code follow: SHA-256 (FIPS 180-4), HMAC and the deterministic nonce
(RFC 6979), ECDSA over P-256 (FIPS 186-5, SP 800-186). PRESUMED: the spec names the standards and does not restate them (log 17). -/

namespace Sys2Proof.Machine

/-! ## SHA-256 -/

/-- The round constants. -/
def shaK : List Nat :=
  [0x428a2f98, 0x71374491, 0xb5c0fbcf, 0xe9b5dba5, 0x3956c25b, 0x59f111f1, 0x923f82a4, 0xab1c5ed5] ++
  [0xd807aa98, 0x12835b01, 0x243185be, 0x550c7dc3, 0x72be5d74, 0x80deb1fe, 0x9bdc06a7, 0xc19bf174] ++
  [0xe49b69c1, 0xefbe4786, 0x0fc19dc6, 0x240ca1cc, 0x2de92c6f, 0x4a7484aa, 0x5cb0a9dc, 0x76f988da] ++
  [0x983e5152, 0xa831c66d, 0xb00327c8, 0xbf597fc7, 0xc6e00bf3, 0xd5a79147, 0x06ca6351, 0x14292967] ++
  [0x27b70a85, 0x2e1b2138, 0x4d2c6dfc, 0x53380d13, 0x650a7354, 0x766a0abb, 0x81c2c92e, 0x92722c85] ++
  [0xa2bfe8a1, 0xa81a664b, 0xc24b8b70, 0xc76c51a3, 0xd192e819, 0xd6990624, 0xf40e3585, 0x106aa070] ++
  [0x19a4c116, 0x1e376c08, 0x2748774c, 0x34b0bcb5, 0x391c0cb3, 0x4ed8aa4a, 0x5b9cca4f, 0x682e6ff3] ++
  [0x748f82ee, 0x78a5636f, 0x84c87814, 0x8cc70208, 0x90befffa, 0xa4506ceb, 0xbef9a3f7, 0xc67178f2]

/-- The initial hash value. -/
def shaH : List Nat :=
  [0x6a09e667, 0xbb67ae85, 0x3c6ef372, 0xa54ff53a, 0x510e527f, 0x9b05688c, 0x1f83d9ab, 0x5be0cd19]

/-- Rotate right by `n` in 32 bits. -/
def rotr (n x : Nat) : Nat := (x >>> n) + (x % 2 ^ n) * 2 ^ (32 - n)

/-- Extend a message schedule, newest word first. -/
def shaSched : Nat → List Nat → List Nat
  | 0, w => w
  | n + 1, w =>
    let g (i : Nat) := (w[i]?).getD 0
    let s0 := rotr 7 (g 14) ^^^ rotr 18 (g 14) ^^^ (g 14 >>> 3)
    let s1 := rotr 17 (g 1) ^^^ rotr 19 (g 1) ^^^ (g 1 >>> 10)
    shaSched n ((g 15 + s0 + g 6 + s1) % 2 ^ 32 :: w)

/-- One round. -/
def shaRound (h : List Nat) (kw : Nat × Nat) : List Nat :=
  match h with
  | [a, b, c, d, e, f, g, hh] =>
    let s1 := rotr 6 e ^^^ rotr 11 e ^^^ rotr 25 e
    let ch := (e &&& f) ^^^ ((2 ^ 32 - 1 - e) &&& g)
    let t1 := hh + s1 + ch + kw.1 + kw.2
    let s0 := rotr 2 a ^^^ rotr 13 a ^^^ rotr 22 a
    let maj := (a &&& b) ^^^ (a &&& c) ^^^ (b &&& c)
    [(t1 + s0 + maj) % 2 ^ 32, a, b, c, (d + t1) % 2 ^ 32, e, f, g]
  | h => h

/-- The big-endian words of a block, newest first. -/
def shaWords : Nat → Bytes → List Nat → List Nat
  | 0, _, acc => acc
  | n + 1, b, acc => shaWords n (b.drop 4) (beNat (b.take 4) :: acc)

/-- Compress blocks of 64 bytes. -/
def shaBlocks : Nat → Bytes → List Nat → List Nat
  | 0, _, h => h
  | n + 1, b, h =>
    let w := (shaSched 48 (shaWords 16 (b.take 64) [])).reverse
    let h' := (shaK.zip w).foldl shaRound h
    shaBlocks n (b.drop 64) (List.zipWith (fun x y => (x + y) % 2 ^ 32) h h')

/-- SHA-256 of a byte string. -/
def sha256 (m : Bytes) : Bytes :=
  let pad := (119 - m.length % 64) % 64
  let b := m ++ [0x80] ++ List.replicate pad 0 ++ beBytes 8 (8 * m.length)
  (shaBlocks (b.length / 64) b shaH).flatMap (beBytes 4)

/-- HMAC-SHA-256 with a 32-byte key. -/
def hmac (key m : Bytes) : Bytes :=
  let k := key ++ List.replicate 32 0
  sha256 (k.map (· ^^^ 0x5C) ++ sha256 (k.map (· ^^^ 0x36) ++ m))

/-! ## P-256 -/

def ecP : Nat := 0xffffffff00000001000000000000000000000000ffffffffffffffffffffffff
def ecB : Nat := 0x5ac635d8aa3a93e7b3ebbd55769886bc651d06b0cc53b0f63bce3c3e27d2604b
def ecN : Nat := 0xffffffff00000000ffffffffffffffffbce6faada7179e84f3b9cac2fc632551
def ecGx : Nat := 0x6b17d1f2e12c4247f8bce6e563a440f277037d812deb33a0f4a13945d898c296
def ecGy : Nat := 0x4fe342e2fe1a7f9b8ee7eb4a7c0f9e162bce33576b315ececbb6406837bf51f5

/-- x ^ e mod m, over the low `n` bits of e. -/
def powMod (m x : Nat) : Nat → Nat → Nat
  | 0, _ => 1 % m
  | n + 1, e => (if e % 2 = 1 then x else 1) * powMod m (x * x % m) n (e / 2) % m

/-- The inverse modulo a prime. -/
def invMod (m x : Nat) : Nat := powMod m x 256 (m - 2)

/-- Jacobian doubling; Z = 0 is the point at infinity. -/
def ecDouble (q : Nat × Nat × Nat) : Nat × Nat × Nat :=
  let (x, y, z) := q
  if z = 0 ∨ y = 0 then (1, 1, 0)
  else
    let s := 4 * x * (y * y % ecP) % ecP
    let z2 := z * z % ecP
    let m := 3 * (x + ecP - z2) * (x + z2) % ecP
    let x' := (m * m + 2 * (ecP - s)) % ecP
    let y4 := y * y % ecP * (y * y % ecP) % ecP
    (x', (m * (s + ecP - x') + 8 * (ecP - y4)) % ecP, 2 * y * z % ecP)

/-- Jacobian addition. -/
def ecAdd (a b : Nat × Nat × Nat) : Nat × Nat × Nat :=
  let (x1, y1, z1) := a
  let (x2, y2, z2) := b
  if z1 = 0 then b
  else if z2 = 0 then a
  else
    let z1z := z1 * z1 % ecP
    let z2z := z2 * z2 % ecP
    let u1 := x1 * z2z % ecP
    let u2 := x2 * z1z % ecP
    let s1 := y1 * z2 % ecP * z2z % ecP
    let s2 := y2 * z1 % ecP * z1z % ecP
    if u1 = u2 then (if s1 = s2 then ecDouble a else (1, 1, 0))
    else
      let h := (u2 + ecP - u1) % ecP
      let r := (s2 + ecP - s1) % ecP
      let h2 := h * h % ecP
      let h3 := h2 * h % ecP
      let v := u1 * h2 % ecP
      let x := (r * r + (ecP - h3) + 2 * (ecP - v)) % ecP
      (x, (r * (v + ecP - x) + (ecP - s1) * h3) % ecP, h * z1 % ecP * z2 % ecP)

/-- k * P over the low `n` bits of k. -/
def ecMul (p : Nat × Nat × Nat) : Nat → Nat → Nat × Nat × Nat
  | 0, _ => (1, 1, 0)
  | n + 1, k =>
    let r := ecDouble (ecMul p n (k / 2))
    if k % 2 = 1 then ecAdd r p else r

/-- The affine coordinates; none at infinity. -/
def ecAffine (q : Nat × Nat × Nat) : Option (Nat × Nat) :=
  let (x, y, z) := q
  if z = 0 then none
  else
    let i := invMod ecP z
    let i2 := i * i % ecP
    some (x * i2 % ecP, y * i2 % ecP * i % ecP)

/-- Is (x, y) a point of the curve? -/
def onCurve (x y : Nat) : Bool :=
  decide (x < ecP ∧ y < ecP) && decide (y * y % ecP = (x * x % ecP * x + (ecP - 3) * x + ecB) % ecP)

/-- The public key of a scalar: X, Y as 32 bytes big-endian each. -/
def publicKey (x : Nat) : Bytes × Bytes :=
  match ecAffine (ecMul (ecGx, ecGy, 1) 256 x) with
  | some (a, b) => (beBytes 32 a, beBytes 32 b)
  | none => (beBytes 32 0, beBytes 32 0)

/-- SHA-256 of 0x04, X, Y. -/
def keyDigest (x y : Bytes) : Bytes := sha256 (0x04 :: x ++ y)

/-- The first candidate of RFC 6979 for scalar `x` and digest `h` (R141). -/
def nonce (x : Nat) (h : Bytes) : Nat :=
  let xh := beBytes 32 x ++ beBytes 32 (beNat h % ecN)
  let v := List.replicate 32 (0x01 : Byte)
  let k := hmac (List.replicate 32 0) (v ++ [0x00] ++ xh)
  let v := hmac k v
  let k := hmac k (v ++ [0x01] ++ xh)
  let v := hmac k v
  beNat (hmac k v)

/-- Sign a message (R140, R141): status 0, 1 ZERO_SCALAR or 2 RANGE, and r then s. -/
def ecdsaSign (x : Nat) (m : Bytes) : Nat × Bytes :=
  let h := sha256 m
  let k := nonce x h
  if x = 0 ∨ k = 0 then (1, [])
  else if ecN ≤ x ∨ ecN ≤ k then (2, [])
  else match ecAffine (ecMul (ecGx, ecGy, 1) 256 k) with
    | none => (1, [])
    | some (rx, _) =>
      let r := rx % ecN
      let s := invMod ecN k * ((beNat h + r * x) % ecN) % ecN
      if r = 0 ∨ s = 0 then (1, []) else (0, beBytes 32 r ++ beBytes 32 s)

/-- The verification equation for r and s in range and a point of the curve. -/
def ecdsaVerify (x y : Nat) (m : Bytes) (r s : Nat) : Bool :=
  let w := invMod ecN s
  let u1 := beNat (sha256 m) * w % ecN
  let u2 := r * w % ecN
  match ecAffine (ecAdd (ecMul (ecGx, ecGy, 1) 256 u1) (ecMul (x, y, 1) 256 u2)) with
  | some (v, _) => v % ecN == r
  | none => false

end Sys2Proof.Machine
end

