-- ==== Sys2Proof/Config.lean ====
section
/-! DEFINITION. What the spec leaves to published standards or to no rule: constants without a body, so that no proof can rest on
a value of theirs (assumption log 3). -/

namespace Sys2Proof

/-- A value the spec does not state, of `w` bits, by the number of free values taken before it. -/
opaque Config.freeValue (w : Nat) : Nat → BitVec w

/-- A word of the identity block at BAR0 offset 0 (R1): it reports the device, its stepping and its firmware; the layout is not stated. -/
opaque Config.identity (off : Nat) (stepping : Bytes) (firmware : Nat) : BitVec 32

/-- Whether a rounding that the spec does not state goes up: entry `arg` of a column of rotor-angle table 0 (`which` the column, R268), or an
observer angle (`which` 100, R269). -/
opaque Config.roundUp (which : Nat) (arg : Int) : Bool

/-- The gain error that auto-tracking measures (R25): the amplitude it aims at is not stated. -/
opaque Config.gainError (lo hi gain : Int) : Int

/-- The PI servo of R122: the new integral and the rate (ppb) from the integral and an offset; its gains are not stated. -/
opaque Config.servo (integ theta : Int) : Int × Int

/-- Does a DATAMATRIX (kind 8, of rows by columns) or QR (kind 9, of a version and a level) hold data, with 256 for FNC1, under its standard's
encodation (R104)? -/
opaque Config.symbolHolds (kind x y : Nat) (data : List Nat) : Bool

/-- Is the module at a row and a column of a DATAMATRIX or QR symbol of rows by columns dark, under its standard (R104)? `a` is PARAM_A. -/
opaque Config.darkModule (kind a rows cols : Nat) (data : List Nat) (row col : Nat) : Bool

/-- Symbol characters that CODE128 takes for data, with the switching of shortest length (R104). -/
opaque Config.symbolChars (data : List Nat) : Nat

/-- The bars of a CODE128 (10), EAN13 (11) or ITF14 (12) symbol under its standard (R104): runs of (dark, width in elements). -/
opaque Config.bars (kind a b : Nat) (data : List Nat) : List (Bool × Nat)

/-- The two-axis quantities of three phase quantities (R269): the frame's scaling is not stated. -/
opaque Config.alphaBeta (abc : List Int) : Int × Int

/-- The mean regulated current of a motor whose phases are regulated together (kind 1 or 2 of R246), from the currents of an ADC round and the
angle (R279): its combination is not stated. -/
opaque Config.meanCurrent (kind theta : Nat) (round : List Int) : Int

/-- The seven SECDED check bits of a one-time memory row (R402): the code is not stated. -/
opaque Config.otpCheck : BitVec 32 → BitVec 7

end Sys2Proof
end

