-- ==== Sys2Proof/Machine/State.lean ====
section
/-! DEFINITION. The state of the block: every register, object, buffer, engine state and pin the spec names, as plain data,
and the state right after reset. -/

namespace Sys2Proof.Machine

/-- Sparse data by key: strictly rising keys, no entry equal to what its key reads as when unlisted. -/
abbrev Tbl (α : Type) := List (Nat × α)

/-- The reasons a step can stop with a fault. -/
inductive Fault where
  /-- Raised by no command of this model: every command ends in a next state. Safe. -/
  | unraised
  deriving DecidableEq, Repr

/-- The reasons a step can be refused. -/
inductive Refusal where
  /-- Raised by `exec` for a command that has no meaning yet, under its mnemonic. Safe. -/
  | notModelled (mnemonic : String)
  deriving DecidableEq, Repr

/-- A value of a dictionary object (R329): a number (BOOLEAN 0 or 1) or a string. -/
inductive Val where
  | num (v : Int)
  | str (b : Bytes)
  deriving DecidableEq, Repr

/-- A written value that governs from the first decision point at least 2 us after its time stamp (R7, R65). -/
structure Wait where
  key : Nat
  val : Val
  ts  : Time
  deriving DecidableEq, Repr

/-- The causes of a refused access (the rows of R331). -/
inductive Refuse where
  | mode | state | queueState | channelBusy | address | op | range | readOnly | reservedQueue | kdpSource
  | absent | absentSub | length | doorbellRange | window
  deriving DecidableEq, Repr

/-- The answer to the last access (R331): done, done with data, or refused with a cause. -/
inductive Resp where
  | ok
  | data (b : Bytes)
  | poisoned (b : Bytes)           -- a completion with the EP bit set (R295)
  | refused (r : Refuse)
  | waits            -- held over a firmware restart (R332), or until a commit's validation ends (R85)
  | none
  deriving DecidableEq, Repr

/-- What the device sends at its balls and links. -/
inductive Out where
  | emcy (node code : Nat) (data : Bytes)          -- R344
  | heartbeat (node state : Nat)
  | canSync (node counter : Nat)
  | tpdo (node n : Nat) (data : Bytes)
  | msix (vector : Nat)                            -- R316
  | kdp (mac : Nat) (dst port : Nat) (data : Bytes)
  | kdpEvent (sub seq : Nat) (entries : List Bytes)
  | arp (mac hw ip toHw toIp : Nat)
  | icmp (mac : Nat) (dst : Nat) (data : Bytes)
  | ptp (msg : PtpSend)
  | ptpResp (seq : Nat) (rx : Int)
  | fabric (port : Nat) (frame : Bytes)
  | sash (cas kind lane : Nat) (t : Time) (data : Bytes)   -- a frame (TYPE 1 to 3) or, as 0, a classic plane on a sash, from `t`
  | train (cas : Nat) (t : Time) (us : Nat)        -- PRBS-7 on every sash from `t` for `us`, then idle bits (R163)
  | latch (cas : Nat) (t : Time) (units : Nat)     -- CFRMc active from `t` (R168)
  | strobe (cas pin : Nat) (t : Time) (pulses : List (Nat × Nat))   -- CSTBc<pin>: starts after `t` and widths, in units
  | strobeEnd (cas : Nat) (t : Time)               -- its strobes end at `t` and stay inactive (R170, R195)
  | sill (cas : Nat) (halves : List Bool)          -- CSILLc, half a cell (2 us) each; true released (R172)
  | step (axis : Nat) (fwd : Bool)
  | pls (n : Nat) (a b : Bool)
  deriving DecidableEq, Repr

/-- An event source's pending record (R314). -/
structure EvRec where
  cause : Nat
  inst : Nat
  data : Bytes
  time : Nat
  repeats : Nat
  loss : Bool
  deriving DecidableEq, Repr

/-- Time base (R119 to R123): monotonic time, epoch, servo, staged write, calendar clock. -/
structure Clk where
  mono : Time
  epoch : Int
  rate : Int                    -- R122 rate adjustment, ppb
  integ : Int                   -- the servo's integral
  lockN : Nat                   -- consecutive offsets within the lock threshold
  offsetT : Option Time         -- time of the last offset
  holdT : Option Time           -- time HOLDOVER began
  battLost : Bool               -- R133
  staged : Option (Nat × Time)  -- R123: W, and when it was written
  calSec : Nat                  -- calendar clock: TAI seconds
  calSub : Nat                  -- sub-second, 1/32768 s
  calOk : Bool                  -- its check pattern is intact
  calT : Time                   -- when the calendar clock was last brought up to date
  dayOn : Bool                  -- daylight in force at the last change event
  shiftNow : Nat                -- shift in force, 16 for the default
  leapAt : Option (Int × Time)  -- effective second of the last leap entry applied, and when (R125)
  trimT : Time                  -- when the calendar trim was last applied (R121)
  loopT : Option Time           -- the last tick of the loop engine (R277)
  snapLo : Nat
  snapHi : Nat
  calDate : Nat
  calTime : Nat
  calNs : Nat
  calInfo : Nat
  deriving DecidableEq, Repr

/-- Encoder interface (R21 to R29). Its position, index and settings are dictionary objects. -/
structure Enc where
  a : Bool
  b : Bool
  z : Bool
  last : Option Time            -- last accepted edge
  ext : Int                     -- extreme position in the present direction
  recs : List (Time × Int)      -- increments, newest first
  periods : Int                 -- R23
  ang : Int
  angKnown : Bool
  adjOs : Int                   -- R25 auto-tracking adjustment
  adjOc : Int
  adjGs : Int
  adjGc : Int
  st : Nat                      -- ENCe_STATUS [8:1]
  low : Bool                    -- the latest sine/cosine sample lies outside the limits of R23
  deriving DecidableEq, Repr

/-- Line axis (R30 to R37). -/
structure Lax where
  kind : Nat                    -- source in force
  inst : Nat
  pend : Option (Nat × Nat)     -- source written, to be applied at the next update
  pos : Int                     -- pk, line steps
  rem : Nat                     -- carried fraction rem / den
  den : Nat
  tk : Time
  iv : Time                     -- last increment interval
  q : Int                       -- one increment when it came, 2^-32 line steps (R31, R36)
  ownT : Time                   -- since when the increments are the line axis's own (R40)
  zsLim : Nat                   -- zero-speed timeout of the interval in progress, us (R7)
  vraw : Int
  vf : Int
  incs : List (Time × Int)      -- (time, position in 2^-32 line steps), newest first
  virt : Int                    -- ramped virtual velocity, Q32.16
  virtR : Int                   -- remainder of the ramp
  tv : Time                     -- time up to which the virtual source has been worked
  upT : Time                    -- last 1 us update
  follow : Option Nat           -- fallback line axis followed
  foff : Int
  st : Nat                      -- LAXk_STATUS [7:0] but DIR of an encoder source and VALID
  ext : Int
  dr : Option Time              -- start of dead reckoning
  drLim : Nat                   -- its limit, us (R7)
  zcnt : Nat
  hist : List (Time × Int)      -- R40
  deriving DecidableEq, Repr

/-- General input (R39 to R43). -/
structure Gin where
  active : Bool
  run : Time                    -- time the stuck-active timer has run (R42)
  runT : Time                   -- up to when it is counted
  lim : Nat                     -- its timeout, ms, as it started (R7)
  rearm : Option Int            -- pa + D
  stuck : Bool
  ignored : Bool
  ignoredT : Time               -- the sample at which STUCK was set (R43)
  deriving DecidableEq, Repr

/-- Divided-pulse output (R45 to R47). -/
structure Pls where
  acc : Int
  q : List Bool                 -- queued steps, oldest first; true forward
  a : Bool
  b : Bool
  last : Option Time
  deriving DecidableEq, Repr

/-- Line-axis snapshot (R48). -/
structure LaxSnap where
  time : Nat
  pos : List Int
  vel : List Int
  deriving DecidableEq, Repr
/-- What a reject tag is keyed by (R76). -/
inductive TagKey where
  | input (gin seq : Nat)
  | request (queue index : Nat)
  | fabric (id : MarkId)
  deriving DecidableEq, Repr

/-- An accepted mark-request entry (R304, R305). -/
structure ReqEntry where
  queue : Nat
  index : Nat
  template : Option Nat
  tag : Nat
  cookie : Nat
  anchor : Int
  ovr : Option (Nat × Bytes)    -- field, replacement value
  t : Time                      -- acceptance
  deriving DecidableEq, Repr

/-- A field descriptor of a template (R89), with its format string or bitmap. -/
structure Field where
  kind : Nat
  flags : Nat
  set : Nat
  tone : Nat
  x : Nat
  y : Nat
  sx : Nat
  sy : Nat
  source : Nat
  fmt : Bytes
  a : Nat
  b : Nat
  deriving DecidableEq, Repr

/-- A template version in the store (R87 to R89). -/
structure Template where
  number : Nat
  length : Nat                  -- bytes of the image
  cached : Nat                  -- bytes of its cached part
  lines : Nat
  width : Nat
  crc : Nat
  fields : List Field
  names : List Bytes            -- 12 months then 7 weekdays, or none
  deriving DecidableEq, Repr

/-- A glyph record (R101) with its bitmap, `none` for a blank glyph. -/
structure Glyph where
  off : Nat
  w : Nat
  h : Nat
  left : Int
  top : Int
  adv : Nat
  bitmap : Option Bytes
  deriving DecidableEq, Repr

/-- A version of a glyph set (R100, R101). -/
structure GlyphSet where
  number : Nat
  version : Nat                 -- counts versions, so that blocks are held per version (R107)
  length : Nat
  ascent : Nat
  descent : Nat
  advance : Nat
  replace : Nat
  mapOff : Nat
  tableOff : Nat
  bitmapOff : Nat
  bitmapLen : Nat
  ranges : List (Nat × Nat × Nat)     -- first code point, count, first glyph
  glyphs : List Glyph
  deriving DecidableEq, Repr

/-- A draw of a mark (R66 to R69): a tally value, or a record with its identifier and bytes. -/
structure Draw where
  record : Bool
  src : Nat                     -- tally or queue
  value : Nat                   -- tally value or RECORD_ID
  data : Bytes
  ts : Time                     -- acceptance of a record
  held : Bool                   -- drawn from a tally held by STICK
  deriving DecidableEq, Repr

/-- The state of a SEAL field of a mark (R109, R143). -/
structure Seal where
  field : Nat
  slot : Nat
  sent : Bool                   -- its request has been issued
  sig : Option Bytes
  deriving DecidableEq, Repr

/-- The states of a line (R191 to R195). -/
inductive LSt where
  | waiting | loading | loaded | frozen | firing | fired | late | skip | fault
  deriving DecidableEq, Repr

/-- A line of a committed mark (R191 to R209). -/
structure Line where
  st : LSt
  seq : Nat                     -- SEQ of its frame
  sent : Bool                   -- its frame or plane 0 has been started
  tones : List Nat              -- after substitution (R231, R232)
  codes : List Nat              -- slice codes (R197)
  nj : List Nat                 -- elements per slice (R201)
  frameEnd : Time
  tT : Time                     -- frozen trigger time
  w : List Nat                  -- widths to deliver
  offs : List Nat               -- start of each pulse after tT, in units
  dline : Nat
  endT : Time                   -- end of its last pulse and the slice gap after it
  deriving DecidableEq, Repr

/-- A product anchor and its mark (R52 to R71). -/
structure Mark where
  key : TagKey
  order : Nat                   -- device-wide number of the anchor
  a : Int
  t : Time                      -- anchor time stamp, monotonic
  dev : Int                     -- the same, device time
  tag : Nat
  cookie : Nat
  needReq : Bool
  req : Option ReqEntry
  tplNo : Option Nat            -- given by an entry or ANCHOR; none: the default template
  s0 : Int                      -- start position
  pitch : Nat
  la : Nat
  stitch : Option MarkId
  -- composition
  comp : Option Nat             -- composition has started: its order
  compT : Time
  unit : Option Nat             -- the unit whose bank holds it
  tpl : Option Template
  sets : List GlyphSet
  draws : List Draw
  voided : List Draw
  vals : List (Nat × List Nat)  -- evaluated fields; 256 stands for FNC1
  seals : List Seal
  need : List (Nat × Nat × Nat) -- type-case blocks being filled: set, version, block
  have_ : List (Nat × Nat × Nat)
  prepared : Bool
  err : Nat                     -- field error (R106), 0 none
  missing : Bool                -- event 0xF4 raised
  lines : List (List Nat)       -- composed lines (R112)
  recomposed : Bool
  -- decision
  tD : Time
  tdDev : Int
  fails : Nat                   -- failing items, bit i for item i + 1
  vote : Option Bool
  cfg : Tbl Val                 -- settings in force at tD (R213)
  flags : Nat                   -- R82
  reserve : Nat
  -- firing
  count : Nat                   -- lines fired over, dr included (R232)
  lns : Tbl Line
  refills : List Nat            -- overflow refills outstanding (R114)
  bad : List Nat                -- lines with a double-bit galley error (R116)
  keep : List Nat               -- elements declared dead since the decision: live in this mark (R230)
  hide : List Nat               -- elements cleared since the decision: dead in this mark (R230)
  late : Nat
  skipped : Nat
  blank : Nat
  fired : Nat
  cut : Nat
  energy : Nat
  minC : Nat
  minHb : Nat
  minV : Nat
  maxT : Int
  drops : Nat
  strobeActed : Bool            -- R195: every later line is blank
  ended : Bool                  -- a fault ended pulses of one of its lines (R195)
  fin : Int                     -- device time of the close
  deriving DecidableEq, Repr

/-- A transaction of a sill line (R173 to R175). -/
inductive SillKind where
  | poll
  | record
  | add (counter amount : Nat) (serial : Bytes)
  | svcRead (addr len : Nat)
  | svcWrite (addr : Nat) (data : Bytes)
  | sensor (addr : Nat)
  deriving DecidableEq, Repr

/-- The transaction in progress, its failures and its BUSY answers, and whether a retry is owed. -/
structure Sill where
  kind : SillKind
  fails : Nat
  busy : Nat
  retry : Option Time           -- a retry is owed at this time (R174)
  deriving DecidableEq, Repr

/-- An entry of the defect list (R230). -/
structure Defect where
  elem : Nat
  kind : Nat
  time : Nat
  deriving DecidableEq, Repr

/-- A measurement cycle (R223, R224) of a pass (R227, R229): 0 in-gap, 1 full service pass, 2 one element. -/
structure Meas where
  kind : Nat
  elem : Nat
  confirm : Bool
  t0 : Time                     -- start of its round 0
  ts : Nat                      -- its settle time, units
  deriving DecidableEq, Repr

/-- A service measurement (R229): what it measures, its phase (0 power-up, 1 training, 2 measuring, 3 power-down), its result. -/
structure Svc where
  kind : Nat
  elem : Nat
  phase : Nat
  res : Nat
  deriving DecidableEq, Repr

/-- A casement: Shutter, port, firing engine and Ledger state that no dictionary object shows. -/
structure Cas where
  pend : List Mark              -- anchors not decided, oldest first
  opened : List Mark            -- committed marks, oldest first
  closing : List Mark           -- closed stitched marks of a lead whose reports are outstanding (R75)
  reqs : List ReqEntry          -- accepted entries not yet paired
  capSeq : Nat                  -- anchor captures of the casement
  disarm : Option Time
  service : Option Time
  after : Option Nat            -- what follows a power-down program in progress: 1 COLD, 5 SERVICE, 6 COLD by clear fault
  armT : Time
  trained : Bool
  train : Option Nat            -- training in progress: 1 arming, 2 service measurement
  lastD : Option Time
  recd : Bytes                  -- loaded identity record
  recOk : Bool
  held : Option Bytes           -- record held until COLD or SERVICE (R175)
  polls : Nat                   -- consecutive failed polls
  sill : Option Sill
  sillQ : List SillKind
  pollT : Option Time           -- last presence poll (R175)
  inkT : Option Time            -- last read of the ink sensor (R238)
  refreshT : Option Time        -- last refresh of the minimum period (R211)
  seqNo : Nat
  table : Option (Nat × Nat × Nat)    -- pull-up, RT25 and B of the table last filled (R180)
  cthT : Option Time
  cvsT : Option Time
  cthBad : Bool                 -- the latest CTH conversion was a thermistor fault
  svc : Option Svc              -- service measurement in progress
  trainT : Time                 -- start of the present training
  pass : Bool                   -- an in-gap pass is in progress (R227)
  seen : List Nat               -- ECC elements taken ahead of the cursor in this pass
  win : List Nat                -- head window, newest first
  hb : Nat
  lastPulse : Option Time
  lastEnd : Time                -- end of the last fired line and the gap after it
  linkT : Time                  -- when the link or shift register is free: the last frame and its idle bits sent (R156, R191, R192)
  serial : Option Bytes         -- Ledger serial of valid records
  defects : List Defect
  cursor : Nat
  passT : Option Time
  meas : Option Meas
  ribbon : Int                  -- ribbon counted since the span began, µm
  spool : Option Int            -- supply spool position at the span's start
  span : Nat                    -- its length S, µm, as it began (R244)
  usage : List (Nat × Nat × Bytes)    -- pending additions: counter, amount, SERIAL
  lines : Nat                   -- lines fired and not yet added
  hourT : Option Time
  deriving DecidableEq, Repr

/-- A tag waiting on a reject channel (R77, R79). -/
structure RejTag where
  key : TagKey
  pos : Int
  deriving DecidableEq, Repr

/-- A reject channel. -/
structure Rej where
  tags : List RejTag
  active : Bool
  untilT : Time                 -- pulse end in time mode
  untilP : Option Int           -- pulse end in distance mode
  extra : List Int              -- positions of products beyond the 256 held

  deriving DecidableEq, Repr

/-- What a change that waits for ts + 2 us concerns (R65, R67). -/
inductive Change where
  | template (n : Nat) (v : Option Template)
  | glyphSet (n : Nat) (v : Option GlyphSet)
  | tally (n : Nat)
  | record (q : Nat)
  | revoke (k : Nat)
  | disable (k : Nat)
  | declare (c e : Nat)
  | clear (c e : Nat)
  | newSupply (c : Nat) (full : Nat)
  | consume (c : Nat) (v : Nat)
  | hostSensor (c : Nat) (v : Nat)
  deriving DecidableEq, Repr

/-- A commit being validated (R86): number, staging address and length. -/
structure Commit where
  number : Nat
  addr : Nat
  length : Nat
  path : Path
  deriving DecidableEq, Repr

/-- The Compositor (R85 to R116). -/
structure Comp where
  templates : List Template           -- versions in force
  sets : List GlyphSet
  cache : List Nat                    -- template cache, most recently used first
  blocks : List (Nat × Nat × Nat)     -- type-case cache blocks, most recently used first
  fills : List (Nat × Nat × Nat)      -- fills outstanding
  commitT : Option Commit
  commitG : Option Commit
  commitR : Option Commit
  rotors : Tbl (List Nat)             -- rotor-angle tables (R268); none: not loaded
  changes : List (Time × Change)
  order : Nat
  version : Nat
  deriving DecidableEq, Repr

/-- A sealing request (R147). -/
structure NReq where
  cas : Nat
  mark : Nat                    -- Mark.order
  field : Nat
  slot : Nat
  msg : Bytes
  urg : Int
  issue : Nat
  deriving DecidableEq, Repr

/-- A verification request with its captured inputs (R149). -/
structure VReq where
  source : Nat
  x : Bytes
  y : Bytes
  msg : Bytes
  sig : Bytes
  deriving DecidableEq, Repr

/-- The operation in the Notary unit (R136, R137). -/
inductive NOp where
  | seal (r : NReq) (withdrawn : Bool)
  | verify (v : VReq)
  | import_ (slot : Nat) (scalar : Bytes)
  deriving DecidableEq, Repr

/-- The Notary (R136 to R150). -/
structure Notary where
  queue : List NReq
  op : Option NOp
  startT : Time
  verify : Option VReq          -- waiting
  import_ : Option (Nat × Bytes)
  issue : Nat
  eccHit : Bool                 -- working memory found uncorrectable during the operation in the unit
  importing : Option Nat        -- slot being programmed after an import
  revoking : Option Nat
  deriving DecidableEq, Repr

/-- A programming job of the OTP engine (R406): row, value and what it serves. -/
structure OtpJob where
  row : Nat
  value : Nat
  why : Nat                     -- 0 user, 1 Notary import, 2 Notary revocation, 3 lifecycle, policy, keys and counter
  rest : List (Nat × Nat)       -- rows still to program: row, value
  deriving DecidableEq, Repr

/-- A firmware image in place (R410, R413). -/
structure Image where
  slot : Nat                    -- 0 A, 1 B, 2 recovery, 3 host
  fw : Nat
  sec : Nat
  key : Nat
  confirmed : Bool
  startT : Time
  deriving DecidableEq, Repr

/-- One-time memory and boot (R402 to R418). Words hold the 32 data bits and, above them, 7 check bits. -/
structure Otp where
  array : Tbl Nat               -- rows 0x000 to 0x40F
  shadow : Tbl Nat
  redirect : List Nat           -- row of each allocated redirection entry, entry 0 first
  row : Nat                     -- OTP_ROW
  data : Nat                    -- OTP_DATA
  status : Nat                  -- OTP_STATUS
  margin : Bool                 -- margin read asked for by OTP_CTRL
  straps : Nat
  codeA : Nat
  codeB : Nat
  codeR : Nat
  image : Option Image
  job : Option OtpJob
  owed : List OtpJob            -- jobs that wait for the engine
  revoked : Nat                 -- firmware keys revoked, as read at the last start
  updating : Option (Nat × Nat) -- update in progress: image address and length
  hostBoot : Bool               -- BOOT waits for a host load
  corrected : Nat
  disagree : Nat
  deriving DecidableEq, Repr


/-- A tally's state beyond its objects (R129 to R133). -/
structure Tal where
  held : Bool
  latchHi : Nat                 -- HI half latched by the last read of LO
  mark : Nat                    -- S: the last mark confirmed written (R132)
  pend : Option Nat             -- the mark being written
  deriving DecidableEq, Repr

/-- What the profile generator is doing (R251 to R255). -/
inductive Plan where
  | rest
  | move (target : Int)
  | vel (target : Int)
  | run (seg : Nat) (tau : Nat) (p0 : Int) (v0 : Int)
  | stop (why : Nat)            -- 0 command, 1 limit, 2 software limit, 3 SAFE, 4 mode change, 5 fault, 6 from an assumed velocity
  deriving DecidableEq, Repr

/-- A command accepted and not yet applied at a tick (R249). -/
inductive AxCmd where
  | move (target : Int)
  | vel (target : Int)
  | stop
  | limit (positive : Bool)
  | enable
  | disable
  | brake
  | align
  | runStart (seg : Nat)
  | clear
  deriving DecidableEq, Repr

/-- What a half-bridge drives (R246, R260). -/
inductive Drive where
  | off
  | high
  | low
  deriving DecidableEq, Repr

/-- A half-bridge: the gate it asks for, and when it last asked its gates to go inactive (R260). -/
structure Half where
  want : Drive
  hiOff : Time
  loOff : Time
  deriving DecidableEq, Repr

/-- A chopper phase (R262, R263). -/
structure Chop where
  on : Bool
  neg : Bool                    -- the set-point is negative
  t0 : Time                     -- start of the present cycle
  offT : Time                   -- start of OFF
  hi : Nat
  lo : Nat
  off : Int
  iset : Int
  decay : Nat                   -- decay mode and mixed fraction of the cycle
  mean : Int                    -- mean of the latest cycle, LSB
  deriving DecidableEq, Repr

/-- The flux observer of a BRUSHLESS power port (R269 to R271). -/
structure Obs where
  psiA : Int
  psiB : Int
  theta : Nat
  chgT : Time                   -- when the angle last changed
  per : Time                    -- time between its last two changes, 0 unknown
  dth : Int                     -- the last change, counts
  valid : Bool
  rounds : Nat                  -- consecutive valid rounds
  deriving DecidableEq, Repr

/-- An axis (R246 to R274). Kind, state, status, positions and velocity are dictionary objects. -/
structure Axis where
  frac : Nat                    -- fraction of the commanded position, 2^-32 count
  vm : Int                      -- velocity in 1/1000 raw
  plan : Plan
  cmds : List AxCmd             -- waiting for the next tick, oldest first
  checking : Option Nat         -- run check in progress: first segment
  armed : Option (Nat × Nat)    -- run armed: first segment, GIN
  braking : Bool
  gates : Bool                  -- gates driven (or SDa_EN active)
  zeroT : Option Time           -- since when the velocity is 0
  holdCur : Bool                -- hold current in use
  disT : Option Time            -- when disabled
  disV : Int                    -- last commanded velocity then
  enT : Time                    -- EN active since
  catchT : Option Time          -- catch measurement in progress since
  catchBrake : Bool
  alignT : Option Time
  fbOff : Int                   -- feedback offset of a preset
  followT : Option Time         -- following error above the limit since
  disagreeT : Option Time
  startT : Option Time          -- open-loop start since
  lastStep : Option Time
  lastInc : Option Time         -- latest step or microstep of the profile generator (R30, R32)
  owed : List (Bool × Time)     -- steps not issued yet: forward, instant of the crossing
  chain : List Nat              -- segments of the running chain
  velSet : Option Int           -- velocity set-point published by a loop slot
  obsRem : Int                  -- fraction of a count of the position integrated from the observer
  dir : Bool                    -- SDa_DIR, true reverse
  dirT : Time                   -- since when
  chop : Tbl Chop
  sector : Nat
  half : Tbl Half
  brk : Tbl Time                -- phases whose low side the brake current limit holds open: until when (R272)
  round : List Int              -- currents of the latest ADC round, mA (R261)
  tickT : Option Time           -- last interpolation tick (R247)
  roundT : Option Time          -- end of the latest ADC round
  obs : Obs
  deriving DecidableEq, Repr

/-- A loop slot's state that no dictionary object shows (R280 to R286). -/
structure Loop where
  mode : Nat                    -- mode in force
  df : Int
  xprev : Int
  h0 : Int
  k : Nat                       -- evaluations since entry to AUTO or to the ramp
  ramping : Bool
  applied : Option (List Val)   -- the staged set as it stood when Apply was written, not yet taken up
  srcs : List Nat               -- source selectors at the last evaluation
  enabled : Bool                -- the target axis was enabled since the last evaluation
  deriving DecidableEq, Repr

/-- A queue descriptor and its engine state (R298, R309). Rows of the descriptor that no field below names are derived. -/
structure Queue where
  enabled : Bool
  dram : Bool                   -- LOCATION
  typ : Nat
  z : Nat                       -- LOG2SIZE
  ecode : Nat
  malformed : Bool
  fullSince : Bool              -- the event of R314 for entry into the full state has been raised
  base : Nat
  wb : Nat
  prod : Nat
  cons : Nat
  fetched : Nat                 -- next index the Porter fetches
  weight : Nat
  cls : Nat
  irqEn : Bool
  vector : Nat
  irqCount : Nat
  irqTime : Nat
  param : Nat
  count : Nat
  drop : Nat
  errIndex : Nat
  eff : Nat                     -- effective class
  agedAt : Option Time          -- start of the aging time
  unsig : Nat                   -- entries written without a signal
  unsigT : Time                 -- time of the oldest such entry
  pool : List (Bytes × Nat × Time)   -- undrawn records: data, RECORD_ID, acceptance time (RECORD_FEED)
  lossOwed : Bool               -- R313
  got : List Bytes              -- entries fetched and not yet accepted
  deriving DecidableEq, Repr

/-- One DMA channel (R317). -/
structure Dma where
  prio : Nat
  eventEn : Bool
  sign : Bool
  pack : Nat
  ws : Nat
  wd : Nat
  srcDram : Bool
  dstDram : Bool
  idxDram : Bool
  gather : Bool
  ecode : Nat
  preempted : Bool
  error : Bool
  done : Bool
  busy : Bool
  src : Nat
  dst : Nat
  count : Nat
  remain : Nat
  idx : Nat
  block : Nat
  share : Nat
  burst : Nat
  preempts : Nat
  bytes : Nat
  tnext : Time
  served : Nat                  -- place of its last burst in the order of bursts (R323)
  deriving DecidableEq, Repr

/-- One completion in the writer's buffer: its casement, queue and entries (R311, R312). -/
structure Compl where
  queue : Nat
  cas : Nat
  tfin : Nat
  entries : List Bytes
  deriving DecidableEq, Repr

/-- A dictionary request outstanding (R307). -/
structure DReq where
  queue : Option Nat            -- none: the mailbox
  index : Nat
  entry : Bytes
  deriving DecidableEq, Repr

/-- The host interface (R292 to R328). -/
structure HostIf where
  bar2 : Nat
  errAddr : Nat
  errCause : Nat
  errBar : Bool
  errValid : Bool
  errOverrun : Bool
  queues : Tbl Queue
  dma : Tbl Dma
  pointer : List Nat            -- Porter pointer of each class
  grants : List Nat             -- consecutive grants of the queue at each pointer
  mbox : Bytes
  mboxBusy : Bool
  reqs : List DReq
  buffer : List Compl
  events : Tbl EvRec
  latched : Tbl Nat             -- occurrences counted per source
  routes : Tbl Nat              -- EVROUTEe [24:0]
  msixAddr : Tbl Nat
  msixData : Tbl Nat
  msixUnmasked : Tbl Nat
  msixPend : List Nat
  linkUp : Bool
  dmaSeq : Nat                  -- bursts so far (R323)
  grantT : Time                 -- when the next grant (R308), event entry (R314) and completion write (R312) may be
  eventT : Time
  drainT : Time
  deriving DecidableEq, Repr

/-- Memories (R15): device DRAM with its installed size, host memory, boot flash, as sparse bytes. -/
structure Mem where
  dramSize : Nat
  dram : List Host.Cell
  host : List Host.Cell
  flash : List Host.Cell
  deriving DecidableEq, Repr

/-- One CANopen FD node (R340 to R344). -/
structure Can where
  nmt : Nat                     -- 0x7F pre-operational, 0x05 operational, 0x04 stopped
  emcyWait : List (Nat × Bytes)
  inhibitEnd : Time
  rpdoWait : Tbl Bytes          -- synchronous RPDOs received, applied at the next SYNC
  rpdoBad : List Nat            -- RPDO numbers refused and not accepted since
  sync : Nat                    -- SYNC counter
  ignored : Nat                 -- NMT commands ignored
  tpdoSync : Tbl Nat            -- SYNCs counted per TPDO
  tpdoLast : Tbl Time           -- time of the last transmission per TPDO
  syncT : Option Time           -- the last SYNC produced
  hbT : Option Time             -- the last heartbeat produced
  deriving DecidableEq, Repr

/-- One client of the KDP response cache (R350). -/
structure KdpClient where
  src : Nat
  port : Nat
  session : Nat
  seq : Nat
  resp : Bytes                  -- the answer of the last response: COUNT, then the operations
  deriving DecidableEq, Repr

/-- PTP engine (R353): the exchange data it keeps between messages. -/
structure Ptp where
  syncSeq : Nat
  syncOrigin : Int
  syncRx : Int
  haveSync : Bool
  reqSeq : Nat
  reqTx : Int
  lastAnnounce : Time
  utc : Option Int              -- TAI - UTC of the grandmaster, where it is valid
  deriving DecidableEq, Repr

/-- The NMT commands of R342. -/
inductive NmtCmd where
  | start | preop | stop | resetComm | resetNode
  deriving DecidableEq, Repr

/-- A dictionary request held over a firmware restart (R332). -/
inductive Held where
  | write (p : Path) (idx sub : Nat) (v : Bytes)
  | read (p : Path) (idx sub : Nat)
  | kdp (m src port : Nat) (data : Bytes)
  | rpdo (i n : Nat) (data : Bytes)
  | nmt (i : Nat) (cmd : NmtCmd)
  deriving DecidableEq, Repr

/-- Networks and the firmware that serves the dictionary. -/
structure Net where
  can : Tbl Can
  kdp : List KdpClient          -- most recently used first, at most 8
  kdpSeq : Tbl Nat              -- SEQUENCE per subscriber
  ptp : Ptp
  restarting : Bool             -- firmware restart in progress (R332)
  held : List Held              -- requests waiting over the restart, oldest first
  deriving DecidableEq, Repr

/-- One bank of the persistent store (R336): sequence number and contents. -/
structure Bank where
  seq : Nat
  vals : Tbl Val
  aux : List (Nat × Bytes)      -- Ledger serial and defect list by casement (R222)
  words : Tbl Nat               -- the Lamplighter's program store (R392)
  deriving DecidableEq, Repr

/-- The persistent store (R334 to R337). -/
structure Store where
  bankA : Option Bank
  bankB : Option Bank
  saving : Option (Bank × Bool) -- save in progress; true for an automatic one
  path : Option Path            -- who waits for the commanded save
  lastAuto : Option Time
  autoOwed : Bool
  restoreDefaults : Bool
  deriving DecidableEq, Repr

/-- A frame in a replay buffer (R361). -/
structure Sent where
  seq : Nat
  frame : Bytes
  tries : Nat
  at_ : Time
  deriving DecidableEq, Repr

/-- A fabric port (R358, R361). -/
structure FPort where
  up : Bool
  since : Time
  mismatch : Bool               -- neighbour reports another fabric ID
  replay : List Sent
  txSeq : Nat
  rxSeq : Option Nat            -- the control frame passed on last
  nb : Option (Nat × Nat)       -- neighbour node and port
  deriving DecidableEq, Repr

/-- A node of the view (R364): node, version, port list. -/
structure Topo where
  node : Nat
  version : Nat
  entries : List TopoEntry
  deriving DecidableEq, Repr

/-- A stitched mark as its lead follows it (R373 to R377). -/
structure Stitch where
  id : MarkId
  votes : List (Nat × Nat × Bool)     -- participant node, casement, result
  deadline : Option Int               -- earliest known deadline, on the monotonic count in ns (R119)
  decided : Option Bool               -- GO or ABORT sent
  reports : List (Nat × Nat)          -- participants whose REPORT has arrived
  bad : Bool                          -- a report of a refusal or of too many blank lines
  anchorFrame : List (Nat × Bytes)    -- ANCHOR payloads sent, by destination
  closed : Bool                       -- the lead's own completion has formed
  a : Int                             -- anchor position on the lead's line axis
  deriving DecidableEq, Repr

/-- The Azrov node (R363 to R377). -/
structure Fabric where
  ports : Tbl FPort
  view : List Topo
  viewT : Time                  -- when the view last changed
  version : Nat                 -- own TOPOLOGY version
  roots : List Nat              -- nodes known to have the time-root flag
  tree : List (Nat × Nat)       -- tree links as (node × 4 + port) of both ends
  treeVersion : Nat
  staged : Option (Nat × Nat × Nat × Nat)   -- version, apply time, root, epoch
  failed : List Nat             -- tree links failed and kept out
  failSeen : List Nat           -- FAILOVER identities passed on
  redisc : Bool                 -- a rediscovery after a failover has started and is not complete (R366)
  sentT : Tbl Time              -- when HELLO (0), TIME_SYNC of port p (1 + p) and POSITION of slot j (8 + j) were last sent
  conflict : Bool
  slotSeq : Tbl Nat             -- broadcast sequence per exported slot
  axisSeq : Tbl Nat             -- sequence of the latest accepted frame, by node × 32 + axis; 65536 none yet
  axisT : Tbl Time              -- when it arrived
  axisTb : Tbl Int              -- its FTIME as device time
  poss : Tbl Int                -- POS of the latest accepted frame, by node × 32 + axis
  vels : Tbl Int                -- VEL of the latest accepted frame, by node × 32 + axis
  slotConflict : List Nat
  discardT : Tbl Time           -- last POSITION_DISCARDED event per slot
  stitches : List Stitch
  expired : List (Nat × MarkId) -- stitched marks refused at their GO deadline, with their casement
  deriving DecidableEq, Repr

/-- A supply rail (R385 to R387). Its state and fault count are dictionary objects. -/
structure Rail where
  en : Bool                     -- EN active
  pg : Bool                     -- filtered level of the PG input
  due : Time                    -- end of the PG timeout (RAMPING) or of the retry delay (RETRY_WAIT)
  tmo : Nat                     -- PG timeout in force, in 100 us: taken up at each RAMPING
  timed : Bool                  -- the PG timeout of the present RAMPING has been taken
  att : Nat                     -- retry attempts used
  goodT : Time                  -- entry into GOOD
  offT : Option Time            -- last DISABLE or rail fault (R391)
  deriving DecidableEq, Repr

/-- An executor (R388): 0 to 47 of the casements, 48 the system's. State, step and last status are dictionary objects. -/
structure Exec where
  entry : Nat
  startT : Time
  stepT : Time
  limit : Nat                   -- program time limit in force, s (shutdown time limit in ms for HW_SHUTDOWN)
  released : Bool               -- LSYNC released by its SYNC_STEP
  due : Time                    -- when the timeout of its SYNC_STEP ends
  expired : Bool                -- the timeout of its WAIT_PG has been taken
  deriving DecidableEq, Repr

/-- The Lamplighter (R383 to R401). -/
structure Lamp where
  words : Tbl Nat               -- active store; an unlisted word is R399's
  shadow : Tbl Nat              -- words written to the shadow copy; an unlisted word is R399's
  entries : Tbl Nat             -- active entry points; unlisted: R399
  ex : Tbl Exec
  rails : Tbl Rail
  locked : Bool                 -- ENABLE on casement executors ignored (R388)
  upOk : Bool                   -- POWER_UP has completed with status 0 since the last shutdown
  lsyncLow : Bool               -- LSYNC driven low by the device
  qualT : Option Time           -- qualification of the present step (R395)
  pressT : Option Time          -- PB_N filtered low since
  longS : Nat                  -- long-press time of the present press, s (R7: a press in progress keeps it)
  forced : Bool                 -- force off by the present press
  mr : Bool                     -- a manual reset's shutdown is in progress
  deriving DecidableEq, Repr

/-- Device modes, transitions and resets (R419 to R427). The mode itself is object 0x2100:02. -/
structure ModeC where
  trans : Option Nat            -- transition in progress: its target
  startup : Option Nat          -- start-up target steps still owed: 3 or 4
  porstLow : Bool               -- PORST_N held low
  resetHold : Option (Nat × Time)  -- internal reset of R425 in progress: its cause and its start
  resetOwed : Option Nat        -- a reset that follows HW_SHUTDOWN, with its cause
  deriving DecidableEq, Repr

/-- Fault collector (R432 to R450). Class, flags, syndromes and counts per bit are dictionary objects. -/
structure Flt where
  fsw : BitVec 64
  live : BitVec 64
  latchHi : Nat                 -- FSW_HI as latched by a read of FSW_LO
  latchLive : Nat
  internalClock : Bool
  wdogRestart : Bool
  clusterHeld : Bool            -- cluster held in reset by R442, a firmware restart owed
  wdogMs : Nat                  -- watchdog period loaded
  wdogT : Time                  -- when it was loaded last
  selftest : Bool
  safeA : Bool                  -- pin levels permit power
  safeB : Bool
  phase : Bool                  -- heartbeat phase (R445)
  tempT : Option Time           -- last measurement of the die temperature (R435)
  beatT : Time                  -- last toggle of the heartbeat, or the release of the pins
  setT : List (Nat × Time)      -- when each bit that is set was set (R438)
  lastT : List (Nat × Time)     -- when each bit that is set had its last occurrence
  firstT : Time                 -- when the first fault was recorded (R439)
  injected : List Nat           -- bits whose next occurrence is injected
  arm : Option (Nat × Nat × Nat × Nat)   -- injection: target, instance, detail, kind
  concern : List (Nat × Nat)    -- (bit, casement): CASEMENT_STOP occurrences since the casement entered FAULTED; (40, 255): bit 40 of a system rail
  deriving DecidableEq, Repr

/-- The state of the KD6192. `pending` is the queue of commands that wait, first in first out; `freeIx` counts the free values
taken (log 3) and `out` lists what the device has sent, newest first (log 4): these are the model's own. -/
structure State where
  pending : List Instr
  freeIx : Nat
  out : List Out
  resp : Resp
  clk : Clk
  obj : Tbl Val
  force : Tbl Val
  waits : List Wait
  enc : Tbl Enc
  lax : Tbl Lax
  gin : Tbl Gin
  pls : Tbl Pls
  snap : LaxSnap
  tal : Tbl Tal
  axes : Tbl Axis
  loops : Tbl Loop
  segs : Tbl Bytes              -- segment pool (R250)
  host : HostIf
  mem : Mem
  net : Net
  store : Store
  fab : Fabric
  lamp : Lamp
  mode : ModeC
  flt : Flt
  cas : Tbl Cas
  rej : Tbl Rej
  vdda : Tbl Nat                -- VDDA18 in mV as each shared ADC derived it (R179)
  adc : Tbl (Nat × Time)        -- each shared ADC: its next slot of the round of 18, and when it is free (R178)
  comp : Comp
  notary : Notary
  otp : Otp
  led : Tbl Nat                 -- element records by bank * 32768 + record (R217, R218)
  ledScrub : Nat                -- scrubber's next record
  ledScrubT : Option Time       -- last scrub step (R234)
  deriving DecidableEq, Repr

/-- A segment never written. -/
def zeroSeg : Nat → Bytes := fun _ => List.replicate 16 0

/-! What an unlisted instance is: the state right after reset. -/

def Enc.init : Enc := ⟨false, false, false, none, 0, [], 0, 0, false, 0, 0, 0, 0, 0, false⟩
def Lax.init : Lax :=
  { kind := 0, inst := 0, pend := none, pos := 0, rem := 0, den := 1, tk := 0, iv := 0, q := 0, ownT := 0, zsLim := 100000, vraw := 0,
    vf := 0, incs := [], virt := 0, virtR := 0, tv := 0, upT := 0, follow := none, foff := 0, st := 0x10, ext := 0, dr := none, drLim := 0,
    zcnt := 0, hist := [] }
def Gin.init : Gin := ⟨false, 0, 0, 0, none, false, false, 0⟩
def Pls.init : Pls := ⟨0, [], false, false, none⟩
def Tal.init : Tal := ⟨false, 0, 0, none⟩
def Chop.init : Chop := ⟨false, false, 0, 0, 0, 0, 0, 0, 0, 0⟩
def Half.init : Half := ⟨.off, 0, 0⟩
def Axis.init : Axis :=
  { frac := 0, vm := 0, plan := .rest, cmds := [], checking := none, armed := none, braking := false, gates := false,
    zeroT := none, holdCur := false, disT := none, disV := 0, enT := 0, catchT := none, catchBrake := false,
    alignT := none, fbOff := 0, followT := none, disagreeT := none, startT := none, lastStep := none, lastInc := none,
    owed := [], chain := [], velSet := none, obsRem := 0, dir := false, dirT := 0, chop := [], sector := 0, half := [], brk := [], round := [], tickT := none, roundT := none,
    obs := ⟨0, 0, 0, 0, 0, 0, false, 0⟩ }
def Loop.init : Loop := ⟨0, 0, 0, 0, 0, false, none, [0, 65280, 65280], false⟩
def Queue.init : Queue :=
  { enabled := false, dram := false, typ := 0, z := 4, ecode := 0, malformed := false, fullSince := false, base := 0,
    wb := 0, prod := 0, cons := 0, fetched := 0, weight := 1, cls := 4, irqEn := false, vector := 0, irqCount := 1,
    irqTime := 0, param := 0, count := 0, drop := 0, errIndex := 0, eff := 4, agedAt := none, unsig := 0, unsigT := 0,
    pool := [], lossOwed := false, got := [] }
def Dma.init : Dma :=
  { prio := 7, eventEn := true, sign := false, pack := 0, ws := 0, wd := 0, srcDram := false, dstDram := false,
    idxDram := false, gather := false, ecode := 0, preempted := false, error := false, done := false,
    busy := false, src := 0, dst := 0, count := 0, remain := 0, idx := 0, block := 0, share := 0, burst := 2,
    preempts := 0, bytes := 0, tnext := 0, served := 0 }
def Can.init : Can := ⟨0x7F, [], 0, [], [], 0, 0, [], [], none, none⟩
def FPort.init : FPort := ⟨false, 0, false, [], 0, none, none⟩
def Rail.init : Rail := ⟨false, false, 0, 200, false, 0, 0, none⟩
def Exec.init : Exec := ⟨0, 0, 0, 60, false, 0, false⟩

def Line.init : Line := ⟨.waiting, 0, false, [], [], [], 0, 0, [], [], 0, 0⟩
def Cas.init : Cas :=
  { pend := [], opened := [], closing := [], reqs := [], capSeq := 0, disarm := none, service := none, after := none, armT := 0,
    trained := false, train := none, lastD := none, recd := [], recOk := false, held := none, polls := 0, sill := none,
    sillQ := [], pollT := none, inkT := none, refreshT := none, seqNo := 0, table := none, cthT := none, cvsT := none, cthBad := false, svc := none, trainT := 0, pass := false, seen := [],
    win := [], hb := 32768, lastPulse := none, lastEnd := 0, linkT := 0, serial := none, defects := [], cursor := 0, passT := none,
    meas := none, ribbon := 0, spool := none, span := 100000, usage := [], lines := 0, hourT := none }
def Rej.init : Rej := ⟨[], false, 0, none, []⟩

/-- The state right after reset: PORST_N low, mode OFF (R419, R424). Objects read as their defaults. -/
def State.reset : State where
  pending := []
  freeIx := 0
  out := []
  resp := .none
  clk := { mono := 0, epoch := 0, rate := 0, integ := 0, lockN := 0, offsetT := none, holdT := none,
           battLost := false, staged := none, calSec := 0, calSub := 0, calOk := false, calT := 0,
           dayOn := false, shiftNow := 16, leapAt := none, trimT := 0, loopT := none, snapLo := 0, snapHi := 0, calDate := 0,
           calTime := 0, calNs := 0, calInfo := 0 }
  obj := []
  force := []
  waits := []
  enc := []
  lax := []
  gin := []
  pls := []
  snap := ⟨0, [], []⟩
  tal := []
  axes := []
  loops := []
  segs := []
  host := { bar2 := 0, errAddr := 0, errCause := 0, errBar := false, errValid := false, errOverrun := false,
            queues := [], dma := [], pointer := [0, 0, 0, 0, 0, 0, 0, 0], grants := [0, 0, 0, 0, 0, 0, 0, 0], mbox := [],
            mboxBusy := false, reqs := [], buffer := [], events := [], latched := [], routes := [], msixAddr := [],
            msixData := [], msixUnmasked := [], msixPend := [], linkUp := false, dmaSeq := 0,
            grantT := 0, eventT := 0, drainT := 0 }
  mem := { dramSize := 4294967296, dram := [], host := [], flash := [] }
  net := { can := [], kdp := [], kdpSeq := [], ptp := ⟨0, 0, 0, false, 0, 0, 0, none⟩, restarting := false, held := [] }
  store := ⟨none, none, none, none, none, false, false⟩
  fab := { ports := [], view := [], viewT := 0, version := 0, roots := [], tree := [], treeVersion := 0, staged := none,
           failed := [], failSeen := [], redisc := false, sentT := [], conflict := false, slotSeq := [], axisSeq := [], axisT := [], axisTb := [], poss := [], vels := [],
           slotConflict := [], discardT := [], stitches := [], expired := [] }
  lamp := { words := [], shadow := [], entries := [], ex := [], rails := [], locked := true, upOk := false,
            lsyncLow := true, qualT := none, pressT := none, longS := 8, forced := false, mr := false }
  mode := { trans := none, startup := none, porstLow := true, resetHold := none, resetOwed := none }
  flt := { fsw := 0, live := 0, latchHi := 0, latchLive := 0, internalClock := false, wdogRestart := false, clusterHeld := false, wdogMs := 0, wdogT := 0, selftest := false, safeA := false, safeB := false,
           phase := false, beatT := 0, tempT := none, setT := [], lastT := [], firstT := 0, injected := [], arm := none, concern := [] }
  cas := []
  rej := []
  vdda := []
  adc := []
  comp := { templates := [], sets := [], cache := [], blocks := [], fills := [],
            commitT := none, commitG := none, commitR := none, rotors := [], changes := [], order := 0, version := 0 }
  notary := ⟨[], none, 0, none, none, 0, false, none, none⟩
  otp := { array := [], shadow := [], redirect := [], row := 0, data := 0, status := 0, margin := false, straps := 0,
           codeA := 0, codeB := 0, codeR := 0, image := none, job := none, owed := [], revoked := 0, updating := none, hostBoot := false,
           corrected := 0, disagree := 0 }
  led := []
  ledScrub := 0
  ledScrubT := none

end Sys2Proof.Machine
end

