-- ==== Sys2Proof/Machine/Schema.lean ====
section
/-! DEFINITION. The object dictionary's table (R338): every object of the spec's dictionary tables with its type (R329), the modes
in which a write is accepted (R6, R332), its default, its range (R18) and the moment a write takes effect (R7). -/

namespace Sys2Proof.Machine

/-- Object types of R329; integers by their bytes, strings by their lengths. -/
inductive OTy where
  | bool
  | uns (n : Nat)
  | int (n : Nat)
  | vstr (lo hi : Nat)
  | ostr (lo hi : Nat)
  deriving DecidableEq, Repr

/-- The range of a table row, as far as the row itself states it; relations between objects are in Service. -/
inductive Rng where
  | any
  | rng (lo hi : Int)
  | orv (lo hi x : Int)
  | set (l : List Int)
  deriving DecidableEq, Repr

/-- When a written value first governs (R7). `imm` covers every entry whose value is read at the event the entry names. -/
inductive Te where
  | imm
  | sub
  | decision
  | standby
  | arming
  | auto
  | reset
  | enable
  | staged
  deriving DecidableEq, Repr

/-- One table row: sub-indices `sub` to `sub + n - 1`. `acc` has bits C 0, S 1, Y 2, M 3, V 4, SAFE 5; 0 is read-only. -/
structure Row where
  sub : Nat
  n   : Nat
  ty  : OTy
  acc : Nat
  wo  : Bool
  dfl : Int
  rng : Rng
  te  : Te
  deriving DecidableEq, Repr

/-- A table repeated at `base + stride * i` for `i < count`. -/
structure Block where
  base   : Nat
  stride : Nat
  count  : Nat
  rows   : List Row
  deriving DecidableEq, Repr

/-- Part 1 of the dictionary. -/
def dict0 : List Block :=
  [⟨0x1000, 1, 1, [
    ⟨0, 1, .uns 4, 0, false, 0, .any, .imm⟩
    ]⟩,
   ⟨0x1001, 1, 1, [
    ⟨0, 1, .uns 1, 0, false, 0, .any, .imm⟩
    ]⟩,
   ⟨0x1003, 1, 1, [
    ⟨0, 1, .uns 1, 31, false, 0, .set [0], .imm⟩,
    ⟨1, 16, .uns 4, 0, false, 0, .any, .imm⟩
    ]⟩,
   ⟨0x1005, 1, 1, [
    ⟨0, 1, .uns 4, 3, false, 128, .any, .imm⟩
    ]⟩,
   ⟨0x1006, 1, 1, [
    ⟨0, 1, .uns 4, 3, false, 0, .any, .imm⟩
    ]⟩,
   ⟨0x1008, 1, 3, [
    ⟨0, 1, .vstr 0 16, 0, false, 0, .any, .imm⟩
    ]⟩,
   ⟨0x1014, 1, 1, [
    ⟨0, 1, .uns 4, 3, false, 129, .any, .imm⟩
    ]⟩,
   ⟨0x1015, 1, 1, [
    ⟨0, 1, .uns 2, 3, false, 0, .any, .imm⟩
    ]⟩,
   ⟨0x1016, 1, 1, [
    ⟨0, 1, .uns 1, 0, false, 8, .any, .imm⟩,
    ⟨1, 8, .uns 4, 3, false, 0, .any, .imm⟩
    ]⟩,
   ⟨0x1017, 1, 1, [
    ⟨0, 1, .uns 2, 3, false, 0, .any, .imm⟩
    ]⟩,
   ⟨0x1018, 1, 1, [
    ⟨0, 1, .uns 1, 0, false, 4, .any, .imm⟩,
    ⟨1, 4, .uns 4, 0, false, 0, .any, .imm⟩
    ]⟩,
   ⟨0x1019, 1, 1, [
    ⟨0, 1, .uns 1, 3, false, 0, .any, .imm⟩
    ]⟩]

/-- Part 2 of the dictionary. -/
def dict1 : List Block :=
  [⟨0x1400, 1, 16, [
    ⟨0, 1, .uns 1, 0, false, 5, .any, .imm⟩,
    ⟨1, 1, .uns 4, 3, false, 2147483648, .any, .imm⟩,
    ⟨2, 1, .uns 1, 3, false, 255, .any, .imm⟩,
    ⟨3, 1, .uns 2, 3, false, 0, .any, .imm⟩,
    ⟨5, 1, .uns 2, 3, false, 0, .any, .imm⟩
    ]⟩,
   ⟨0x1600, 1, 16, [
    ⟨0, 1, .uns 1, 3, false, 0, .rng (0) (32), .imm⟩,
    ⟨1, 32, .uns 4, 3, false, 0, .any, .imm⟩
    ]⟩,
   ⟨0x1800, 1, 16, [
    ⟨0, 1, .uns 1, 0, false, 6, .any, .imm⟩,
    ⟨1, 1, .uns 4, 3, false, 2147483648, .any, .imm⟩,
    ⟨2, 1, .uns 1, 3, false, 255, .any, .imm⟩,
    ⟨3, 1, .uns 2, 3, false, 0, .any, .imm⟩,
    ⟨5, 1, .uns 2, 3, false, 0, .any, .imm⟩,
    ⟨6, 1, .uns 1, 3, false, 0, .any, .imm⟩
    ]⟩,
   ⟨0x1A00, 1, 16, [
    ⟨0, 1, .uns 1, 3, false, 0, .rng (0) (32), .imm⟩,
    ⟨1, 32, .uns 4, 3, false, 0, .any, .imm⟩
    ]⟩,
   ⟨0x2010, 1, 1, [
    ⟨1, 1, .uns 1, 1, false, 0, .rng (0) (4), .reset⟩,
    ⟨2, 1, .uns 1, 0, false, 0, .any, .imm⟩
    ]⟩,
   ⟨0x4800, 16, 16, [
    ⟨1, 1, .uns 1, 1, false, 0, .set [0, 1, 2], .imm⟩,
    ⟨2, 1, .bool, 3, false, 0, .any, .imm⟩,
    ⟨3, 1, .bool, 1, false, 1, .any, .imm⟩,
    ⟨4, 1, .uns 1, 3, false, 1, .rng (0) (3), .imm⟩,
    ⟨5, 1, .uns 1, 7, false, 10, .rng (1) (255), .imm⟩,
    ⟨6, 1, .uns 1, 3, false, 12, .rng (0) (24), .imm⟩,
    ⟨7, 1, .uns 4, 7, false, 16, .any, .imm⟩,
    ⟨8, 1, .bool, 3, false, 0, .any, .imm⟩,
    ⟨9, 1, .bool, 7, false, 0, .any, .imm⟩,
    ⟨10, 1, .int 8, 0, false, 0, .any, .imm⟩,
    ⟨11, 1, .int 8, 0, false, 0, .any, .imm⟩,
    ⟨12, 1, .uns 8, 0, false, 0, .any, .imm⟩
    ]⟩,
   ⟨0x4801, 16, 16, [
    ⟨16, 1, .int 2, 0, false, 0, .any, .imm⟩,
    ⟨32, 1, .int 2, 7, false, 0, .rng (-2048) (2048), .imm⟩,
    ⟨48, 1, .int 2, 0, false, 0, .any, .imm⟩,
    ⟨17, 1, .int 2, 0, false, 0, .any, .imm⟩,
    ⟨33, 1, .int 2, 7, false, 0, .rng (-2048) (2048), .imm⟩,
    ⟨49, 1, .int 2, 0, false, 0, .any, .imm⟩,
    ⟨18, 1, .int 4, 0, false, 16384, .any, .imm⟩,
    ⟨34, 1, .int 4, 7, false, 0, .any, .imm⟩,
    ⟨50, 1, .int 4, 0, false, 16384, .any, .imm⟩,
    ⟨19, 1, .int 4, 0, false, 16384, .any, .imm⟩,
    ⟨35, 1, .int 4, 7, false, 0, .any, .imm⟩,
    ⟨51, 1, .int 4, 0, false, 16384, .any, .imm⟩,
    ⟨20, 1, .int 2, 0, false, 0, .any, .imm⟩,
    ⟨36, 1, .int 2, 7, false, 0, .rng (-500) (500), .imm⟩,
    ⟨52, 1, .int 2, 0, false, 0, .any, .imm⟩
    ]⟩,
   ⟨0x2700, 1, 32, [
    ⟨1, 1, .uns 1, 31, false, 0, .rng (0) (4), .imm⟩,
    ⟨2, 1, .uns 2, 31, false, 0, .any, .sub⟩,
    ⟨3, 1, .uns 4, 3, false, 1, .rng (1) (4294967295), .imm⟩,
    ⟨4, 1, .uns 4, 3, false, 1, .rng (1) (4294967295), .imm⟩,
    ⟨5, 1, .uns 1, 7, false, 255, .orv (0) 31 255, .imm⟩,
    ⟨6, 1, .uns 2, 7, false, 5000, .rng (0) (20000), .imm⟩,
    ⟨7, 1, .uns 2, 7, false, 1000, .rng (1) (65535), .imm⟩,
    ⟨8, 1, .uns 1, 7, false, 2, .rng (0) (8), .imm⟩,
    ⟨9, 1, .uns 4, 7, false, 100000, .rng (1000) (10000000), .imm⟩,
    ⟨10, 1, .int 8, 15, false, 0, .rng (-85899345) (85899345), .imm⟩,
    ⟨11, 1, .uns 4, 15, false, 65536, .rng (7) (2147418112), .imm⟩,
    ⟨12, 1, .uns 4, 7, false, 65536, .any, .imm⟩,
    ⟨13, 1, .int 8, 0, false, 0, .any, .imm⟩,
    ⟨14, 1, .int 8, 0, false, 0, .any, .imm⟩,
    ⟨15, 1, .uns 2, 0, false, 16, .any, .imm⟩,
    ⟨16, 1, .int 8, 3, true, 0, .any, .imm⟩
    ]⟩,
   ⟨0x2740, 1, 64, [
    ⟨1, 1, .bool, 3, false, 0, .any, .imm⟩,
    ⟨2, 1, .uns 1, 7, false, 10, .any, .imm⟩,
    ⟨3, 1, .uns 1, 3, false, 0, .rng (0) (31), .imm⟩,
    ⟨4, 1, .uns 4, 7, false, 0, .any, .imm⟩,
    ⟨5, 1, .uns 2, 7, false, 500, .any, .imm⟩,
    ⟨6, 1, .uns 4, 0, false, 0, .any, .imm⟩,
    ⟨7, 1, .uns 4, 0, false, 0, .any, .imm⟩,
    ⟨8, 1, .int 8, 0, false, 0, .any, .imm⟩,
    ⟨9, 1, .uns 8, 0, false, 0, .any, .imm⟩
    ]⟩,
   ⟨0x2780, 1, 32, [
    ⟨1, 1, .uns 1, 3, false, 0, .set [0, 1], .imm⟩,
    ⟨2, 1, .bool, 31, false, 0, .any, .imm⟩,
    ⟨3, 1, .bool, 3, false, 0, .any, .imm⟩,
    ⟨4, 1, .uns 1, 1, false, 0, .set [0, 1, 2], .imm⟩
    ]⟩,
   ⟨0x27A0, 1, 8, [
    ⟨1, 1, .uns 1, 3, false, 255, .orv (0) 15 255, .imm⟩,
    ⟨2, 1, .uns 2, 15, false, 1, .rng (1) (65535), .imm⟩,
    ⟨3, 1, .uns 2, 15, false, 1, .rng (1) (65535), .imm⟩,
    ⟨4, 1, .uns 1, 3, false, 8, .rng (4) (255), .imm⟩,
    ⟨5, 1, .uns 4, 0, false, 0, .any, .imm⟩
    ]⟩,
   ⟨0x3000, 32, 48, [
    ⟨1, 1, .uns 1, 3, false, 0, .set [0, 1, 2, 3], .imm⟩,
    ⟨2, 1, .uns 1, 3, false, 0, .rng (0) (63), .imm⟩,
    ⟨3, 1, .uns 1, 3, false, 0, .rng (0) (31), .imm⟩,
    ⟨4, 1, .int 8, 7, false, 6553600, .rng (-4611686018427387904) (4611686018427387904), .imm⟩,
    ⟨5, 1, .uns 4, 3, false, 8192, .rng (64) (67108864), .imm⟩,
    ⟨6, 1, .uns 4, 7, false, 1310720, .any, .imm⟩,
    ⟨7, 1, .uns 2, 7, false, 100, .rng (100) (10000), .imm⟩,
    ⟨8, 1, .uns 1, 15, false, 13, .any, .decision⟩,
    ⟨9, 1, .uns 2, 3, false, 0, .orv (16) 16383 0, .imm⟩,
    ⟨10, 1, .uns 2, 15, false, 0, .rng (0) (4095), .decision⟩,
    ⟨11, 1, .uns 1, 3, false, 255, .orv (0) 7 255, .imm⟩,
    ⟨12, 1, .uns 2, 15, false, 0, .any, .decision⟩,
    ⟨13, 1, .bool, 15, false, 0, .any, .decision⟩,
    ⟨14, 1, .uns 2, 3, false, 30000, .rng (100) (65535), .arming⟩,
    ⟨15, 1, .uns 4, 3, false, 0, .any, .imm⟩
    ]⟩]

/-- Part 3 of the dictionary. -/
def dict2 : List Block :=
  [⟨0x3001, 32, 48, [
    ⟨1, 1, .uns 1, 3, false, 0, .set [0, 1, 2], .imm⟩,
    ⟨2, 1, .uns 4, 15, false, 5000000, .any, .decision⟩,
    ⟨3, 1, .uns 4, 15, false, 2000, .rng (0) (1000000), .decision⟩,
    ⟨4, 1, .uns 1, 15, false, 1, .rng (0) (15), .decision⟩,
    ⟨5, 1, .uns 1, 15, false, 1, .rng (0) (15), .decision⟩,
    ⟨6, 1, .uns 1, 15, false, 1, .rng (0) (15), .decision⟩,
    ⟨7, 1, .uns 1, 15, false, 0, .set [0, 1, 2], .decision⟩,
    ⟨8, 1, .uns 8, 0, false, 0, .any, .imm⟩,
    ⟨9, 1, .uns 8, 0, false, 0, .any, .imm⟩
    ]⟩,
   ⟨0x3002, 32, 48, [
    ⟨1, 1, .uns 1, 0, false, 0, .any, .imm⟩,
    ⟨2, 1, .uns 1, 28, true, 0, .set [1, 2, 3, 4, 5], .imm⟩,
    ⟨3, 1, .uns 1, 0, false, 0, .any, .imm⟩,
    ⟨4, 1, .uns 1, 0, false, 0, .any, .imm⟩,
    ⟨5, 1, .uns 1, 0, false, 0, .any, .imm⟩,
    ⟨6, 1, .uns 4, 0, false, 0, .any, .imm⟩,
    ⟨7, 1, .uns 4, 0, false, 0, .any, .imm⟩,
    ⟨8, 1, .uns 1, 0, false, 0, .any, .imm⟩,
    ⟨9, 1, .uns 4, 0, false, 0, .any, .imm⟩,
    ⟨10, 1, .uns 1, 0, false, 0, .any, .imm⟩
    ]⟩,
   ⟨0x27C0, 1, 8, [
    ⟨1, 1, .uns 1, 3, false, 255, .orv (0) 31 255, .imm⟩,
    ⟨2, 1, .uns 1, 3, false, 0, .rng (0) (31), .imm⟩,
    ⟨3, 1, .int 8, 7, false, 39321600, .rng (-4611686018427387904) (4611686018427387904), .imm⟩,
    ⟨4, 1, .uns 1, 7, false, 0, .set [0, 1], .imm⟩,
    ⟨5, 1, .uns 4, 7, false, 20000, .rng (1) (4294967295), .imm⟩,
    ⟨6, 1, .uns 4, 7, false, 655360, .any, .imm⟩,
    ⟨7, 1, .uns 2, 0, false, 0, .any, .imm⟩,
    ⟨8, 1, .uns 4, 0, false, 0, .any, .imm⟩,
    ⟨9, 1, .uns 4, 0, false, 0, .any, .imm⟩,
    ⟨10, 1, .uns 4, 0, false, 0, .any, .imm⟩,
    ⟨11, 1, .bool, 0, false, 0, .any, .imm⟩
    ]⟩,
   ⟨0x5000, 1, 1, [
    ⟨1, 1, .uns 8, 1, false, 268435456, .any, .reset⟩,
    ⟨2, 1, .uns 4, 1, false, 268435456, .rng (16777216) (4294967295), .reset⟩,
    ⟨3, 1, .uns 8, 1, false, 536870912, .any, .reset⟩,
    ⟨4, 1, .uns 4, 1, false, 536870912, .rng (67108864) (4294967295), .reset⟩,
    ⟨5, 1, .uns 4, 0, false, 0, .any, .imm⟩,
    ⟨6, 1, .uns 4, 0, false, 0, .any, .imm⟩,
    ⟨7, 1, .uns 4, 0, false, 0, .any, .imm⟩
    ]⟩,
   ⟨0x5001, 1, 1, [
    ⟨1, 1, .uns 2, 31, false, 0, .rng (0) (4095), .sub⟩,
    ⟨2, 1, .uns 8, 31, false, 0, .any, .sub⟩,
    ⟨3, 1, .uns 4, 31, false, 0, .orv (64) 33554432 0, .sub⟩,
    ⟨4, 1, .uns 1, 31, true, 0, .set [1], .imm⟩,
    ⟨5, 1, .uns 1, 0, false, 0, .any, .imm⟩,
    ⟨6, 1, .uns 8, 0, false, 0, .any, .imm⟩
    ]⟩,
   ⟨0x5002, 1, 1, [
    ⟨1, 1, .uns 2, 31, false, 0, .rng (0) (63), .sub⟩,
    ⟨2, 1, .uns 8, 31, false, 0, .any, .sub⟩,
    ⟨3, 1, .uns 4, 31, false, 0, .orv (64) 67108864 0, .sub⟩,
    ⟨4, 1, .uns 1, 31, true, 0, .set [1], .imm⟩,
    ⟨5, 1, .uns 1, 0, false, 0, .any, .imm⟩,
    ⟨6, 1, .uns 8, 0, false, 0, .any, .imm⟩
    ]⟩,
   ⟨0x5003, 1, 1, [
    ⟨1, 1, .uns 2, 31, false, 0, .rng (0) (4095), .imm⟩,
    ⟨2, 1, .uns 1, 0, false, 0, .any, .imm⟩,
    ⟨3, 1, .uns 4, 0, false, 0, .any, .imm⟩
    ]⟩,
   ⟨0x5010, 1, 64, [
    ⟨1, 1, .bool, 0, false, 0, .any, .imm⟩,
    ⟨2, 1, .bool, 15, false, 0, .any, .imm⟩,
    ⟨3, 1, .uns 4, 0, false, 0, .any, .imm⟩
    ]⟩,
   ⟨0x5100, 1, 256, [
    ⟨1, 1, .vstr 0 64, 15, false, 0, .any, .decision⟩
    ]⟩,
   ⟨0x3003, 32, 48, [
    ⟨1, 1, .uns 2, 1, false, 74, .orv (16) 3584 0, .standby⟩,
    ⟨2, 1, .uns 4, 1, false, 0, .rng (0) (524287), .standby⟩,
    ⟨3, 1, .bool, 1, false, 0, .any, .standby⟩,
    ⟨4, 1, .uns 8, 1, false, 0, .any, .standby⟩,
    ⟨5, 1, .uns 4, 1, false, 0, .any, .standby⟩,
    ⟨6, 1, .uns 2, 1, false, 0, .rng (0) (4000), .standby⟩,
    ⟨7, 1, .uns 4, 0, false, 0, .any, .imm⟩,
    ⟨8, 1, .uns 4, 0, false, 0, .any, .imm⟩,
    ⟨9, 1, .uns 1, 0, false, 0, .any, .imm⟩,
    ⟨10, 1, .uns 4, 0, false, 0, .any, .imm⟩,
    ⟨11, 1, .uns 4, 0, false, 0, .any, .imm⟩,
    ⟨12, 1, .uns 4, 0, false, 0, .any, .imm⟩,
    ⟨13, 1, .uns 4, 0, false, 0, .any, .imm⟩
    ]⟩,
   ⟨0x2300, 1, 1, [
    ⟨1, 1, .uns 8, 0, false, 0, .any, .imm⟩,
    ⟨2, 1, .uns 1, 0, false, 0, .any, .imm⟩
    ]⟩,
   ⟨0x2301, 1, 1, [
    ⟨1, 1, .uns 8, 31, false, 0, .any, .sub⟩,
    ⟨2, 1, .uns 1, 31, true, 0, .set [1, 2], .imm⟩
    ]⟩]

/-- Part 4 of the dictionary. -/
def dict3 : List Block :=
  [⟨0x2302, 1, 1, [
    ⟨1, 1, .bool, 3, false, 0, .any, .imm⟩,
    ⟨2, 1, .uns 4, 7, false, 1000000, .rng (1000) (1000000000), .imm⟩,
    ⟨3, 1, .uns 4, 7, false, 100000, .rng (1000) (500000), .imm⟩,
    ⟨4, 1, .uns 4, 7, false, 1000, .rng (10) (1000000), .imm⟩,
    ⟨5, 1, .uns 2, 7, false, 5000, .rng (100) (60000), .imm⟩
    ]⟩,
   ⟨0x2303, 1, 1, [
    ⟨16, 1, .int 2, 0, false, 0, .any, .imm⟩,
    ⟨32, 1, .int 2, 7, false, 0, .rng (-400) (400), .imm⟩,
    ⟨48, 1, .int 2, 0, false, 0, .any, .imm⟩
    ]⟩,
   ⟨0x2304, 1, 1, [
    ⟨1, 1, .int 2, 15, false, 37, .rng (-32767) (32767), .decision⟩,
    ⟨2, 1, .int 2, 15, false, 0, .rng (-840) (840), .decision⟩
    ]⟩,
   ⟨0x2305, 1, 1, [
    ⟨1, 1, .uns 1, 15, false, 0, .rng (0) (120), .decision⟩,
    ⟨2, 2, .uns 4, 15, false, 0, .any, .decision⟩
    ]⟩,
   ⟨0x2306, 1, 1, [
    ⟨1, 32, .uns 8, 15, false, 0, .any, .decision⟩
    ]⟩,
   ⟨0x2307, 1, 1, [
    ⟨1, 1, .vstr 0 4, 15, false, 0, .any, .decision⟩
    ]⟩,
   ⟨0x2310, 1, 16, [
    ⟨1, 1, .bool, 15, false, 0, .any, .decision⟩,
    ⟨2, 1, .uns 2, 15, false, 0, .rng (0) (1439), .decision⟩,
    ⟨3, 1, .uns 1, 15, false, 127, .rng (0) (127), .decision⟩,
    ⟨4, 1, .vstr 0 4, 15, false, 0, .any, .decision⟩
    ]⟩,
   ⟨0x2380, 1, 128, [
    ⟨1, 1, .uns 8, 31, false, 0, .any, .imm⟩,
    ⟨65, 1, .uns 8, 31, false, 0, .any, .imm⟩,
    ⟨2, 1, .uns 1, 3, false, 32, .rng (1) (64), .imm⟩,
    ⟨66, 1, .uns 1, 3, false, 32, .rng (1) (64), .imm⟩,
    ⟨3, 1, .uns 8, 7, false, 0, .any, .imm⟩,
    ⟨67, 1, .uns 8, 7, false, 0, .any, .imm⟩,
    ⟨4, 1, .uns 8, 7, false, 4294967295, .any, .imm⟩,
    ⟨68, 1, .uns 8, 7, false, 4294967295, .any, .imm⟩,
    ⟨5, 1, .uns 2, 7, false, 1, .rng (1) (65535), .imm⟩,
    ⟨69, 1, .uns 2, 7, false, 1, .rng (1) (65535), .imm⟩,
    ⟨6, 1, .uns 1, 7, false, 0, .set [0, 1, 2], .imm⟩,
    ⟨70, 1, .uns 1, 7, false, 0, .set [0, 1, 2], .imm⟩,
    ⟨7, 1, .uns 2, 3, false, 0, .any, .imm⟩,
    ⟨71, 1, .uns 2, 3, false, 0, .any, .imm⟩,
    ⟨8, 1, .uns 4, 3, false, 0, .any, .reset⟩,
    ⟨72, 1, .uns 4, 3, false, 0, .any, .reset⟩,
    ⟨9, 1, .uns 4, 0, false, 0, .any, .imm⟩,
    ⟨73, 1, .uns 4, 0, false, 0, .any, .imm⟩
    ]⟩,
   ⟨0x5200, 1, 1, [
    ⟨1, 1, .uns 1, 0, false, 0, .any, .imm⟩,
    ⟨2, 1, .uns 8, 0, false, 0, .any, .imm⟩,
    ⟨3, 1, .uns 4, 0, false, 0, .any, .imm⟩,
    ⟨4, 1, .uns 4, 0, false, 0, .any, .imm⟩,
    ⟨5, 1, .uns 1, 0, false, 0, .any, .imm⟩
    ]⟩,
   ⟨0x5201, 1, 1, [
    ⟨1, 1, .uns 1, 1, false, 0, .rng (0) (7), .sub⟩,
    ⟨2, 1, .ostr 32 32, 1, true, 0, .any, .sub⟩,
    ⟨3, 1, .uns 1, 1, true, 0, .set [1], .imm⟩,
    ⟨4, 1, .uns 1, 0, false, 0, .any, .imm⟩
    ]⟩,
   ⟨0x5202, 1, 1, [
    ⟨1, 1, .uns 1, 3, false, 0, .rng (0) (7), .sub⟩,
    ⟨2, 1, .uns 1, 3, true, 0, .set [90], .decision⟩,
    ⟨3, 1, .uns 1, 0, false, 0, .any, .imm⟩
    ]⟩,
   ⟨0x5203, 1, 1, [
    ⟨1, 1, .uns 1, 31, false, 0, .orv (0) 7 255, .sub⟩,
    ⟨2, 1, .ostr 32 32, 31, false, 0, .any, .sub⟩,
    ⟨3, 1, .ostr 32 32, 31, false, 0, .any, .sub⟩,
    ⟨4, 1, .uns 8, 31, false, 0, .any, .sub⟩,
    ⟨5, 1, .uns 2, 31, false, 0, .rng (0) (2040), .sub⟩,
    ⟨6, 1, .ostr 64 64, 31, false, 0, .any, .sub⟩,
    ⟨7, 1, .uns 1, 31, true, 0, .set [1], .imm⟩,
    ⟨8, 1, .uns 1, 0, false, 0, .any, .imm⟩
    ]⟩]

/-- Part 5 of the dictionary. -/
def dict4 : List Block :=
  [⟨0x5210, 1, 8, [
    ⟨1, 1, .uns 1, 0, false, 0, .any, .imm⟩,
    ⟨2, 1, .ostr 32 32, 0, false, 0, .any, .imm⟩,
    ⟨3, 1, .ostr 32 32, 0, false, 0, .any, .imm⟩,
    ⟨4, 1, .uns 8, 0, false, 0, .any, .imm⟩,
    ⟨5, 1, .bool, 15, false, 1, .any, .decision⟩,
    ⟨6, 1, .uns 8, 0, false, 0, .any, .imm⟩
    ]⟩,
   ⟨0x3004, 32, 48, [
    ⟨1, 1, .uns 1, 1, false, 0, .set [0, 1, 2], .standby⟩,
    ⟨2, 1, .uns 1, 1, false, 0, .rng (0) (191), .standby⟩,
    ⟨3, 1, .uns 1, 1, false, 4, .set [1, 2, 4, 8, 16], .standby⟩,
    ⟨4, 1, .uns 1, 3, false, 2, .set [1, 2, 4], .arming⟩,
    ⟨5, 1, .uns 1, 3, false, 2, .rng (0) (4), .arming⟩,
    ⟨6, 1, .uns 1, 3, false, 0, .set [0, 1], .arming⟩,
    ⟨7, 1, .uns 2, 7, false, 8, .rng (2) (65535), .imm⟩,
    ⟨8, 1, .uns 2, 7, false, 8, .rng (2) (65535), .imm⟩,
    ⟨9, 1, .uns 1, 3, false, 0, .set [0, 1], .arming⟩,
    ⟨10, 1, .uns 2, 3, false, 100, .rng (0) (10000), .arming⟩,
    ⟨11, 1, .uns 2, 7, false, 2000, .rng (1) (10000), .imm⟩,
    ⟨12, 1, .uns 1, 1, false, 1, .set [0, 1, 2, 3], .imm⟩,
    ⟨13, 1, .uns 4, 3, false, 20000, .rng (1) (96000), .arming⟩,
    ⟨14, 1, .uns 4, 0, false, 0, .any, .imm⟩,
    ⟨15, 1, .uns 4, 0, false, 0, .any, .imm⟩,
    ⟨16, 1, .uns 4, 0, false, 0, .any, .imm⟩
    ]⟩,
   ⟨0x3005, 32, 48, [
    ⟨1, 1, .ostr 0 128, 0, false, 0, .any, .imm⟩,
    ⟨2, 1, .uns 1, 0, false, 0, .any, .imm⟩,
    ⟨3, 1, .uns 4, 0, false, 0, .any, .imm⟩,
    ⟨4, 1, .uns 2, 16, false, 128, .rng (0) (255), .sub⟩,
    ⟨5, 1, .uns 1, 16, false, 1, .rng (1) (32), .sub⟩,
    ⟨6, 1, .ostr 1 32, 16, false, 0, .any, .sub⟩,
    ⟨7, 1, .uns 1, 16, true, 0, .set [1, 2], .imm⟩,
    ⟨8, 1, .uns 1, 0, false, 0, .any, .imm⟩,
    ⟨9, 1, .uns 1, 7, false, 0, .set [0, 1], .decision⟩,
    ⟨10, 1, .int 2, 7, false, 10, .rng (-20) (135), .decision⟩,
    ⟨11, 1, .int 2, 7, false, 65, .rng (-20) (135), .decision⟩,
    ⟨12, 1, .uns 4, 7, false, 22800, .rng (0) (60000), .decision⟩,
    ⟨13, 1, .uns 4, 7, false, 25200, .rng (0) (60000), .decision⟩
    ]⟩,
   ⟨0x3006, 32, 48, [
    ⟨1, 1, .uns 4, 3, false, 10000, .rng (100) (1000000), .arming⟩,
    ⟨2, 1, .uns 4, 7, false, 1048576, .rng (65536) (4194304), .imm⟩,
    ⟨3, 1, .int 2, 0, false, 0, .any, .imm⟩,
    ⟨4, 1, .uns 4, 0, false, 0, .any, .imm⟩,
    ⟨5, 1, .uns 8, 0, false, 0, .any, .imm⟩,
    ⟨6, 1, .uns 8, 0, false, 0, .any, .imm⟩,
    ⟨7, 1, .uns 1, 0, false, 0, .any, .imm⟩
    ]⟩,
   ⟨0x3800, 8, 192, [
    ⟨1, 1, .uns 1, 0, false, 255, .any, .imm⟩,
    ⟨2, 1, .uns 1, 0, false, 0, .any, .imm⟩,
    ⟨3, 1, .uns 4, 0, false, 0, .any, .imm⟩,
    ⟨16, 1, .int 1, 0, false, 0, .any, .arming⟩,
    ⟨32, 1, .int 1, 3, false, 0, .rng (-31) (31), .arming⟩,
    ⟨48, 1, .int 1, 0, false, 0, .any, .arming⟩
    ]⟩,
   ⟨0x2610, 1, 8, [
    ⟨16, 1, .int 2, 0, false, 0, .any, .imm⟩,
    ⟨32, 1, .int 2, 3, false, 0, .rng (-64) (64), .imm⟩,
    ⟨48, 1, .int 2, 0, false, 0, .any, .imm⟩,
    ⟨17, 1, .int 4, 0, false, 16384, .any, .imm⟩,
    ⟨33, 1, .int 4, 3, false, 0, .any, .imm⟩,
    ⟨49, 1, .int 4, 0, false, 16384, .any, .imm⟩
    ]⟩,
   ⟨0x3007, 32, 48, [
    ⟨1, 1, .uns 1, 3, false, 0, .set [0, 1], .arming⟩,
    ⟨2, 1, .int 4, 7, false, 0, .rng (-10000000) (10000000), .decision⟩,
    ⟨3, 1, .int 4, 0, false, 0, .any, .imm⟩,
    ⟨4, 1, .uns 1, 7, false, 0, .set [0, 1, 2, 3], .decision⟩,
    ⟨5, 1, .uns 2, 7, false, 24576, .rng (16384) (32768), .decision⟩,
    ⟨6, 1, .uns 1, 3, false, 4, .rng (1) (8), .arming⟩,
    ⟨7, 1, .uns 2, 7, false, 64, .rng (2) (65535), .decision⟩,
    ⟨8, 1, .uns 4, 15, false, 5000, .rng (100) (1000000), .imm⟩,
    ⟨9, 1, .uns 4, 0, false, 0, .any, .imm⟩,
    ⟨10, 1, .uns 4, 0, false, 0, .any, .imm⟩,
    ⟨11, 1, .uns 1, 0, false, 0, .any, .imm⟩,
    ⟨12, 1, .uns 4, 0, false, 0, .any, .imm⟩,
    ⟨13, 1, .uns 4, 0, false, 0, .any, .imm⟩,
    ⟨14, 1, .uns 4, 0, false, 0, .any, .imm⟩,
    ⟨15, 1, .uns 4, 0, false, 0, .any, .imm⟩,
    ⟨16, 1, .uns 4, 0, false, 0, .any, .imm⟩,
    ⟨17, 1, .uns 8, 0, false, 0, .any, .imm⟩
    ]⟩,
   ⟨0x3008, 32, 48, [
    ⟨1, 8, .uns 2, 15, false, 640, .rng (2) (65535), .decision⟩,
    ⟨9, 16, .uns 1, 3, false, 0, .any, .arming⟩
    ]⟩,
   ⟨0x3009, 32, 48, [
    ⟨1, 1, .uns 1, 3, false, 0, .set [0, 1], .arming⟩,
    ⟨2, 1, .uns 4, 7, false, 24000, .rng (1000) (60000), .decision⟩,
    ⟨3, 1, .uns 2, 0, false, 16384, .any, .imm⟩,
    ⟨4, 1, .uns 2, 0, false, 16384, .any, .imm⟩,
    ⟨5, 1, .uns 2, 0, false, 32768, .any, .imm⟩,
    ⟨6, 1, .uns 2, 7, false, 256, .rng (16) (4096), .decision⟩,
    ⟨7, 1, .uns 8, 15, false, 0, .rng (0) (140737488355327), .imm⟩,
    ⟨8, 1, .uns 2, 15, false, 16384, .rng (16384) (32768), .imm⟩
    ]⟩,
   ⟨0x300A, 32, 48, [
    ⟨1, 32, .uns 2, 7, false, 16384, .rng (4096) (65535), .decision⟩
    ]⟩,
   ⟨0x300B, 32, 48, [
    ⟨1, 1, .uns 1, 7, false, 4, .rng (1) (8), .decision⟩,
    ⟨2, 1, .uns 2, 7, false, 256, .rng (0) (1023), .decision⟩,
    ⟨3, 1, .uns 2, 7, false, 512, .rng (0) (1023), .decision⟩,
    ⟨4, 1, .uns 2, 7, false, 768, .rng (0) (1023), .decision⟩,
    ⟨5, 1, .ostr 16 16, 7, false, 0, .any, .decision⟩
    ]⟩,
   ⟨0x300C, 32, 48, [
    ⟨1, 1, .ostr 512 512, 15, false, 0, .any, .decision⟩
    ]⟩]

/-- Part 6 of the dictionary. -/
def dict5 : List Block :=
  [⟨0x300D, 32, 48, [
    ⟨1, 1, .bool, 7, false, 0, .any, .imm⟩,
    ⟨2, 1, .uns 1, 3, false, 0, .set [0, 1], .arming⟩,
    ⟨3, 1, .uns 1, 3, false, 1, .rng (1) (15), .arming⟩,
    ⟨4, 1, .uns 2, 7, false, 960, .rng (64) (6400), .imm⟩,
    ⟨5, 1, .uns 1, 7, false, 7, .rng (3) (64), .imm⟩,
    ⟨6, 1, .uns 4, 3, false, 20000, .rng (100) (10000000), .arming⟩,
    ⟨7, 1, .uns 4, 7, false, 3600, .rng (0) (86400), .imm⟩,
    ⟨8, 1, .uns 4, 0, false, 0, .any, .imm⟩,
    ⟨9, 1, .uns 4, 0, false, 0, .any, .imm⟩,
    ⟨10, 1, .uns 4, 0, false, 0, .any, .imm⟩,
    ⟨11, 1, .uns 4, 0, false, 0, .any, .imm⟩,
    ⟨12, 1, .uns 4, 16, false, 0, .any, .sub⟩,
    ⟨13, 1, .uns 1, 16, true, 0, .set [1, 2], .imm⟩,
    ⟨14, 1, .uns 1, 0, false, 0, .any, .imm⟩
    ]⟩,
   ⟨0x300E, 32, 48, [
    ⟨1, 14, .uns 2, 7, false, 0, .rng (1) (1022), .imm⟩,
    ⟨15, 1, .uns 2, 7, false, 256, .rng (1) (1022), .imm⟩,
    ⟨16, 1, .uns 2, 7, false, 358, .rng (1) (1022), .imm⟩,
    ⟨17, 1, .uns 2, 7, false, 666, .rng (1) (1022), .imm⟩,
    ⟨18, 1, .bool, 7, false, 1, .any, .imm⟩,
    ⟨19, 1, .ostr 4 4, 15, false, 0, .any, .decision⟩,
    ⟨20, 1, .uns 1, 3, false, 0, .set [0, 1], .arming⟩,
    ⟨21, 1, .uns 1, 0, false, 0, .any, .imm⟩,
    ⟨22, 1, .uns 2, 0, false, 0, .any, .imm⟩,
    ⟨23, 1, .ostr 0 1024, 0, false, 0, .any, .imm⟩,
    ⟨24, 1, .uns 4, 31, true, 0, .any, .decision⟩,
    ⟨25, 1, .uns 4, 31, true, 0, .any, .decision⟩,
    ⟨26, 1, .ostr 32 32, 3, false, 0, .any, .imm⟩,
    ⟨27, 1, .uns 1, 31, false, 0, .rng (0) (15), .imm⟩,
    ⟨28, 1, .uns 1, 0, false, 0, .any, .imm⟩
    ]⟩,
   ⟨0x300F, 32, 48, [
    ⟨1, 1, .uns 8, 31, false, 0, .any, .sub⟩,
    ⟨2, 1, .uns 1, 31, true, 0, .set [1], .decision⟩,
    ⟨3, 1, .uns 8, 0, false, 0, .any, .imm⟩,
    ⟨4, 1, .uns 8, 0, false, 18446744073709551615, .any, .imm⟩,
    ⟨5, 1, .uns 1, 3, false, 0, .set [0, 1, 2, 3], .imm⟩,
    ⟨6, 1, .uns 2, 3, false, 0, .any, .imm⟩,
    ⟨7, 1, .uns 4, 3, false, 4096, .rng (1) (4294967295), .imm⟩,
    ⟨8, 1, .uns 4, 3, false, 25400, .rng (1000) (500000), .imm⟩,
    ⟨9, 1, .uns 2, 3, false, 4500, .rng (1000) (50000), .imm⟩,
    ⟨10, 1, .uns 4, 7, false, 100000, .rng (10000) (10000000), .imm⟩,
    ⟨11, 1, .uns 8, 31, false, 0, .any, .decision⟩,
    ⟨12, 1, .uns 4, 15, false, 5000000, .any, .imm⟩,
    ⟨13, 1, .uns 1, 15, false, 8, .any, .imm⟩,
    ⟨14, 1, .uns 8, 15, false, 20000000, .any, .imm⟩,
    ⟨15, 1, .uns 1, 0, false, 0, .any, .imm⟩,
    ⟨16, 1, .uns 4, 31, true, 0, .any, .decision⟩
    ]⟩,
   ⟨0x3010, 32, 48, [
    ⟨1, 1, .uns 4, 31, false, 0, .any, .imm⟩,
    ⟨2, 1, .uns 4, 17, false, 0, .any, .imm⟩,
    ⟨3, 1, .uns 8, 17, false, 0, .any, .sub⟩,
    ⟨4, 1, .uns 1, 17, true, 0, .set [1, 2], .imm⟩,
    ⟨5, 1, .uns 1, 0, false, 0, .any, .imm⟩,
    ⟨6, 1, .ostr 16 16, 0, false, 0, .any, .imm⟩,
    ⟨7, 1, .uns 4, 0, false, 0, .any, .imm⟩,
    ⟨8, 1, .uns 4, 0, false, 0, .any, .imm⟩,
    ⟨9, 1, .uns 4, 0, false, 0, .any, .imm⟩
    ]⟩,
   ⟨0x2020, 1, 1, [
    ⟨1, 1, .uns 2, 7, false, 1, .any, .imm⟩,
    ⟨2, 1, .uns 4, 0, false, 0, .any, .imm⟩
    ]⟩,
   ⟨0x4000, 32, 48, [
    ⟨1, 1, .uns 1, 1, false, 0, .rng (0) (4), .standby⟩,
    ⟨2, 1, .uns 1, 3, false, 255, .orv (0) 15 255, .imm⟩,
    ⟨3, 1, .uns 4, 3, false, 4096, .rng (1) (4294967295), .imm⟩,
    ⟨4, 1, .uns 1, 3, false, 4, .rng (1) (64), .imm⟩,
    ⟨5, 1, .bool, 3, false, 0, .any, .imm⟩
    ]⟩,
   ⟨0x4001, 32, 48, [
    ⟨1, 1, .int 4, 31, false, 65536, .rng (1) (2147483647), .imm⟩,
    ⟨2, 1, .int 4, 31, false, 2048, .rng (1) (2147483647), .imm⟩,
    ⟨3, 1, .int 4, 31, false, 2048, .rng (1) (2147483647), .imm⟩,
    ⟨4, 1, .int 4, 7, false, 4096, .rng (1) (2147483647), .imm⟩,
    ⟨5, 1, .int 8, 28, false, 0, .any, .sub⟩,
    ⟨6, 1, .int 4, 28, false, 0, .any, .sub⟩,
    ⟨7, 1, .int 8, 0, false, 0, .any, .imm⟩,
    ⟨8, 1, .int 8, 0, false, 0, .any, .imm⟩,
    ⟨9, 1, .int 4, 0, false, 0, .any, .imm⟩,
    ⟨10, 1, .int 8, 19, true, 0, .any, .imm⟩
    ]⟩,
   ⟨0x4002, 32, 48, [
    ⟨1, 1, .uns 1, 28, true, 0, .set [1, 2, 3, 4, 5, 6, 7, 8, 9], .imm⟩,
    ⟨2, 1, .uns 2, 28, false, 0, .rng (0) (8191), .sub⟩,
    ⟨3, 1, .uns 1, 28, false, 255, .orv (0) 63 255, .sub⟩,
    ⟨4, 1, .uns 1, 0, false, 0, .any, .imm⟩,
    ⟨5, 1, .uns 1, 0, false, 0, .any, .imm⟩,
    ⟨6, 1, .uns 2, 0, false, 0, .any, .imm⟩,
    ⟨7, 1, .uns 4, 0, false, 0, .any, .imm⟩
    ]⟩,
   ⟨0x4003, 32, 48, [
    ⟨1, 1, .uns 1, 3, false, 32, .rng (2) (160), .imm⟩,
    ⟨2, 1, .uns 1, 3, false, 32, .rng (2) (160), .imm⟩,
    ⟨3, 1, .uns 2, 3, false, 32, .rng (0) (1600), .imm⟩,
    ⟨4, 1, .uns 2, 3, false, 32, .rng (0) (1600), .imm⟩,
    ⟨5, 1, .uns 2, 3, false, 1000, .any, .enable⟩,
    ⟨6, 1, .uns 1, 1, false, 0, .rng (0) (15), .imm⟩,
    ⟨7, 1, .uns 4, 0, false, 0, .any, .imm⟩
    ]⟩,
   ⟨0x4004, 32, 48, [
    ⟨1, 1, .uns 1, 3, false, 255, .orv (0) 63 255, .imm⟩,
    ⟨2, 1, .uns 1, 3, false, 255, .orv (0) 63 255, .imm⟩,
    ⟨3, 1, .uns 1, 3, false, 0, .rng (0) (3), .imm⟩,
    ⟨4, 1, .bool, 7, false, 0, .any, .imm⟩,
    ⟨5, 1, .int 8, 7, false, -4611686018427387904, .any, .imm⟩,
    ⟨6, 1, .int 8, 7, false, 4611686018427387904, .any, .imm⟩,
    ⟨7, 1, .uns 4, 7, false, 1000, .rng (1) (4294967295), .imm⟩,
    ⟨8, 1, .uns 2, 7, false, 10, .rng (1) (65535), .imm⟩
    ]⟩,
   ⟨0x4005, 32, 48, [
    ⟨1, 1, .int 4, 3, false, 65536, .rng (-2147418112) (2147418112), .enable⟩,
    ⟨2, 1, .uns 2, 31, false, 1000, .any, .imm⟩,
    ⟨3, 1, .uns 2, 31, false, 500, .any, .imm⟩,
    ⟨4, 1, .uns 1, 3, false, 250, .any, .imm⟩,
    ⟨5, 1, .uns 2, 7, false, 64, .rng (16) (1024), .imm⟩,
    ⟨6, 1, .uns 1, 7, false, 4, .rng (0) (15), .imm⟩,
    ⟨7, 1, .uns 2, 7, false, 128, .rng (0) (512), .imm⟩,
    ⟨8, 1, .uns 1, 7, false, 0, .any, .imm⟩,
    ⟨9, 1, .uns 8, 3, false, 900720269076725824, .any, .enable⟩,
    ⟨10, 1, .uns 2, 3, false, 40, .rng (5) (200), .enable⟩,
    ⟨11, 1, .uns 1, 1, false, 16, .any, .enable⟩,
    ⟨12, 1, .int 2, 0, false, 0, .any, .imm⟩
    ]⟩,
   ⟨0x4006, 32, 48, [
    ⟨1, 1, .uns 1, 3, false, 0, .set [0, 1], .enable⟩,
    ⟨2, 1, .uns 1, 3, false, 0, .rng (0) (3), .enable⟩,
    ⟨3, 1, .uns 1, 15, false, 0, .any, .imm⟩,
    ⟨4, 1, .int 4, 19, false, 0, .any, .enable⟩,
    ⟨5, 1, .bool, 3, false, 0, .any, .enable⟩,
    ⟨6, 1, .uns 4, 19, false, 32768500, .any, .sub⟩,
    ⟨7, 1, .uns 1, 3, false, 255, .orv (0) 63 255, .enable⟩
    ]⟩]

/-- Part 7 of the dictionary. -/
def dict6 : List Block :=
  [⟨0x4007, 32, 48, [
    ⟨1, 1, .uns 4, 3, false, 1000, .rng (1) (10000000), .enable⟩,
    ⟨2, 1, .uns 4, 3, false, 1000, .rng (1) (10000000), .enable⟩,
    ⟨3, 1, .uns 4, 3, false, 10000, .rng (1) (10000000), .enable⟩,
    ⟨4, 1, .uns 1, 3, false, 10, .rng (6) (16), .enable⟩,
    ⟨5, 1, .uns 2, 7, false, 20, .rng (1) (1000), .imm⟩,
    ⟨6, 1, .uns 4, 7, false, 655424, .any, .imm⟩,
    ⟨7, 1, .uns 4, 3, false, 1048576, .rng (65536) (4194304), .enable⟩,
    ⟨8, 1, .uns 4, 3, false, 6554600, .any, .enable⟩,
    ⟨9, 1, .uns 2, 3, false, 2000, .rng (100) (10000), .enable⟩,
    ⟨10, 1, .bool, 3, false, 0, .any, .enable⟩,
    ⟨11, 1, .uns 4, 3, false, 3276820, .any, .enable⟩,
    ⟨12, 1, .uns 2, 3, false, 500, .rng (0) (60000), .enable⟩,
    ⟨13, 1, .uns 1, 3, false, 1, .set [0, 1, 2], .imm⟩,
    ⟨14, 1, .uns 2, 7, false, 2000, .any, .imm⟩
    ]⟩,
   ⟨0x2040, 1, 1, [
    ⟨1, 1, .uns 2, 31, false, 0, .rng (0) (8191), .imm⟩,
    ⟨2, 1, .ostr 16 16, 31, false, 0, .any, .imm⟩
    ]⟩,
   ⟨0x2041, 1, 1, [
    ⟨1, 1, .uns 1, 3, false, 1, .rng (1) (3), .sub⟩,
    ⟨2, 1, .uns 8, 3, false, 0, .any, .sub⟩,
    ⟨3, 1, .uns 4, 3, false, 0, .rng (16) (6160), .sub⟩,
    ⟨4, 1, .uns 1, 3, true, 0, .set [1], .imm⟩,
    ⟨5, 1, .uns 1, 0, false, 0, .any, .imm⟩
    ]⟩,
   ⟨0x4A00, 8, 64, [
    ⟨1, 1, .uns 1, 31, false, 0, .set [0, 1, 2, 3], .imm⟩,
    ⟨2, 1, .uns 1, 31, false, 1, .rng (1) (16), .imm⟩,
    ⟨3, 1, .uns 1, 31, false, 0, .rng (0) (15), .imm⟩,
    ⟨4, 1, .uns 2, 31, false, 0, .any, .imm⟩,
    ⟨5, 1, .uns 2, 31, false, 65280, .any, .imm⟩,
    ⟨6, 1, .uns 2, 31, false, 65280, .any, .imm⟩,
    ⟨7, 1, .int 8, 31, false, 0, .any, .imm⟩,
    ⟨8, 1, .uns 1, 3, false, 0, .rng (0) (2), .imm⟩,
    ⟨9, 1, .uns 1, 3, false, 0, .rng (0) (47), .imm⟩,
    ⟨10, 1, .uns 1, 31, false, 0, .rng (0) (7), .imm⟩
    ]⟩,
   ⟨0x4A01, 8, 64, [
    ⟨1, 1, .int 4, 31, false, 0, .any, .staged⟩,
    ⟨2, 1, .uns 1, 31, false, 0, .rng (0) (31), .staged⟩,
    ⟨3, 1, .int 4, 31, false, 0, .any, .staged⟩,
    ⟨4, 1, .uns 1, 31, false, 0, .rng (0) (31), .staged⟩,
    ⟨5, 1, .int 4, 31, false, 0, .any, .staged⟩,
    ⟨6, 1, .uns 1, 31, false, 0, .rng (0) (31), .staged⟩,
    ⟨7, 1, .uns 1, 31, false, 0, .rng (0) (8), .staged⟩,
    ⟨8, 1, .int 4, 31, false, 0, .any, .staged⟩,
    ⟨9, 1, .uns 1, 31, false, 0, .rng (0) (31), .staged⟩,
    ⟨10, 1, .int 4, 31, false, 0, .any, .staged⟩,
    ⟨11, 1, .uns 1, 31, true, 0, .set [1], .imm⟩
    ]⟩,
   ⟨0x4A02, 8, 64, [
    ⟨1, 1, .int 4, 31, false, -2147483648, .any, .staged⟩,
    ⟨2, 1, .int 4, 31, false, 2147483647, .any, .staged⟩,
    ⟨3, 1, .int 4, 31, false, -2147483648, .any, .staged⟩,
    ⟨4, 1, .int 4, 31, false, 2147483647, .any, .staged⟩,
    ⟨5, 1, .uns 4, 31, false, 0, .rng (0) (2147483647), .staged⟩
    ]⟩,
   ⟨0x4A03, 8, 64, [
    ⟨1, 1, .int 4, 31, false, 0, .any, .imm⟩,
    ⟨2, 1, .uns 2, 31, false, 65280, .any, .imm⟩,
    ⟨3, 1, .uns 2, 31, false, 0, .any, .auto⟩
    ]⟩,
   ⟨0x4A04, 8, 64, [
    ⟨1, 1, .int 4, 0, false, 0, .any, .imm⟩,
    ⟨2, 1, .int 4, 0, false, 0, .any, .imm⟩,
    ⟨3, 1, .int 4, 0, false, 0, .any, .imm⟩,
    ⟨4, 1, .int 4, 0, false, 0, .any, .imm⟩,
    ⟨5, 1, .uns 2, 0, false, 0, .any, .imm⟩,
    ⟨6, 1, .uns 4, 0, false, 0, .any, .imm⟩,
    ⟨7, 1, .uns 4, 0, false, 0, .any, .imm⟩
    ]⟩,
   ⟨0x2030, 1, 1, [
    ⟨1, 1, .uns 2, 0, false, 3200, .any, .imm⟩,
    ⟨2, 1, .uns 2, 0, false, 80, .any, .imm⟩,
    ⟨3, 1, .uns 2, 0, false, 0, .any, .imm⟩,
    ⟨4, 1, .uns 2, 31, false, 0, .set [0], .imm⟩,
    ⟨5, 1, .uns 4, 0, false, 0, .any, .imm⟩,
    ⟨6, 1, .bool, 31, false, 0, .set [0], .imm⟩,
    ⟨7, 1, .uns 4, 0, false, 0, .any, .imm⟩,
    ⟨8, 1, .uns 4, 0, false, 0, .any, .imm⟩
    ]⟩,
   ⟨0x2500, 1, 1, [
    ⟨1, 1, .uns 1, 0, false, 0, .any, .imm⟩,
    ⟨2, 1, .uns 2, 0, false, 0, .any, .imm⟩,
    ⟨3, 1, .uns 4, 0, false, 0, .any, .imm⟩,
    ⟨4, 1, .uns 2, 3, false, 6400, .rng (0) (12800), .imm⟩
    ]⟩,
   ⟨0x2501, 1, 1, [
    ⟨1, 1, .uns 2, 0, false, 0, .any, .imm⟩,
    ⟨2, 1, .uns 2, 31, false, 0, .set [0], .imm⟩,
    ⟨3, 1, .uns 4, 0, false, 0, .any, .imm⟩,
    ⟨4, 1, .uns 4, 0, false, 0, .any, .imm⟩
    ]⟩,
   ⟨0x2502, 1, 1, [
    ⟨1, 1, .uns 8, 0, false, 0, .any, .imm⟩,
    ⟨2, 7, .uns 4, 31, false, 100, .rng (10) (1000000), .imm⟩
    ]⟩]

/-- Part 8 of the dictionary. -/
def dict7 : List Block :=
  [⟨0x2503, 1, 1, [
    ⟨1, 1, .uns 8, 1, false, 1073741824, .any, .reset⟩,
    ⟨2, 1, .uns 4, 1, false, 268435456, .rng (1048576) (4294967295), .reset⟩
    ]⟩,
   ⟨0x2504, 1, 1, [
    ⟨1, 1, .uns 2, 31, false, 16, .rng (16) (16383), .sub⟩,
    ⟨2, 1, .uns 4, 31, false, 0, .any, .sub⟩,
    ⟨3, 1, .uns 1, 31, true, 0, .set [1], .imm⟩,
    ⟨4, 1, .ostr 64 64, 31, false, 0, .any, .imm⟩
    ]⟩,
   ⟨0x3011, 32, 48, [
    ⟨1, 1, .uns 2, 3, false, 0, .orv (16) 16383 0, .imm⟩,
    ⟨2, 1, .uns 4, 0, false, 0, .any, .imm⟩,
    ⟨3, 1, .uns 4, 0, false, 0, .any, .imm⟩
    ]⟩,
   ⟨0x1010, 1, 1, [
    ⟨0, 1, .uns 1, 0, false, 1, .any, .imm⟩,
    ⟨1, 1, .uns 4, 31, false, 3, .set [1702257011], .imm⟩
    ]⟩,
   ⟨0x1011, 1, 1, [
    ⟨0, 1, .uns 1, 0, false, 1, .any, .imm⟩,
    ⟨1, 1, .uns 4, 31, false, 1, .set [1684107116], .reset⟩
    ]⟩,
   ⟨0x2000, 1, 1, [
    ⟨1, 1, .uns 4, 0, false, 0, .any, .imm⟩,
    ⟨2, 1, .uns 2, 0, false, 0, .any, .imm⟩,
    ⟨3, 1, .vstr 2 2, 0, false, 0, .any, .imm⟩,
    ⟨4, 1, .uns 4, 0, false, 0, .any, .imm⟩,
    ⟨5, 1, .uns 8, 0, false, 0, .any, .imm⟩
    ]⟩,
   ⟨0x2060, 1, 2, [
    ⟨1, 1, .bool, 1, false, 0, .any, .reset⟩,
    ⟨2, 1, .uns 1, 1, false, 1, .rng (1) (127), .reset⟩,
    ⟨3, 1, .uns 1, 1, false, 2, .set [0, 1, 2, 3], .reset⟩,
    ⟨4, 1, .uns 1, 1, false, 2, .set [0, 1, 2, 3], .reset⟩,
    ⟨5, 1, .uns 2, 1, false, 20560, .any, .reset⟩,
    ⟨6, 1, .uns 1, 0, false, 0, .any, .imm⟩,
    ⟨7, 1, .uns 4, 0, false, 0, .any, .imm⟩
    ]⟩,
   ⟨0x2062, 1, 1, [
    ⟨1, 1, .uns 1, 3, false, 0, .set [0, 1], .imm⟩,
    ⟨2, 1, .uns 1, 3, false, 0, .set [0, 1], .imm⟩,
    ⟨3, 1, .uns 4, 3, false, 1431655765, .any, .standby⟩,
    ⟨4, 1, .uns 4, 3, false, 1431655765, .any, .standby⟩
    ]⟩,
   ⟨0x2068, 1, 2, [
    ⟨1, 1, .bool, 1, false, 0, .any, .reset⟩,
    ⟨2, 1, .uns 1, 1, false, 0, .set [0, 1, 2], .reset⟩,
    ⟨3, 1, .uns 8, 1, false, 0, .rng (0) (281474976710655), .reset⟩,
    ⟨4, 1, .uns 4, 1, false, 3232238090, .any, .reset⟩,
    ⟨5, 1, .uns 1, 1, false, 24, .rng (1) (30), .reset⟩,
    ⟨6, 1, .uns 4, 1, false, 0, .any, .reset⟩,
    ⟨7, 1, .bool, 1, false, 1, .any, .reset⟩,
    ⟨8, 1, .uns 2, 1, false, 47812, .rng (1024) (65535), .reset⟩,
    ⟨9, 1, .uns 1, 0, false, 0, .any, .imm⟩,
    ⟨10, 1, .uns 4, 0, false, 0, .any, .imm⟩
    ]⟩,
   ⟨0x206A, 1, 1, [
    ⟨1, 8, .uns 8, 3, false, 0, .any, .imm⟩,
    ⟨9, 2, .uns 8, 31, false, 0, .rng (0) (562949953421311), .imm⟩,
    ⟨11, 1, .uns 2, 3, false, 0, .orv (16) 16383 0, .imm⟩,
    ⟨12, 1, .uns 4, 0, false, 0, .any, .imm⟩
    ]⟩,
   ⟨0x2308, 1, 1, [
    ⟨1, 1, .uns 1, 3, false, 0, .set [0, 1, 2], .imm⟩,
    ⟨2, 1, .uns 1, 3, false, 0, .set [0, 1], .imm⟩,
    ⟨3, 1, .uns 1, 3, false, 1, .set [1, 2], .imm⟩,
    ⟨4, 1, .uns 1, 3, false, 0, .rng (0) (127), .imm⟩,
    ⟨5, 1, .uns 2, 3, false, 32896, .any, .imm⟩,
    ⟨6, 1, .bool, 3, false, 1, .any, .imm⟩,
    ⟨7, 1, .uns 4, 3, false, 65536, .any, .imm⟩,
    ⟨8, 1, .uns 1, 3, false, 3, .rng (2) (10), .imm⟩,
    ⟨9, 1, .uns 4, 3, false, 0, .any, .imm⟩,
    ⟨10, 1, .uns 1, 0, false, 1, .any, .imm⟩,
    ⟨11, 1, .int 8, 0, false, 0, .any, .imm⟩,
    ⟨12, 1, .int 8, 0, false, 0, .any, .imm⟩,
    ⟨13, 1, .uns 8, 0, false, 0, .any, .imm⟩
    ]⟩,
   ⟨0x2070, 1, 1, [
    ⟨1, 1, .uns 8, 31, false, 0, .any, .sub⟩,
    ⟨2, 1, .ostr 1 1024, 31, false, 0, .any, .imm⟩,
    ⟨3, 1, .uns 2, 31, false, 64, .rng (1) (1024), .sub⟩
    ]⟩]

/-- Part 9 of the dictionary. -/
def dict8 : List Block :=
  [⟨0x2400, 1, 1, [
    ⟨1, 1, .bool, 1, false, 0, .any, .reset⟩,
    ⟨2, 1, .uns 1, 1, false, 0, .rng (0) (31), .reset⟩,
    ⟨3, 1, .uns 2, 1, false, 0, .any, .reset⟩,
    ⟨4, 1, .bool, 1, false, 0, .any, .reset⟩,
    ⟨5, 1, .uns 1, 1, false, 15, .rng (0) (15), .reset⟩,
    ⟨6, 1, .uns 1, 0, false, 0, .any, .imm⟩,
    ⟨7, 1, .uns 2, 0, false, 0, .any, .imm⟩,
    ⟨8, 1, .int 8, 0, false, 0, .any, .imm⟩,
    ⟨9, 1, .uns 4, 0, false, 0, .any, .imm⟩,
    ⟨10, 1, .uns 4, 0, false, 0, .any, .imm⟩
    ]⟩,
   ⟨0x2401, 1, 4, [
    ⟨1, 1, .uns 1, 0, false, 0, .any, .imm⟩,
    ⟨2, 1, .uns 2, 0, false, 65535, .any, .imm⟩,
    ⟨3, 1, .uns 4, 0, false, 0, .any, .imm⟩,
    ⟨4, 1, .uns 8, 0, false, 0, .any, .imm⟩,
    ⟨16, 1, .int 2, 0, false, 0, .any, .imm⟩,
    ⟨32, 1, .int 2, 3, false, 0, .rng (-2000) (2000), .imm⟩,
    ⟨48, 1, .int 2, 0, false, 0, .any, .imm⟩
    ]⟩,
   ⟨0x2408, 1, 8, [
    ⟨1, 1, .uns 1, 3, false, 255, .orv (0) 31 255, .standby⟩,
    ⟨2, 1, .uns 4, 0, false, 0, .any, .imm⟩
    ]⟩,
   ⟨0x2410, 1, 1, [
    ⟨1, 1, .uns 2, 7, false, 10, .rng (2) (100), .imm⟩
    ]⟩,
   ⟨0x2440, 1, 48, [
    ⟨1, 1, .uns 1, 3, false, 0, .set [0, 1, 2], .arming⟩,
    ⟨2, 15, .uns 2, 3, false, 65535, .any, .arming⟩,
    ⟨17, 1, .uns 4, 0, false, 0, .any, .imm⟩,
    ⟨18, 1, .uns 4, 0, false, 0, .any, .imm⟩,
    ⟨19, 1, .uns 4, 0, false, 0, .any, .imm⟩,
    ⟨20, 1, .uns 4, 0, false, 0, .any, .imm⟩
    ]⟩,
   ⟨0x2140, 1, 1, [
    ⟨1, 1, .uns 2, 19, false, 0, .rng (0) (511), .imm⟩,
    ⟨2, 1, .uns 4, 19, false, 0, .any, .sub⟩,
    ⟨3, 1, .uns 1, 19, true, 0, .set [1], .imm⟩,
    ⟨4, 1, .uns 1, 0, false, 0, .any, .imm⟩
    ]⟩,
   ⟨0x2141, 1, 1, [
    ⟨1, 16, .uns 2, 19, false, 0, .rng (0) (511), .sub⟩
    ]⟩,
   ⟨0x2142, 1, 1, [
    ⟨1, 1, .uns 1, 31, true, 0, .set [0, 1, 2, 6, 7, 8, 9, 10, 11, 12, 13, 14, 15], .imm⟩,
    ⟨2, 1, .uns 1, 0, false, 0, .any, .imm⟩,
    ⟨3, 1, .uns 2, 0, false, 0, .any, .imm⟩,
    ⟨4, 1, .uns 1, 0, false, 0, .any, .imm⟩,
    ⟨5, 1, .uns 2, 31, false, 0, .any, .imm⟩,
    ⟨6, 1, .uns 2, 3, false, 60, .rng (1) (600), .imm⟩,
    ⟨7, 1, .uns 4, 3, false, 5000, .rng (10) (60000), .imm⟩
    ]⟩,
   ⟨0x2143, 1, 1, [
    ⟨1, 1, .bool, 1, false, 0, .any, .reset⟩,
    ⟨2, 1, .uns 1, 1, false, 0, .any, .imm⟩,
    ⟨3, 1, .uns 2, 3, false, 10000, .rng (1) (65535), .imm⟩,
    ⟨4, 1, .bool, 0, false, 0, .any, .imm⟩
    ]⟩,
   ⟨0x2144, 1, 1, [
    ⟨1, 1, .uns 1, 3, false, 10, .rng (1) (100), .imm⟩,
    ⟨2, 1, .uns 1, 3, false, 8, .rng (2) (30), .imm⟩,
    ⟨3, 1, .uns 1, 3, false, 255, .orv (6) 15 255, .imm⟩,
    ⟨4, 1, .uns 1, 3, false, 10, .rng (1) (100), .imm⟩
    ]⟩,
   ⟨0x2150, 1, 48, [
    ⟨1, 1, .uns 1, 0, false, 0, .any, .imm⟩,
    ⟨2, 1, .uns 2, 0, false, 0, .any, .imm⟩,
    ⟨3, 1, .uns 1, 0, false, 0, .any, .imm⟩
    ]⟩,
   ⟨0x2180, 1, 64, [
    ⟨1, 1, .uns 1, 1, false, 255, .orv (0) 47 255, .standby⟩,
    ⟨2, 1, .uns 1, 1, false, 0, .rng (0) (3), .standby⟩,
    ⟨3, 1, .uns 1, 1, false, 1, .any, .imm⟩,
    ⟨4, 1, .bool, 1, false, 0, .any, .imm⟩,
    ⟨5, 1, .uns 1, 3, false, 10, .any, .imm⟩,
    ⟨6, 1, .uns 2, 3, false, 200, .rng (1) (65535), .imm⟩,
    ⟨7, 1, .uns 1, 3, false, 2, .rng (0) (3), .imm⟩,
    ⟨8, 1, .uns 1, 3, false, 0, .rng (0) (15), .imm⟩,
    ⟨9, 1, .uns 2, 3, false, 100, .rng (1) (10000), .imm⟩,
    ⟨10, 1, .uns 1, 0, false, 0, .any, .imm⟩,
    ⟨11, 1, .uns 4, 0, false, 0, .any, .imm⟩
    ]⟩]

/-- Part 10 of the dictionary. -/
def dict9 : List Block :=
  [⟨0x2620, 1, 1, [
    ⟨1, 1, .uns 1, 0, false, 0, .any, .imm⟩,
    ⟨2, 1, .uns 1, 0, false, 0, .any, .imm⟩,
    ⟨3, 1, .uns 4, 0, false, 0, .any, .imm⟩,
    ⟨4, 1, .uns 1, 0, false, 0, .any, .imm⟩,
    ⟨5, 1, .uns 1, 0, false, 0, .any, .imm⟩
    ]⟩,
   ⟨0x2621, 1, 1, [
    ⟨1, 1, .uns 2, 1, false, 512, .rng (0) (1023), .sub⟩,
    ⟨2, 1, .uns 4, 1, false, 0, .any, .sub⟩,
    ⟨3, 1, .uns 1, 1, true, 0, .set [1], .imm⟩,
    ⟨4, 1, .uns 1, 0, false, 0, .any, .imm⟩
    ]⟩,
   ⟨0x2622, 1, 1, [
    ⟨1, 1, .uns 1, 1, false, 0, .set [1, 3, 7], .sub⟩,
    ⟨2, 1, .uns 1, 1, true, 0, .set [90], .reset⟩
    ]⟩,
   ⟨0x2623, 1, 1, [
    ⟨1, 1, .uns 1, 1, true, 0, .set [90, 165], .reset⟩,
    ⟨2, 1, .uns 1, 1, true, 0, .rng (0) (3), .reset⟩
    ]⟩,
   ⟨0x2624, 1, 1, [
    ⟨1, 1, .uns 1, 3, true, 0, .rng (1) (64), .reset⟩
    ]⟩,
   ⟨0x2625, 1, 1, [
    ⟨1, 1, .uns 8, 31, false, 0, .any, .sub⟩,
    ⟨2, 1, .uns 4, 31, false, 0, .rng (4160) (16777216), .sub⟩,
    ⟨3, 1, .uns 1, 31, true, 0, .set [1], .imm⟩,
    ⟨4, 1, .uns 1, 0, false, 0, .any, .imm⟩,
    ⟨5, 1, .uns 1, 31, true, 0, .set [1], .imm⟩,
    ⟨6, 1, .uns 4, 0, false, 0, .any, .imm⟩
    ]⟩,
   ⟨0x2100, 1, 1, [
    ⟨1, 1, .uns 1, 63, true, 0, .rng (2) (7), .imm⟩,
    ⟨2, 1, .uns 1, 0, false, 0, .any, .imm⟩,
    ⟨3, 1, .uns 1, 0, false, 0, .any, .imm⟩,
    ⟨4, 1, .uns 8, 0, false, 0, .any, .imm⟩,
    ⟨5, 1, .uns 4, 0, false, 0, .any, .imm⟩
    ]⟩,
   ⟨0x2101, 1, 1, [
    ⟨1, 1, .uns 1, 3, false, 2, .set [2, 3, 4], .reset⟩,
    ⟨2, 1, .uns 1, 0, false, 0, .any, .imm⟩,
    ⟨3, 1, .uns 1, 63, true, 0, .set [90, 165], .imm⟩,
    ⟨4, 1, .uns 4, 0, false, 0, .any, .imm⟩,
    ⟨5, 1, .uns 4, 0, false, 0, .any, .imm⟩
    ]⟩,
   ⟨0x2200, 1, 1, [
    ⟨1, 1, .uns 8, 0, false, 0, .any, .imm⟩,
    ⟨2, 1, .uns 8, 0, false, 0, .any, .imm⟩,
    ⟨3, 1, .uns 1, 0, false, 255, .any, .imm⟩,
    ⟨4, 1, .uns 8, 63, true, 0, .any, .imm⟩,
    ⟨5, 1, .uns 2, 1, false, 500, .rng (10) (10000), .reset⟩,
    ⟨6, 1, .uns 1, 1, false, 0, .set [0, 1], .reset⟩,
    ⟨7, 1, .int 2, 3, false, 115, .rng (90) (125), .imm⟩,
    ⟨8, 1, .int 2, 0, false, 0, .any, .imm⟩,
    ⟨9, 1, .uns 1, 0, false, 0, .any, .imm⟩
    ]⟩,
   ⟨0x2210, 1, 64, [
    ⟨1, 1, .uns 1, 3, false, 0, .any, .imm⟩,
    ⟨2, 1, .uns 1, 3, false, 1, .rng (0) (3), .imm⟩,
    ⟨3, 1, .uns 4, 0, false, 0, .any, .imm⟩,
    ⟨4, 1, .uns 8, 0, false, 0, .any, .imm⟩,
    ⟨5, 1, .uns 4, 0, false, 0, .any, .imm⟩,
    ⟨6, 1, .uns 4, 0, false, 0, .any, .imm⟩,
    ⟨7, 1, .uns 8, 0, false, 0, .any, .imm⟩
    ]⟩,
   ⟨0x2260, 1, 1, [
    ⟨1, 1, .uns 1, 19, false, 0, .rng (0) (63), .sub⟩,
    ⟨2, 1, .uns 1, 19, false, 1, .set [1, 2], .sub⟩,
    ⟨3, 1, .uns 1, 19, false, 0, .any, .sub⟩,
    ⟨4, 1, .uns 2, 19, false, 0, .any, .sub⟩,
    ⟨5, 1, .uns 1, 19, true, 0, .set [1], .imm⟩,
    ⟨6, 1, .uns 1, 0, false, 0, .any, .imm⟩
    ]⟩,
   ⟨0x2600, 1, 16, [
    ⟨16, 1, .int 2, 0, false, 0, .any, .imm⟩,
    ⟨32, 1, .int 2, 3, false, 0, .rng (-64) (64), .imm⟩,
    ⟨48, 1, .int 2, 0, false, 0, .any, .imm⟩,
    ⟨17, 1, .int 4, 0, false, 16384, .any, .imm⟩,
    ⟨33, 1, .int 4, 3, false, 0, .any, .imm⟩,
    ⟨49, 1, .int 4, 0, false, 16384, .any, .imm⟩
    ]⟩]

/-- The whole dictionary (R338). -/
def dictBlocks : List Block :=
  dict0 ++ dict1 ++ dict2 ++ dict3 ++ dict4 ++ dict5 ++ dict6 ++ dict7 ++ dict8 ++ dict9

/-- The row of a list that holds a sub-index. -/
def rowOf (rows : List Row) (sub : Nat) : Option Row :=
  rows.find? (fun r => Nat.ble r.sub sub && Nat.blt sub (r.sub + r.n))

/-- Does block `b` hold index `i`? -/
def Block.holds (b : Block) (i : Nat) : Bool :=
  Nat.ble b.base i && Nat.beq ((i - b.base) % b.stride) 0 && Nat.blt ((i - b.base) / b.stride) b.count

/-- The instance and the table row of an object. -/
def findIn (bs : List Block) (idx sub : Nat) : Option (Nat × Nat × Row) :=
  match bs with
  | [] => none
  | b :: rest =>
    if b.holds idx then
      match rowOf b.rows sub with
      | some r => some (b.base, (idx - b.base) / b.stride, r)
      | none => findIn rest idx sub
    else findIn rest idx sub

/-- The table row of object idx:sub: base, instance and row; none where R338 has no such object. -/
def findRow (idx sub : Nat) : Option (Nat × Nat × Row) := findIn dictBlocks idx sub

/-- Does the dictionary hold any object at this index? -/
def hasIndex (idx : Nat) : Bool := dictBlocks.any (fun b => b.holds idx)

/-- Default class, permitted classes of a fault bit (R432): (default, permitted). One permitted class means fixed. -/
def faultClass (b : Nat) : Nat × List Nat :=
  if b ≤ 15 then (1, [1, 2])
  else if b = 16 then (1, [1, 4])
  else if b = 17 then (0, [0, 1])
  else if b ≤ 19 then (4, [4])
  else if b = 20 then (0, [0, 1, 4])
  else if b ≤ 22 then (1, [1])
  else if b = 23 then (0, [0, 1])
  else if b ≤ 26 then (1, [1])
  else if b = 27 then (1, [1, 4])
  else if b ≤ 31 then (2, [2, 4])
  else if b ≤ 35 then (3, [3, 4])
  else if b ≤ 38 then (1, [0, 1, 4])
  else if b = 39 then (1, [1, 4])
  else if b = 40 then (5, [5])
  else if b = 41 then (1, [1])
  else if b = 42 then (1, [1, 4])
  else if b = 43 then (4, [4])
  else if b = 44 then (0, [0, 4])
  else if b = 45 then (0, [0])
  else if b ≤ 47 then (4, [4])
  else if b ≤ 51 then (0, [0, 1, 4])
  else if b = 52 then (4, [4])
  else if b = 53 then (1, [1, 4])
  else if b = 54 then (4, [1, 4])
  else if b = 55 then (4, [4])
  else (0, [])

/-- The word of the default store at an address (R399). -/
def defaultWord (a : Nat) : Nat :=
  if a = 0x001 then 0x2C000000
  else if a = 0x002 then 0x4E03E800
  else if a = 0x004 then 0x57000007
  else if a = 0x005 then 0x58000007
  else if a = 0x006 then 0x50000009
  else if a = 0x007 then 0x30000064
  else if a = 0x008 then 0x50000004
  else if a = 0x009 then 0x28000000
  else if a = 0x00A then 0x30002710
  else if a = 0x00B then 0x2C000000
  else if 0x00D ≤ a ∧ a ≤ 0x014 then (if (a - 0x00D) % 2 = 0 then 0x14000000 else 0x44000000) + (a - 0x00D) / 2
  else if 0x016 ≤ a ∧ a ≤ 0x01D then (if (a - 0x016) % 2 = 0 then 0x24000000 else 0x46000000) + (3 - (a - 0x016) / 2)
  else if a = 0x01F then 0x00000001
  else 0

/-- The default entry points (R399). -/
def defaultEntry (e : Nat) : Nat :=
  match e with
  | 0 => 0x000
  | 1 => 0x001
  | 2 => 0x004
  | 3 => 0x00D
  | 4 => 0x016
  | 5 => 0x01F
  | _ => 0x1FF

/-- The default energy map: code = tone (R214) in the layout of R197, where the tone is bits [9:8] of an entry's index. -/
def defaultMap : Bytes := (List.range 512).map (fun i => BitVec.ofNat 8 (17 * (i / 128)))

/-- The default rank table: 16 UNSIGNED16 values 512 + 8 (r - 8) (R244). -/
def defaultRanks : Bytes := (List.range 16).flatMap (fun r => leBytes 2 (448 + 8 * r))

/-- The default value of an object, from its base index, instance, sub-index and row. Defaults that depend on the instance are
given here; a string defaults to its shortest length of zero bytes. -/
def dflOf (base inst sub : Nat) (r : Row) : Val :=
  match r.ty with
  | .vstr lo _ =>
    if base = 0x2307 then .str [0x30]
    else if base = 0x2000 then .str [0x42, 0x31]
    else .str (List.replicate lo 0)
  | .ostr lo _ =>
    if base = 0x300B then .str (0x00 :: List.replicate 15 0x20)
    else if base = 0x300C then .str defaultMap
    else if base = 0x300E ∧ sub = 0x1A then .str defaultRanks
    else .str (List.replicate lo 0)
  | _ =>
    if base = 0x3004 ∧ sub = 2 then .num (4 * inst)
    else if base = 0x3008 ∧ 9 ≤ sub then .num ((2 ^ min (sub - 9) 8 : Nat) - 1)
    else if base = 0x300E ∧ sub ≤ 14 then .num (408 + 16 * (sub - 1 : Nat))
    else if (base = 0x2060 ∨ base = 0x2068) ∧ sub = 1 then .num (if inst = 0 then 1 else 0)
    else if base = 0x2068 ∧ sub = 4 then .num (0xC0A80A0A + inst : Nat)
    else if base = 0x2141 then .num (defaultEntry (sub - 1))
    else if base = 0x2210 ∧ sub = 1 then .num (faultClass inst).1
    else if base = 0x2210 ∧ sub = 2 then .num (if inst = 55 then 3 else 1)
    else .num r.dfl

/-- What an object reads as while no write or engine has given it another value. -/
def dfl (key : Nat) : Val :=
  match findRow (key / 256) (key % 256) with
  | some (base, inst, r) => dflOf base inst (key % 256) r
  | none => .num 0

/-- The bytes of an object's integer type; 8 where it has none. -/
def widthOf (key : Nat) : Nat :=
  match findRow (key / 256) (key % 256) with
  | some (_, _, r) =>
    match r.ty with
    | .bool => 1
    | .uns n => n
    | .int n => n
    | _ => 8
  | none => 8

end Sys2Proof.Machine
end

