-- ==== Sys2Proof/Machine/Ops.lean ====
section
/-! DEFINITION. The named operations over State: sparse tables, dictionary objects, time, memories, events and what the device sends. -/

namespace Sys2Proof.Machine

/-- What table `m` holds at `k`, with `d` for an unlisted key. -/
def tget {α : Type} (d : Nat → α) : Tbl α → Nat → α
  | [], k => d k
  | (i, v) :: m, k => if i = k then v else tget d m k

/-- `m` with `(k, v)` put before the first greater key. -/
def tinsert {α : Type} : Tbl α → Nat → α → Tbl α
  | [], k, v => [(k, v)]
  | (i, w) :: m, k, v => if k < i then (k, v) :: (i, w) :: m else (i, w) :: tinsert m k v

/-- `m` without key `k`. -/
def tdel {α : Type} (m : Tbl α) (k : Nat) : Tbl α := m.filter (fun p => p.1 != k)

/-- `m` with `v` at `k`, in canonical form. -/
def tset {α : Type} [DecidableEq α] (d : Nat → α) (m : Tbl α) (k : Nat) (v : α) : Tbl α :=
  if v = d k then tdel m k else tinsert (tdel m k) k v

/-- The canonical form: keys strictly rising, no entry equal to what its key reads as when unlisted. -/
def twf {α : Type} [DecidableEq α] (d : Nat → α) : Tbl α → Bool
  | [] => true
  | (i, v) :: m => (m.all (fun p => Nat.blt i p.1)) && (v != d i) && twf d m

/-- Insert before the first element with a greater key. -/
def insertOn {α : Type} (f : α → Nat) (a : α) : List α → List α
  | [] => [a]
  | b :: r => if f a < f b then a :: b :: r else b :: insertOn f a r

/-- Sort by a key, stable. -/
def sortOn {α : Type} (f : α → Nat) (l : List α) : List α := l.foldl (fun acc a => insertOn f a acc) []

/-! ## Object keys -/

/-- The key of object idx:sub. -/
abbrev ky (idx sub : Nat) : Nat := idx * 256 + sub

/-- Objects of casement `c`, page `p` (Bc + p). -/
abbrev oCas (c p sub : Nat) : Nat := ky (0x3000 + 0x20 * c + p) sub
/-- Objects of axis `a`, page `p` (Ba + p). -/
abbrev oAx (a p sub : Nat) : Nat := ky (0x4000 + 0x20 * a + p) sub
/-- Objects of loop slot `n`, page `p` (Bn + p). -/
abbrev oLoop (n p sub : Nat) : Nat := ky (0x4A00 + 8 * n + p) sub
/-- Objects of encoder `e`. -/
abbrev oEnc (e sub : Nat) : Nat := ky (0x4800 + 0x10 * e) sub
/-- Objects of line axis `k`. -/
abbrev oLax (k sub : Nat) : Nat := ky (0x2700 + k) sub
/-- Objects of GIN `n`. -/
abbrev oGin (n sub : Nat) : Nat := ky (0x2740 + n) sub
/-- Objects of GOUT `n`. -/
abbrev oGout (n sub : Nat) : Nat := ky (0x2780 + n) sub
/-- Objects of divided-pulse output `n`. -/
abbrev oPls (n sub : Nat) : Nat := ky (0x27A0 + n) sub
/-- Objects of reject channel `n`. -/
abbrev oRej (n sub : Nat) : Nat := ky (0x27C0 + n) sub
/-- Objects of sash `i`. -/
abbrev oSash (i sub : Nat) : Nat := ky (0x3800 + 8 * i) sub
/-- Objects of tally `n`: Value is sub 0 here, at sub-index 0x01 or 0x41 (R135). -/
abbrev oTal (n sub : Nat) : Nat := ky (0x2380 + n / 2) ((if n % 2 = 1 then 0x41 else 0x01) + sub)
/-- Objects of rail `n`. -/
abbrev oRail (n sub : Nat) : Nat := ky (0x2180 + n) sub
/-- Objects of fault bit `b`. -/
abbrev oFlt (b sub : Nat) : Nat := ky (0x2210 + b) sub
/-- Stitch objects of casement `c`. -/
abbrev oStitch (c sub : Nat) : Nat := ky (0x2440 + c) sub

/-! ## Dictionary values -/

/-- The value of an object. -/
def State.val (s : State) (k : Nat) : Val := tget dfl s.obj k

/-- The number a value holds; 0 for a string. -/
def Val.int : Val → Int
  | .num v => v
  | .str _ => 0

/-- The bytes a value holds; none for a number. -/
def Val.bytes : Val → Bytes
  | .num _ => []
  | .str b => b

/-- The number an object holds. -/
def State.num (s : State) (k : Nat) : Int := (s.val k).int

/-- The natural number an object holds. -/
def State.nat (s : State) (k : Nat) : Nat := (s.num k).toNat

/-- The bytes an object holds. -/
def State.str (s : State) (k : Nat) : Bytes := (s.val k).bytes

/-- Put a value into an object. -/
def State.setv (s : State) (k : Nat) (v : Val) : State := { s with obj := tset dfl s.obj k v }

/-- Put a number into an object. -/
def State.setn (s : State) (k : Nat) (n : Int) : State := s.setv k (.num n)

/-- A counter that wraps at its width (the tables' "count, wrapping"). -/
def State.bumpBy (s : State) (k n : Nat) : State := s.setn k (((s.nat k + n) % 2 ^ (8 * widthOf k) : Nat) : Int)

/-- A counter up by one. -/
def State.bump (s : State) (k : Nat) : State := s.bumpBy k 1

/-- A bit of a bit-field object. -/
def State.obit (s : State) (k i : Nat) : Bool := bit (s.nat k) i

/-- `x` with bit `i` set or cleared. -/
def putBit (x i : Nat) (b : Bool) : Nat := if b then x ||| 2 ^ i else x - (if bit x i then 2 ^ i else 0)

/-- An object with one bit set or cleared. -/
def State.setbit (s : State) (k i : Nat) (b : Bool) : State := s.setn k (putBit (s.nat k) i b : Nat)

/-- The value in force of an object whose writes wait for a mode entry, an enable, an apply or a reset (R7). -/
def State.frc (s : State) (k : Nat) : Val := tget dfl s.force k

/-- The number in force. -/
def State.frcN (s : State) (k : Nat) : Nat := (s.frc k).int.toNat

/-- The signed number in force. -/
def State.frcI (s : State) (k : Nat) : Int := (s.frc k).int

/-- Bring an object's written value into force. -/
def State.enforce (s : State) (k : Nat) : State := { s with force := tset dfl s.force k (s.val k) }

/-- The value of a "next decision point" object that governs a mark decided at `tD`: the last write with ts + 2 us at or before
it (R7, R65). -/
def State.dec (s : State) (k : Nat) (tD : Time) : Val :=
  match (s.waits.filter (fun w => w.key = k ∧ w.ts + usT 2 ≤ tD)).getLast? with
  | some w => w.val
  | none => s.frc k

/-- The number that governs a mark decided at `tD`. -/
def State.decI (s : State) (k : Nat) (tD : Time) : Int := (s.dec k tD).int

/-- The natural number that governs a mark decided at `tD`. -/
def State.decN (s : State) (k : Nat) (tD : Time) : Nat := (s.dec k tD).int.toNat

/-- Writes whose 2 us have passed become the values in force. -/
def State.settle (s : State) (now : Time) : State :=
  let (old, new) := s.waits.partition (fun w => w.ts + usT 2 ≤ now)
  { s with force := old.foldl (fun f w => tset dfl f w.key w.val) s.force, waits := new }

/-- A "next decision point" write: the object reads the new value at once, and it waits under R65. -/
def State.setDec (s : State) (k : Nat) (v : Val) : State :=
  { s.setv k v with waits := s.waits ++ [⟨k, v, s.clk.mono⟩] }

/-- Has a period run since an instant, if there was one? -/
def elapsed (last : Option Time) (period t : Time) : Bool := last.all (fun l => decide (l + period ≤ t))

/-- A conversion of a converter corrected by the offset and gain of its calibration object (R179, R186, log 18): 0x2600 + a for the sense
ADC of power port a, 0x2610 + j for shared ADC 16 + j. -/
def State.adcFix (s : State) (obj code : Nat) : Nat :=
  (max 0 (min 4095 (((code : Int) - s.num (ky obj 0x30)) * s.num (ky obj 0x31) / 16384))).toNat

/-! ## Instances -/

def State.encOf (s : State) (e : Nat) : Enc := tget (fun _ => Enc.init) s.enc e
def State.setEnc (s : State) (e : Nat) (v : Enc) : State := { s with enc := tset (fun _ => Enc.init) s.enc e v }
def State.laxOf (s : State) (k : Nat) : Lax := tget (fun _ => Lax.init) s.lax k
def State.setLax (s : State) (k : Nat) (v : Lax) : State := { s with lax := tset (fun _ => Lax.init) s.lax k v }
def State.ginOf (s : State) (n : Nat) : Gin := tget (fun _ => Gin.init) s.gin n
def State.setGin (s : State) (n : Nat) (v : Gin) : State := { s with gin := tset (fun _ => Gin.init) s.gin n v }
def State.plsOf (s : State) (n : Nat) : Pls := tget (fun _ => Pls.init) s.pls n
def State.setPls (s : State) (n : Nat) (v : Pls) : State := { s with pls := tset (fun _ => Pls.init) s.pls n v }
def State.talOf (s : State) (n : Nat) : Tal := tget (fun _ => Tal.init) s.tal n
def State.setTal (s : State) (n : Nat) (v : Tal) : State := { s with tal := tset (fun _ => Tal.init) s.tal n v }
def State.axOf (s : State) (a : Nat) : Axis := tget (fun _ => Axis.init) s.axes a
def State.setAx (s : State) (a : Nat) (v : Axis) : State := { s with axes := tset (fun _ => Axis.init) s.axes a v }
def State.loopOf (s : State) (n : Nat) : Loop := tget (fun _ => Loop.init) s.loops n
def State.setLoop (s : State) (n : Nat) (v : Loop) : State := { s with loops := tset (fun _ => Loop.init) s.loops n v }
def State.qOf (s : State) (q : Nat) : Queue := tget (fun _ => Queue.init) s.host.queues q
def State.setQ (s : State) (q : Nat) (v : Queue) : State :=
  { s with host := { s.host with queues := tset (fun _ => Queue.init) s.host.queues q v } }
def State.dmaOf (s : State) (n : Nat) : Dma := tget (fun _ => Dma.init) s.host.dma n
def State.setDma (s : State) (n : Nat) (v : Dma) : State :=
  { s with host := { s.host with dma := tset (fun _ => Dma.init) s.host.dma n v } }
def State.canOf (s : State) (i : Nat) : Can := tget (fun _ => Can.init) s.net.can i
def State.setCan (s : State) (i : Nat) (v : Can) : State :=
  { s with net := { s.net with can := tset (fun _ => Can.init) s.net.can i v } }
def State.portOf (s : State) (p : Nat) : FPort := tget (fun _ => FPort.init) s.fab.ports p
def State.setPort (s : State) (p : Nat) (v : FPort) : State :=
  { s with fab := { s.fab with ports := tset (fun _ => FPort.init) s.fab.ports p v } }
def State.railOf (s : State) (n : Nat) : Rail := tget (fun _ => Rail.init) s.lamp.rails n
def State.setRail (s : State) (n : Nat) (v : Rail) : State :=
  { s with lamp := { s.lamp with rails := tset (fun _ => Rail.init) s.lamp.rails n v } }
def State.casOf (s : State) (c : Nat) : Cas := tget (fun _ => Cas.init) s.cas c
def State.setCasement (s : State) (c : Nat) (v : Cas) : State := { s with cas := tset (fun _ => Cas.init) s.cas c v }
def State.rejOf (s : State) (n : Nat) : Rej := tget (fun _ => Rej.init) s.rej n
def State.setRej (s : State) (n : Nat) (v : Rej) : State := { s with rej := tset (fun _ => Rej.init) s.rej n v }
def State.exOf (s : State) (x : Nat) : Exec := tget (fun _ => Exec.init) s.lamp.ex x
def State.setEx (s : State) (x : Nat) (v : Exec) : State :=
  { s with lamp := { s.lamp with ex := tset (fun _ => Exec.init) s.lamp.ex x v } }

/-! ## Time -/

/-- The outcome type of every meaning. -/
abbrev Step := Host.Outcome State Fault Refusal

/-- The command's time: the monotonic count never goes back (R119). -/
def State.tick (s : State) (t : Time) : State := { s with clk := { s.clk with mono := max s.clk.mono t } }

/-- The present monotonic time. -/
def State.now (s : State) : Time := s.clk.mono

/-- Device time of a monotonic time, in ns (R119). -/
def State.devOf (s : State) (t : Time) : Int := (toNs t : Int) + s.clk.epoch

/-- The monotonic time of a device time in ns. -/
def State.monoOf (s : State) (d : Int) : Time := nsT (d - s.clk.epoch).toNat

/-- Device time, in ns. -/
def State.dev (s : State) : Int := s.devOf s.clk.mono

/-- The device mode (R419). -/
def State.modeN (s : State) : Nat := s.nat (ky 0x2100 2)

/-- Answer an access (R331). -/
def State.answer (s : State) (r : Resp) : State := { s with resp := r }

/-- Something leaves the device. -/
def State.send (s : State) (o : Out) : State := { s with out := o :: s.out }

/-- A fresh free value of `w` bits (log 3). -/
def State.free (s : State) (w : Nat) : Nat × State :=
  ((Config.freeValue w s.freeIx).toNat, { s with freeIx := s.freeIx + 1 })

/-! ## Memories -/

/-- What unwritten DRAM and host memory read as (log 12). -/
def zeroCell : Nat → Byte := fun _ => 0

/-- What erased flash reads as (log 12). -/
def onesCell : Nat → Byte := fun _ => 255

/-- `n` bytes at address `a`. -/
def readCells (d : Nat → Byte) (m : List Host.Cell) (a : Nat) : Nat → Bytes
  | 0 => []
  | n + 1 => tget d m a :: readCells d m (a + 1) n

/-- Bytes written from address `a` on. -/
def writeCells (d : Nat → Byte) (m : List Host.Cell) (a : Nat) : Bytes → List Host.Cell
  | [] => m
  | b :: bs => writeCells d (tset d m a b) (a + 1) bs

/-- Device DRAM at an address. -/
def State.dramRead (s : State) (a n : Nat) : Bytes := readCells zeroCell s.mem.dram a n

/-- Write device DRAM. -/
def State.dramWrite (s : State) (a : Nat) (b : Bytes) : State :=
  { s with mem := { s.mem with dram := writeCells zeroCell s.mem.dram a b } }

/-- Host memory as the device reads it. -/
def State.hostRead (s : State) (a n : Nat) : Bytes := readCells zeroCell s.mem.host a n

/-- A write of the device into host memory. -/
def State.hostWrite (s : State) (a : Nat) (b : Bytes) : State :=
  { s with mem := { s.mem with host := writeCells zeroCell s.mem.host a b } }

/-- Boot flash at an address. -/
def State.flashRead (s : State) (a n : Nat) : Bytes := readCells onesCell s.mem.flash a n

/-- Write boot flash. -/
def State.flashWrite (s : State) (a : Nat) (b : Bytes) : State :=
  { s with mem := { s.mem with flash := writeCells onesCell s.mem.flash a b } }

/-- Read in the space a LOCATION or SPACE bit names. -/
def State.memRead (s : State) (dram : Bool) (a n : Nat) : Bytes := if dram then s.dramRead a n else s.hostRead a n

/-- Write in the space a LOCATION or SPACE bit names. -/
def State.memWrite (s : State) (dram : Bool) (a : Nat) (b : Bytes) : State :=
  if dram then s.dramWrite a b else s.hostWrite a b

/-- Does [a, a + n) lie in installed DRAM? -/
def State.inDram (s : State) (a n : Nat) : Bool := a + n ≤ s.mem.dramSize

/-! ## Events -/

/-- Entries in a ring (R297). -/
def Queue.level (d : Queue) : Nat := (d.prod + 2 ^ 32 - d.cons) % 2 ^ 32

/-- A device-produced ring that is full (R297). -/
def Queue.atEnd (d : Queue) : Bool := Nat.ble (2 ^ d.z) d.level

/-- The event queue a source is routed to, 0 none (R315). -/
def State.routeOf (s : State) (src : Nat) : Nat := (tget (fun _ => 0) s.host.routes src) % 16384

/-- Is a source's event queue full or disabled (R314)? -/
def State.eventHeld (s : State) (src : Nat) : Bool :=
  let q := s.routeOf src
  let d := s.qOf q
  q != 0 && (!d.enabled || d.typ != 4 || d.atEnd)

/-- Raise event `src` with its cause and a device time (R314): a pending record counts a repeat, otherwise a record is made. -/
def State.eventAt (s : State) (dev : Int) (src cause inst : Nat) (data : Bytes := []) : State :=
  let h := s.host
  let n := tget (fun _ => 0) h.latched src
  let h := { h with latched := tset (fun _ => 0) h.latched src ((n + 1) % 2 ^ 32) }
  let none_ : EvRec := ⟨0, 0, [], 0, 0, false⟩
  match h.events.find? (fun p => p.1 = src) with
  | some (_, r) =>
    let r' := { r with repeats := min (r.repeats + 1) (2 ^ 32 - 1), loss := r.loss || s.eventHeld src }
    { s with host := { h with events := tinsert (tdel h.events src) src r' } }
  | none =>
    let r' := { none_ with cause := cause, inst := inst, data := data, time := (dev.toNat) % 2 ^ 64 }
    { s with host := { h with events := tinsert h.events src r' } }

/-- Raise an event now. -/
def State.event (s : State) (src cause inst : Nat) (data : Bytes := []) : State := s.eventAt s.dev src cause inst data

/-! ## EMCY -/

/-- Is CAN node `i` enabled? -/
def State.canOn (s : State) (i : Nat) : Bool := s.frcN (ky (0x2060 + i) 1) = 1 && decide (2 ≤ s.modeN)

/-- Send EMCY on node `i`, or let it wait while the inhibit time of 0x1015 (100 us units) runs; a second occurrence while one
waits adds nothing (R344). A stopped node sends none (R342); while its controller is bus-off it waits. -/
def State.emcyNode (s : State) (i code : Nat) (data : Bytes) : State :=
  let n := s.canOf i
  if !s.canOn i || n.nmt = 4 then s
  else if s.now < n.inhibitEnd ∨ s.nat (ky (0x2060 + i) 6) = 2 then
    if n.emcyWait.any (fun p => p.1 = code) then s
    else s.setCan i { n with emcyWait := n.emcyWait ++ [(code, data)] }
  else (s.setCan i { n with inhibitEnd := s.now + usT (100 * s.nat (ky 0x1015 0)) }).send (.emcy i code data)

/-- Push an error code into the pre-defined error field 0x1003, newest first, 16 entries. -/
def State.pushError (s : State) (code : Nat) : State :=
  let n := s.nat (ky 0x1003 0)
  let s := (List.range (min n 15)).foldr (fun i s => s.setn (ky 0x1003 (i + 2)) (s.num (ky 0x1003 (i + 1)))) s
  (s.setn (ky 0x1003 1) (code : Nat)).setn (ky 0x1003 0) (min (n + 1) 16 : Nat)

/-- EMCY on both nodes. -/
def State.emcy (s : State) (code : Nat) (data : Bytes) : State :=
  ((s.pushError code).emcyNode 0 code data).emcyNode 1 code data

end Sys2Proof.Machine
end

