-- ==== Sys2Proof/Machine/Bridge.lean ====
section
/-! DEFINITION. The half-bridges of the power ports (R246, R260, R262, R265, R266, R272): what each drives, as a function of the axis, and the
instants from which the dead time of its gates runs. Every change of an axis that can move a gate goes through `State.putAx`. Then the step outputs (R259). -/

namespace Sys2Proof.Machine

/-- Kind in force of axis `a` (R246): 0 OFF, 1 STEPPER, 2 BRUSHLESS, 3 BRUSHED, 4 STEP_DIR. -/
def State.axKind (s : State) (a : Nat) : Nat := s.frcN (oAx a 0 1)

/-- The half-bridges a kind uses (R246). -/
def halvesOf : Nat → Nat
  | 1 => 4
  | 2 => 3
  | 3 => 2
  | _ => 0

/-- The phase a half-bridge belongs to while the axis brakes. -/
def brakePhase (kind h : Nat) : Nat := if kind = 2 then h else h / 2

/-- The phases that brake. -/
def brakePhases : Nat → Nat
  | 1 => 2
  | 2 => 3
  | 3 => 1
  | _ => 0

/-- The unit of the chopper's settings. -/
def chopT (n : Nat) : Time := unitT (4 * n)

/-- toff_min in force (R262). -/
def State.toffMin (s : State) (a : Nat) : Time := chopT (bits (s.frcN (oAx a 5 9)) 47 32)

/-- The high and the low phase of a six-step sector (R266). -/
def sixStep (sector : Nat) : Nat × Nat :=
  match sector with
  | 0 => (0, 1)
  | 1 => (0, 2)
  | 2 => (1, 2)
  | 3 => (1, 0)
  | 4 => (2, 0)
  | _ => (2, 1)

/-- The high and the low phase that an axis drives in six-step mode; a negative set-point reverses the pair. -/
def Axis.pair (x : Axis) : Nat × Nat :=
  let (hi, lo) := sixStep x.sector
  if (tget (fun _ => Chop.init) x.chop 0).neg then (lo, hi) else (hi, lo)

/-- The end of the fast part of a mixed decay (R262). -/
def Chop.mixedEnd (c : Chop) (toffMin : Time) : Time := c.offT + toffMin * (c.decay / 16) / 16

/-- Does OFF decay fast at `t`? -/
def Chop.fastAt (c : Chop) (toffMin t : Time) : Bool :=
  c.decay % 4 == 1 || (c.decay % 4 == 2 && decide (t < c.mixedEnd toffMin))

/-- What one leg of a chopped winding drives: the leading leg takes the current in, the other returns it. -/
def Chop.leg (c : Chop) (fast lead : Bool) : Drive :=
  if c.on then (if lead then .high else .low) else if fast then (if lead then .low else .high) else .low

/-- What half-bridge `h` of axis `a` drives at `t`, the axis being `x` (R262, R265, R266, R272). A BRUSHLESS axis in sinusoidal mode chops each
phase on its own half-bridge, OFF driving the other side (log 294); the high phase of six-step goes low in OFF (log 295). -/
def State.driveOf (s : State) (a : Nat) (x : Axis) (t : Time) (h : Nat) : Drive :=
  let k := s.axKind a
  let c (p : Nat) : Chop := tget (fun _ => Chop.init) x.chop p
  if halvesOf k ≤ h then .off
  else if x.braking then (if t < tget (fun _ => 0) x.brk (brakePhase k h) then .off else .low)
  else if !x.gates then .off
  else if k ≠ 2 then
    let c := c (h / 2)
    if c = Chop.init then .off else c.leg (c.fastAt (s.toffMin a) t) ((h % 2 == 0) != c.neg)
  else if x.alignT.isSome then
    if c 0 = Chop.init then .off else (c 0).leg ((c 0).fastAt (s.toffMin a) t) (h == 0)
  else if s.frcN (oAx a 6 1) = 1 then
    if c h = Chop.init then .off else if (c h).on != (c h).neg then .high else .low
  else if c 0 = Chop.init then .off
  else
    let (hi, lo) := x.pair
    if h = hi then (if (c 0).on then .high else .low) else if h = lo then .low else .off

/-- When what half-bridge `h` drives last changed, or will change, by itself: the end of a mixed decay's fast part or of an opening by the
brake current limit. -/
def State.ownChange (s : State) (a : Nat) (x : Axis) (t : Time) (h : Nat) : Time :=
  let k := s.axKind a
  let c := tget (fun _ => Chop.init) x.chop (if k = 2 then 0 else h / 2)
  if x.braking then tget (fun _ => 0) x.brk (brakePhase k h)
  else if !c.on ∧ c.decay % 4 = 2 then c.mixedEnd (s.toffMin a)
  else t

/-- A half-bridge is asked to drive `w` from `t`. -/
def Half.ask (y : Half) (w : Drive) (t : Time) : Half :=
  if w = y.want then y
  else { want := w, hiOff := if y.want = .high then t else y.hiOff, loOff := if y.want = .low then t else y.loOff }

/-- Half-bridge `h` brought up to `t`, the axis being `x`. -/
def State.halfAt (s : State) (a : Nat) (x : Axis) (t : Time) (h : Nat) : Half :=
  let u := s.ownChange a x t h
  let y := tget (fun _ => Half.init) x.half h
  let y := if u < t then y.ask (s.driveOf a x u h) u else y
  y.ask (s.driveOf a x t h) t

/-- The half-bridges of a power port brought up to `t`. -/
def State.halvesAt (s : State) (a : Nat) (x : Axis) (t : Time) : Axis :=
  { x with half := (List.range 4).foldl (fun l h => tset (fun _ => Half.init) l h (s.halfAt a x t h)) x.half }

/-- Axis `a` becomes `x`, its gates following (R260). -/
def State.putAx (s : State) (a : Nat) (x : Axis) : State :=
  if a < 16 then s.setAx a (s.halvesAt a { x with half := (s.halvesAt a (s.axOf a) s.now).half } s.now) else s.setAx a x

/-- The level of PPa_G `g` at `t`: the high-side gate of half-bridge g / 2 where `g` is even, the low-side one where it is odd, each held
inactive for the dead time after the other; polarity bit 3 says gates are active low (R246, R260). -/
def State.gatePin (s : State) (a g : Nat) (t : Time) : Bool :=
  let y := s.halfAt a (s.axOf a) t (g / 2)
  let dead := chopT (s.frcN (oAx a 5 0x0B))
  let on := if g % 2 = 0 then decide (y.want = .high ∧ y.loOff + dead ≤ t) else decide (y.want = .low ∧ y.hiOff + dead ≤ t)
  on != s.obit (oAx a 3 6) 3

/-! ## Step outputs (R259) -/

/-- SDa_STEP of STEP_DIR axis `a` at `t`; polarity bit 0: active low. -/
def State.sdStep (s : State) (a : Nat) (t : Time) : Bool :=
  ((s.axOf a).lastStep.any (fun l => decide (l ≤ t ∧ t < l + chopT (s.nat (oAx a 3 1))))) != s.obit (oAx a 3 6) 0

/-- SDa_DIR at `t`: the sign of the velocity, from the instant DIR last changed, under direction invert; polarity bit 1: active low. -/
def State.sdDir (s : State) (a : Nat) (t : Time) : Bool :=
  let x := s.axOf a
  ((if x.dirT ≤ t then x.dir else !x.dir) != (s.nat (oAx a 0 5) == 1)) != s.obit (oAx a 3 6) 1

/-- SDa_EN (R248); polarity bit 2: active low. -/
def State.sdEn (s : State) (a : Nat) : Bool := (s.axOf a).gates != s.obit (oAx a 3 6) 2

end Sys2Proof.Machine
end

