-- ==== Sys2Proof/Machine/Flags.lean ====
section
/-! DEFINITION. Status and flag computations: the Fault Status Word and its records (R432 to R439), the CANopen error register (R344),
the Lamplighter's executor and rail states, and the reactions of the fault classes (R436). -/

namespace Sys2Proof.Machine

/-! ## Casement states (R81) -/

/-- State of casement `c`: 0 ABSENT, 1 COLD, 2 ARMING, 3 ARMED, 4 OPEN, 5 SERVICE, 6 FAULTED. -/
def State.casState (s : State) (c : Nat) : Nat := s.nat (oCas c 2 1)

/-- Casement `c` goes to state `v`. -/
def State.setCas (s : State) (c v : Nat) : State := s.setn (oCas c 2 1) (v : Nat)

/-- The instant a line's last pulse ends. -/
def Line.pulseEnd (l : Line) : Time := (l.offs.zip l.w).foldl (fun u (o, w) => if w = 0 then u else max u (l.tT + unitT (o + w))) l.tT

/-- Pulses of a line run, or are still to come, at `t`. -/
def Line.runs (l : Line) (t : Time) : Bool := l.st == .firing && decide (t < l.pulseEnd)

/-- What is left of a line's pulses that are ended at `t`: a pulse that runs is cut to the part delivered, later ones fall away. -/
def Line.endAt (l : Line) (t : Time) : Line :=
  let left := (l.offs.zip l.w).map (fun (o, w) => min w ((t - (l.tT + unitT o)) / unitT 1))
  { l with w := left, endT := min l.endT t }

/-- Pulses running on casement `c` are ended, and later lines of their mark stay blank (R170, R195). -/
def State.stopPulses (s : State) (c : Nat) : State :=
  let x := s.casOf c
  let hit (m : Mark) : Bool := m.lns.any (fun p => p.2.runs s.now)
  let s' := s.setCasement c { x with opened := x.opened.map (fun m => { m with
    strobeActed := m.strobeActed || hit m, ended := m.ended || hit m,
    lns := m.lns.map (fun (n, l) => if l.runs s.now then (n, l.endAt s.now) else (n, l)) }) }
  if x.opened.any hit then s'.send (.strobeEnd c s.now) else s'

/-- Casement `c` goes to FAULTED from any state except ABSENT (R81), with its cause. -/
def State.casFault (s : State) (c cause : Nat) : State :=
  if s.casState c = 0 ∨ s.casState c = 6 then s
  else (({ s with flt := { s.flt with concern := s.flt.concern.filter (fun p => p.2 != c) } }.stopPulses c).setCas c 6).setn
    (oCas c 2 0x0A) (cause : Nat)

/-- A CASEMENT_STOP occurrence of bit `b` concerns casement `c` (R436, R81). -/
def State.casStop (s : State) (b c : Nat) : State :=
  let s := s.casFault c 1
  if s.casState c = 6 then
    { s with flt := { s.flt with concern := (b, c) :: s.flt.concern.filter (fun p => p != (b, c)) } }
  else s

/-! ## Axis states (R248) -/

/-- State of axis `a`: 0 DISABLED, 1 HOLDING, 2 MOVING, 3 STOPPING, 4 FAULTED. -/
def State.axState (s : State) (a : Nat) : Nat := s.nat (oAx a 2 5)

/-- Axis `a` goes to state `v`. -/
def State.setAxState (s : State) (a v : Nat) : State := s.setn (oAx a 2 5) (v : Nat)

/-- The fault action of R272: 0 coast, 1 brake, 2 hold, which a STEPPER uses and any other kind treats as 1. -/
def State.faultAction (s : State) (a : Nat) (x : Axis) : Axis :=
  let act := s.nat (oAx a 7 0x0D)
  let holds : Bool := decide (act = 2 ∧ s.axKind a = 1)
  { x with gates := holds, braking := decide (act ≠ 0) && !holds, chop := if holds then x.chop else [] }

/-- The end of a ramped fault, the axis at rest: FAULTED, with the fault action (R248, R255, R272). -/
def State.rampFaulted (s : State) (a : Nat) : State :=
  (s.putAx a { s.faultAction a (s.axOf a) with plan := .rest, vm := 0, chain := [], owed := [], armed := none, alignT := none, startT := none,
                                               disV := 0, disT := none }).setAxState a 4

/-- A stop along ds for the reason `why` of `Plan.stop` (R255); it ends the running chain or move. A ramped fault of an axis at rest faults
it at once. -/
def State.axStop (s : State) (a why : Nat) : State :=
  let x := { s.axOf a with chain := [] }
  match s.axState a with
  | 2 => (s.setAx a { x with plan := .stop why }).setAxState a 3
  | 3 =>
    match x.plan with
    | .stop w => s.setAx a { x with plan := .stop (max w why) }
    | _ => s.setAx a { x with plan := .stop why }
  | 1 =>
    if why = 5 then s.rampFaulted a else s
  | _ => s

/-- At once to FAULTED, with status bit `bit` (R248, R255): `brakes` is whether the fault action of R272 applies. -/
def State.axFault (s : State) (a statusBit : Nat) (brakes : Bool) : State :=
  if s.axState a = 0 ∨ s.axState a = 4 then s
  else
    let x := s.axOf a
    let y := if brakes then s.faultAction a x else { x with gates := false, braking := false, chop := [] }
    let y := { y with plan := .rest, vm := 0, chain := [], owed := [], armed := none, catchT := none, alignT := none, startT := none,
                      disV := x.vm, disT := none }
    (((s.putAx a y).setAxState a 4).setbit (oAx a 2 6) statusBit true).setn (oAx a 1 9) 0

/-! ## The Lamplighter's executors (R388) -/

/-- Executor 48 is the system's. -/
abbrev sysEx : Nat := 48

/-- The objects of an executor: state, present step, last status. -/
def exKey (x sub : Nat) : Nat := if x = sysEx then ky 0x2142 (sub + 1) else ky (0x2150 + x) sub

/-- Is an executor running a program? -/
def State.exBusy (s : State) (x : Nat) : Bool := s.nat (exKey x 1) = 1

/-- The active entry point (R392). -/
def State.entryPoint (s : State) (e : Nat) : Nat := tget defaultEntry s.lamp.entries e

/-- A program of executor `x` goes away inside a SYNC_STEP: a participant holds LSYNC low again (R394, R396). -/
def State.lsyncHold (s : State) (x : Nat) : State :=
  if (s.exOf x).released then
    { s with lamp := { s.lamp with lsyncLow := true, qualT := none } }.setn (ky 0x2143 4) 0
  else s

/-- Start the program of entry `e` on executor `x`: its first step, its time limit; POWER_DOWN and HW_SHUTDOWN set the lock of R388. -/
def State.startProgram (s : State) (x e : Nat) : State :=
  let lim := if e = 2 then s.nat (ky 0x2142 7) else s.nat (ky 0x2142 6)
  let s := s.lsyncHold x
  let s := s.setEx x ⟨e, s.now, s.now, lim, false, 0, false⟩
  let s := if e = 1 ∨ e = 2 then { s with lamp := { s.lamp with locked := true, upOk := false } } else s
  (s.setn (exKey x 1) 1).setn (exKey x 2) (s.entryPoint e : Nat)

/-- Start HW_SHUTDOWN, abandoning what the system executor runs; one that runs already goes on. -/
def State.hwShutdown (s : State) : State :=
  if s.exBusy sysEx && decide ((s.exOf sysEx).entry = 2) then s else s.startProgram sysEx 2

/-- A rail disabled passes straight to OFF (R385). -/
def State.railOff (s : State) (n : Nat) : State :=
  let s := (s.setRail n { s.railOf n with en := false, timed := false, offT := some s.now }).setn (oRail n 0x0A) 0
  let c := s.frcN (oRail n 1)
  if c < 48 then s.stopPulses c else s

/-- Every EN driven inactive, every rail OFF (R393, R397). -/
def State.allOff (s : State) : State := (List.range 64).foldl State.railOff s

/-- The owner of a rail in force: a casement, or 0xFF (R384). -/
def State.railOwner (s : State) (n : Nat) : Nat := s.frcN (oRail n 1)

/-- The head group of casement `c` (R384). -/
def State.headGroup (s : State) (c : Nat) : List Nat := (List.range 64).filter (fun n => s.railOwner n = c)

/-- Rail `n` is in state `v`. -/
def State.railState (s : State) (n : Nat) : Nat := s.nat (oRail n 0x0A)

/-- Does rail `n`'s PG input show power-good, with its polarity (R383)? -/
def State.pgGood (s : State) (n : Nat) : Bool := (s.railOf n).pg != (s.nat (oRail n 4) == 1 : Bool)

/-- All rails of casement `c`'s head group are GOOD and show power-good (R62, R195). -/
def State.headPower (s : State) (c : Nat) : Bool := (s.headGroup c).all (fun n => decide (s.railState n = 2) && s.pgGood n)

/-! ## Mode entries that reactions make -/

/-- Enter device mode `m`: the mode object, the time and event 0xFC MODE_CHANGED (R420, R430), and the NMT state it shows (R342). -/
def State.enterMode (s : State) (m : Nat) : State :=
  let old := s.modeN
  let nmt := if m = 4 ∨ m = 5 then 5 else if m = 7 then 4 else 0x7F
  let s := (s.setn (ky 0x2100 2) (m : Nat)).setn (ky 0x2100 4) (s.dev.toNat : Nat)
  let s := [0, 1].foldl (fun s i => s.setCan i { s.canOf i with nmt := nmt }) s
  s.event 0xFC 0x0C02 0 [BitVec.ofNat 8 old, BitVec.ofNat 8 m]

/-- Entry to SAFE from CONFIGURE to SERVICE (R420): HW_SHUTDOWN starts, moving axes ramp to HOLDING, a transition is pre-empted. -/
def State.enterSafe (s : State) : State :=
  if 2 ≤ s.modeN ∧ s.modeN ≤ 6 then
    let s := { s with mode := { s.mode with trans := none, startup := none } }
    let s := s.enterMode 7
    let s := s.hwShutdown
    (List.range 48).foldl (fun s a => if s.axState a = 2 then s.axStop a 3 else s) s
  else s

/-! ## The Fault Status Word -/

/-- The class in force of an occurrence (R433, R434, R436), and the casement it concerns. -/
def State.faultTakes (s : State) (b cause inst : Nat) : Nat × Option Nat :=
  let cls := s.nat (oFlt b 1)
  if b = 40 then
    if s.railOwner inst < 48 then (2, some (s.railOwner inst)) else (4, none)
  else if 28 ≤ b ∧ b ≤ 31 then
    if cause = 3 then (1, none) else (cls, some inst)
  else if b ≤ 11 then
    let o := s.nat (oSash inst 1)
    if o < 48 then (cls, some o) else (if cls = 2 then 1 else cls, none)
  else if 12 ≤ b ∧ b ≤ 15 then (cls, some inst)
  else (cls, none)

/-- Is any status bit of class DEVICE_SAFE set? For bit 40, that of a system rail. -/
def State.deviceSafeSet (s : State) : Bool :=
  (List.range 56).any (fun b => s.flt.fsw.getLsbD b &&
    (if b = 40 then s.flt.concern.contains (40, 255) else s.nat (oFlt b 1) = 4))

/-- The CANopen error register 0x1001 (R344). -/
def State.errReg (s : State) : State :=
  let comm := s.nat (ky 0x2060 6) ≠ 0 ∨ s.nat (ky 0x2061 6) ≠ 0
  s.setn (ky 0x1001 0) ((b2n (s.flt.fsw != 0) + 16 * b2n (decide comm) + 128 * b2n s.deviceSafeSet : Nat) : Int)

/-- Drop SAFE_A and SAFE_B until the next reset (R437, R443, R445). -/
def State.dropSafe (s : State) : State :=
  if s.flt.safeA || s.flt.safeB then
    ({ s with flt := { s.flt with safeA := false, safeB := false } }).event 0xCF 0x0671 0
  else s

/-- One period of the 160 MHz control clock. -/
def clock160 (t : Time) : Nat := t * 4 / (25 * 4294967296)

/-- A list of times without the entry of bit `b`. -/
def offList (l : List (Nat × Time)) (b : Nat) : List (Nat × Time) := l.filter (fun p => p.1 != b)

/-- Does a list of times hold one for bit `b` on the control clock of `t`? -/
def onClock (l : List (Nat × Time)) (b : Nat) (t : Time) : Bool := l.any (fun p => p.1 == b && clock160 p.2 == clock160 t)

/-- The first fault (R439): the first bit to set while none is set, the lowest of those that set on one clock. -/
def State.firstFault (s : State) (b : Nat) : State :=
  if s.flt.fsw = 0 then ({ s with flt := { s.flt with firstT := s.now } }).setn (ky 0x2200 3) (b : Nat)
  else if !s.flt.fsw.getLsbD b ∧ clock160 s.flt.firstT = clock160 s.now ∧ b < s.nat (ky 0x2200 3) then s.setn (ky 0x2200 3) (b : Nat)
  else s

/-- Status bit `b` set, with the time of its occurrence. -/
def State.setFault (s : State) (b : Nat) : State :=
  { s with flt := { s.flt with
    fsw := s.flt.fsw ||| BitVec.ofNat 64 (2 ^ b)
    lastT := (b, s.now) :: offList s.flt.lastT b
    setT := if s.flt.fsw.getLsbD b then s.flt.setT else (b, s.now) :: offList s.flt.setT b } }

/-- Count and syndromes of an occurrence of bit `b`, which was set or not: of several on the clock that set it the first syndrome takes the
lowest INSTANCE, then the lowest DETAIL. -/
def State.noteFault (s : State) (b syn : Nat) (was : Bool) : State :=
  let dev := s.dev.toNat
  let lower := onClock s.flt.setT b s.now && Nat.blt (syn % 2 ^ 24) (s.nat (oFlt b 3) % 2 ^ 24)
  let s := if was then s.setn (oFlt b 5) (min (s.nat (oFlt b 5) + 1) (2 ^ 32 - 1) : Nat)
    else (s.setn (oFlt b 5) 1).setn (oFlt b 4) (dev : Nat)
  let s := if was && !lower then s else s.setn (oFlt b 3) (syn : Nat)
  (s.setn (oFlt b 6) (syn : Nat)).setn (oFlt b 7) (dev : Nat)

/-- Latch an occurrence of bit `b` (R438, R439), with its event and EMCY. `inj` is the INJECTED bit of the syndrome. -/
def State.latchFault (s : State) (b cause inst detail : Nat) (inj : Bool) (cls : Nat) : State :=
  let syn := b2n inj * 2147483648 + (cause % 128) * 16777216 + (inst % 256) * 65536 + detail % 65536
  let was := s.flt.fsw.getLsbD b
  let s := ((s.firstFault b).setFault b).noteFault b syn was
  let s := if s.obit (oFlt b 2) 0 then s.event (0xC8 + b / 16) (0x0600 + b) inst (leBytes 4 syn) else s
  let s := s.errReg
  if was then s
  else s.emcy (0xFF00 + b) (BitVec.ofNat 8 b :: BitVec.ofNat 8 cls :: leBytes 5 (s.nat (oFlt b 4)))

/-- An occurrence of bit `b`: latched, with the reaction of the class it takes (R436) and the DROP flag (R437). -/
def State.fault (s : State) (b cause inst detail : Nat) : State :=
  if 56 ≤ b then s
  else
    let (cls, cas) := s.faultTakes b cause inst
    let inj := s.flt.injected.contains b
    let s := { s with flt := { s.flt with injected := s.flt.injected.filter (· != b) } }
    let s := if b = 40 ∧ cls = 4 then
        { s with flt := { s.flt with concern := (40, 255) :: s.flt.concern.filter (fun p => p != (40, 255)) } }
      else s
    let s := s.latchFault b cause inst detail inj cls
    let s := if s.obit (oFlt b 2) 1 then s.dropSafe else s
    match cls, cas with
    | 2, some c => s.casStop b c
    | 3, _ => s.axStop inst 5
    | 4, _ => s.enterSafe
    | _, _ => s

/-- The live condition of bit `b` (R438). -/
def State.setLive (s : State) (b : Nat) (on : Bool) : State :=
  let m := BitVec.ofNat 64 (2 ^ b)
  { s with flt := { s.flt with live := if on then s.flt.live ||| m else s.flt.live &&& ~~~m } }

/-- Raise an axis's fault bit (R258, R264, R270). -/
def State.axisFault (s : State) (a cause detail : Nat) : State := s.fault (32 + a / 12) cause a detail

/-- Loss of rotor position (R255, R270): FAULTED at once, with the fault action. -/
def State.positionLost (s : State) (a : Nat) : State := (s.axFault a 6 true).axisFault a 3 0

/-- A fault of encoder `e` on the axes that use it (R270): the observer takes over, a STEPPER goes on, otherwise the axis faults. -/
def State.encoderFallback (s : State) (e : Nat) : State :=
  (List.range 48).foldl (fun s a =>
    if s.nat (oAx a 0 2) = e ∧ s.axState a ≠ 0 ∧ s.axState a ≠ 4 ∧ !s.obit (oAx a 2 6) 3 then
      match s.frcN (oAx a 0 1) with
      | 2 =>
        if (s.axOf a).obs.valid then (s.setbit (oAx a 2 6) 3 true).event (0x40 + a) 0x0205 a
        else s.positionLost a
      | 1 => s.event (0x40 + a) 0x0205 a
      | 3 => (s.event (0x40 + a) 0x0205 a).positionLost a
      | _ => s
    else s) s

end Sys2Proof.Machine
end

