-- ==== Sys2Proof/Machine/Operands.lean ====
section
/-! DEFINITION. Operand forms: values as they travel on a path (R329, R330), and the position and velocity of a line axis at a
time (R35 to R40). -/

namespace Sys2Proof.Machine

/-! ## Values on a path -/

/-- A continuation byte of UTF-8. -/
def isCont (b : Byte) : Bool := b.toNat / 64 == 2

/-- Valid UTF-8 (R329), with `fuel` at least the length. -/
def utf8Ok : Nat → Bytes → Bool
  | _, [] => true
  | 0, _ => false
  | f + 1, b :: bs =>
    let x := b.toNat
    if x < 0x80 then utf8Ok f bs
    else if 0xC2 ≤ x ∧ x ≤ 0xDF then
      match bs with
      | c :: r => isCont c && utf8Ok f r
      | _ => false
    else if 0xE0 ≤ x ∧ x ≤ 0xEF then
      match bs with
      | c :: d :: r =>
        isCont c && isCont d && !(x == 0xE0 && Nat.blt c.toNat 0xA0) && !(x == 0xED && Nat.ble 0xA0 c.toNat) && utf8Ok f r
      | _ => false
    else if 0xF0 ≤ x ∧ x ≤ 0xF4 then
      match bs with
      | c :: d :: e :: r =>
        isCont c && isCont d && isCont e && !(x == 0xF0 && Nat.blt c.toNat 0x90) && !(x == 0xF4 && Nat.ble 0x90 c.toNat)
          && utf8Ok f r
      | _ => false
    else false

/-- The value a byte string carries for a type; none where its length is wrong (R330). -/
def decodeVal (ty : OTy) (b : Bytes) : Option Val :=
  match ty with
  | .bool => if b.length = 1 then some (.num (leNat b)) else none
  | .uns n => if b.length = n then some (.num (leNat b)) else none
  | .int n => if b.length = n then some (.num (wrapS (8 * n) (leNat b))) else none
  | .vstr lo hi | .ostr lo hi =>
    if hi < b.length then none else if lo = hi ∧ b.length ≠ lo then none else some (.str b)

/-- A value as it travels, little-endian (R329). -/
def encodeVal (ty : OTy) (v : Val) : Bytes :=
  match ty, v with
  | .bool, .num n => leBytes 1 n.toNat
  | .uns n, .num x => leBytes n (wrapU (8 * n) x).toNat
  | .int n, .num x => leBytes n (wrapU (8 * n) x).toNat
  | _, .str b => b
  | _, .num x => leBytes 8 (wrapU 64 x).toNat

/-- The range its table row states for a value (R18, R329). -/
def rowRange (r : Row) (v : Val) : Bool :=
  match r.ty, v with
  | .vstr lo _, .str b => Nat.ble lo b.length && utf8Ok b.length b
  | .ostr lo _, .str b => Nat.ble lo b.length
  | ty, .num x =>
    let inTy := match ty with
      | .bool => decide (0 ≤ x ∧ x ≤ 1)
      | .uns n => decide (0 ≤ x ∧ x < 2 ^ (8 * n))
      | .int n => decide (-2 ^ (8 * n - 1) ≤ x ∧ x < 2 ^ (8 * n - 1))
      | _ => false
    inTy && (match r.rng with
      | .any => true
      | .rng lo hi => decide (lo ≤ x ∧ x ≤ hi)
      | .orv lo hi y => decide ((lo ≤ x ∧ x ≤ hi) ∨ x = y)
      | .set l => l.contains x)
  | _, _ => false

/-! ## Line axes -/

/-- One step in the units of `Lax.incs`. -/
abbrev step32 : Int := 4294967296

/-- pk with its carried fraction, in 2^-32 line steps. -/
def Lax.pos32 (x : Lax) : Int := x.pos * step32 + (x.rem * 4294967296 / x.den : Nat)

/-- The distance a velocity (Q32.16 per us) covers in a time, in 2^-32 line steps. -/
def cover (v dt : Int) : Int := v * dt / 65536000

/-- One source increment q of line axis `k` in 2^-32 line steps: N / D (R31). -/
def State.laxQ (s : State) (k : Nat) : Int := (s.nat (oLax k 3) * 4294967296 / max 1 (s.nat (oLax k 4)) : Nat)

/-- Clamp to ±q. -/
def clampI (lim x : Int) : Int := max (-lim) (min lim x)

/-- The times and positions of line axis `k` between the ends of its history: the recorded increments that fall there among the
history's own entries, newest first (R40). -/
def Lax.record (x : Lax) : List (Time × Int) :=
  match x.hist.getLast?, x.hist.head? with
  | some (t0, _), some (t1, _) =>
    let own := x.incs.filter (fun q => t0 < q.1 ∧ q.1 < t1 ∧ x.ownT ≤ q.1)
    (sortOn Prod.fst (x.hist.reverse ++ own.reverse)).reverse
  | _, _ => []

/-- p(t) of R37 in 2^-32 line steps; `fuel` bounds a chain of fallbacks (R33). -/
def State.laxP32 (s : State) : Nat → Nat → Time → Int
  | 0, k, _ => (s.laxOf k).pos32
  | f + 1, k, t =>
    let x := s.laxOf k
    match x.follow with
    | some j => s.laxP32 f j t + x.foff
    | none =>
      if bit x.st 7 then x.pos32
      else match x.dr with
        | some t0 => x.pos32 + cover x.vf ((t : Int) - t0)
        | none =>
          match x.kind with
          | 0 => x.pos32
          | 3 => x.pos32 + cover x.vf ((t : Int) - x.tk)
          | 4 => x.pos32 + cover x.virt ((t : Int) - x.tv)
          | _ => x.pos32 + clampI x.q (cover x.vf ((t : Int) - x.tk))

/-- p(t), in line steps, modulo 2^64 (R19, R37). -/
def State.laxPos (s : State) (k : Nat) (t : Time) : Int := wrapS 64 (s.laxP32 33 k t / step32)

/-- vf of a line axis; a fallback's is that of the axis followed (R32). -/
def State.laxVf (s : State) : Nat → Nat → Int
  | 0, k => (s.laxOf k).vf
  | f + 1, k =>
    match (s.laxOf k).follow with
    | some j => s.laxVf f j
    | none => if (s.laxOf k).kind = 4 then (s.laxOf k).virt else (s.laxOf k).vf

/-- The velocity used at `t`: vf, limited in magnitude to q / (t - tk) past the last increment interval (R36). -/
def State.laxVel (s : State) (k : Nat) (t : Time) : Int :=
  let x := s.laxOf k
  let v := s.laxVf 33 k
  if x.follow = none ∧ (x.kind = 1 ∨ x.kind = 2) ∧ x.dr = none ∧ x.iv < t - x.tk then
    clampI (x.q * 65536000 / ((t - x.tk : Nat) : Int)) v
  else v

/-- LAXk_STATUS (R48): VALID is derived, and an encoder source carries its encoder's DIR (R29). -/
def State.laxStatus (s : State) (k : Nat) : Nat :=
  let x := s.laxOf k
  let st := if x.kind = 1 ∧ x.follow = none then putBit x.st 1 (bit (s.encOf x.inst).st 1) else x.st
  putBit st 0 (decide (x.kind ≠ 0) && !bit x.st 7)

/-- The position at a time up to 32 us back (R40): linear between the record's entries, p(t) after the latest. -/
def interp (t : Time) : List (Time × Int) → Option Int
  | (t1, p1) :: (t0, p0) :: r =>
    if t1 ≤ t then none
    else if t0 ≤ t then
      some (if t1 = t0 then p0 else p0 + wrapS 96 (p1 - p0) * ((t - t0 : Nat) : Int) / ((t1 - t0 : Nat) : Int))
    else interp t ((t0, p0) :: r)
  | [(t1, p1)] => if t1 ≤ t then none else some p1
  | [] => none

/-- The position of line axis `k` at time `t`, now or in the recorded past. -/
def State.laxAt (s : State) (k : Nat) (t : Time) : Int :=
  match interp t (s.laxOf k).record with
  | some p => wrapS 64 (p / step32)
  | none => s.laxPos k t

/-! ## Arithmetic shared by several units -/

/-- Bits of a CRC step over one byte, least significant bit first, with a reflected polynomial. -/
def crcBits (poly : Nat) : Nat → Nat → Nat
  | 0, c => c
  | n + 1, c => crcBits poly n (if c % 2 = 1 then (c / 2) ^^^ poly else c / 2)

/-- A reflected CRC over bytes. -/
def crcRefl (poly : Nat) : Bytes → Nat → Nat
  | [], c => c
  | b :: bs, c => crcRefl poly bs (crcBits poly 8 (c ^^^ b.toNat))

/-- CRC-32 of IEEE 802.3 (the head of the Compositor chapter). -/
def crc32 (b : Bytes) : Nat := crcRefl 0xEDB88320 b 0xFFFFFFFF ^^^ 0xFFFFFFFF

/-- Bits of a CRC step, most significant bit first, of width `w`. -/
def crcMsbBits (w poly : Nat) : Nat → Nat → Nat
  | 0, c => c
  | n + 1, c => crcMsbBits w poly n (if bit c (w - 1) then ((2 * c) % 2 ^ w) ^^^ poly else (2 * c) % 2 ^ w)

/-- A CRC over bytes, most significant bit first, of width `w` (8 or more). -/
def crcMsb (w poly : Nat) : Bytes → Nat → Nat
  | [], c => c
  | b :: bs, c => crcMsb w poly bs (crcMsbBits w poly 8 (c ^^^ (b.toNat * 2 ^ (w - 8))))

/-- CRC-8 of R173. -/
def crc8 (b : Bytes) : Nat := crcMsb 8 0x07 b 0

/-- CRC-16 of the sash frames. -/
def crc16 (b : Bytes) : Nat := crcMsb 16 0x1021 b 0xFFFF

/-- Integer square root, by bits from `2 ^ n` down. -/
def isqrtAux (x : Nat) : Nat → Nat → Nat
  | 0, r => r
  | n + 1, r => isqrtAux x n (if (r + 2 ^ n) * (r + 2 ^ n) ≤ x then r + 2 ^ n else r)

/-- The integer part of the square root of `x` below 2^256. -/
def isqrt (x : Nat) : Nat := isqrtAux x 128 0

end Sys2Proof.Machine
end

