-- ==== Sys2Proof/Machine/Trig.lean ====
section
/-! DEFINITION. Sine, cosine and arc tangent in integers, for the sine/cosine interfaces (R22), the built-in rotor-angle table (R268) and the
flux observer (R269). Values carry 60 fraction bits. -/

namespace Sys2Proof.Machine

/-- One, with 60 fraction bits. -/
abbrev one60 : Int := 1152921504606846976

/-- 2 pi. -/
def twoPi60 : Int := 7244019458077122842

/-- The Taylor terms of sine (from `n` = 1) or cosine (from `n` = 0): the sum of the next `fuel` terms, the first of them `term`. -/
def taylor (x2 : Int) : Nat → Nat → Int → Int
  | 0, _, _ => 0
  | f + 1, n, term => term + taylor x2 f (n + 2) (-(term * x2 / one60) / (((n + 1) * (n + 2) : Nat) : Int))

/-- The angle num / den of a turn, brought to within half a turn of 0, in radians. -/
def radians (num den : Int) : Int :=
  let r := num % den
  (if den < 2 * r then r - den else r) * twoPi60 / den

/-- The sine of num / den of a turn. -/
def sinTurn (num den : Int) : Int := let x := radians num den; taylor (x * x / one60) 20 1 x

/-- The cosine of num / den of a turn. -/
def cosTurn (num den : Int) : Int := let x := radians num den; taylor (x * x / one60) 20 0 one60

/-- atan(2^-i) in turns, from i = 0 on. -/
def atanTurns : List Int :=
  [144115188075855872, 85076163258429574, 44951908161305065, 22818290470345122, 11453424468330927,
   5732295643252264, 2866847280169571, 1433511120421931, 716766496754739, 358384615492275,
   179192478636968, 89596260679883, 44798133010118, 22399066838831, 11199533461137,
   5599766735784, 2799883368544, 1399941684353, 699970842187, 349985421095,
   174992710548, 87496355274, 43748177637, 21874088818, 10937044409,
   5468522205, 2734261102, 1367130551, 683565276, 341782638,
   170891319, 85445659, 42722830, 21361415, 10680707,
   5340354, 2670177, 1335088, 667544, 333772,
   166886, 83443, 41722, 20861, 10430,
   5215, 2608, 1304, 652, 326]

/-- The iterations of a CORDIC in vectoring mode over the angles of `atanTurns` from `i` on: the angle by which (x, y) is turned onto the x
axis. The coordinates are scaled up by 2^i at each step, so that nothing is cut off. -/
def cordicFrom : List Int → Nat → Int → Int → Int
  | [], _, _, _ => 0
  | a :: r, i, x, y =>
    let k : Int := (2 ^ i : Nat)
    if 0 ≤ y then a + cordicFrom r (i + 1) (x * k + y) (y * k - x)
    else cordicFrom r (i + 1) (x * k - y) (y * k + x) - a

/-- atan2(y, x) in turns by `n` iterations; 0 for the zero vector. -/
def cordicTurn (n : Nat) (y x : Int) : Int :=
  if x = 0 ∧ y = 0 then 0
  else if 0 ≤ x then cordicFrom (atanTurns.take n) 0 x y
  else one60 / 2 + cordicFrom (atanTurns.take n) 0 (-x) (-y)

/-- The angle of R22: round(atan2(s1, c2) * 4096 / (2 pi)) mod 4096, by 16 iterations. -/
def encAngle (s1 c2 : Int) : Int := ((cordicTurn 16 s1 c2 * 4096 + one60 / 2) / one60) % 4096

/-- The quadrature correction of R22, phi in 0.01 degree: (c1 - s1 * sin phi) / cos phi. -/
def quadratureFix (s1 c1 phi : Int) : Int := tdiv (c1 * one60 - s1 * sinTurn phi 36000) (cosTurn phi 36000)

/-- A value with 60 fraction bits as a whole number: itself where it is one, else one of its two neighbours, which one is not stated
(log 135). -/
def someRounding (which : Nat) (arg v : Int) : Int :=
  let n := (v + 2 ^ 29) / one60
  if (v + 2 ^ 29) % one60 < 2 ^ 30 then n else if Config.roundUp which arg then v / one60 + 1 else v / one60

/-- Entry `i` of column `col` of rotor-angle table 0, the built-in sine (column A) and cosine (column B) of 1,024 entries, Q1.15 (R268). -/
def rotorEntry (col i : Nat) : Int :=
  let v := if col = 0 then sinTurn i 1024 else cosTurn i 1024
  max (-32768) (min 32767 (someRounding col i (v * 32768)))

/-- atan2(y, x) * 1024 / (2 pi), for the flux observer (R269). -/
def obsAngle (y x : Int) : Nat :=
  let v := cordicTurn 50 y x * 1024
  (someRounding 100 v v % 1024).toNat

end Sys2Proof.Machine
end

