-- ==== Sys2Proof/Machine/Line.lean ====
section
/-! DEFINITION. Encoders, line axes and divided-pulse outputs (R19 to R38, R45 to R48). -/

namespace Sys2Proof.Machine

/-! ## Encoders -/

/-- Status bit, fault cause of R432 and R339 of an encoder fault. -/
def encCause (i : Nat) : Nat :=
  match i with
  | 2 => 1
  | 3 => 2
  | 4 => 3
  | 5 => 4
  | 7 => 5
  | _ => 6

/-- Latch bit `i` of ENCe_STATUS (R28): its event, bit 36 or 37 of the Fault Status Word, and R270 for the axes on the encoder. -/
def State.encFault (s : State) (e i : Nat) : State :=
  let x := s.encOf e
  if bit x.st i then s
  else
    let c := encCause i
    let s := (s.setEnc e { x with st := putBit x.st i true }).event (0x30 + e) (0x0100 + c) e
    let s := s.fault (36 + e / 8) c e 0
    if i = 7 then s else s.encoderFallback e

/-- The direction rule of R29: the new flag, the new extreme, and whether the flag changed. -/
def dirRule (dir : Bool) (ext pos hyst : Int) : Bool × Int × Bool :=
  let d := if dir then sdiff ext pos else sdiff pos ext
  if 0 ≤ d then (dir, pos, false)
  else if hyst < -d then (!dir, pos, true)
  else (dir, ext, false)

/-- One source count into divided-pulse output `n` (R45, R46). -/
def State.plsCount (s : State) (n : Nat) (fwd : Bool) : State :=
  let x := s.plsOf n
  let N := s.num (oPls n 2)
  let M := s.num (oPls n 3)
  let a := if fwd then x.acc + N else x.acc - N
  let full := decide (255 ≤ x.q.length)
  let drop (s : State) := (s.bump (oPls n 5)).event (0x30 + s.nat (oPls n 1)) 0x0108 n
  if fwd && decide (M ≤ a) then
    let s' := s.setPls n { x with acc := a - M, q := if full then x.q else x.q ++ [true] }
    if full then drop s' else s'
  else if !fwd && decide (a < 0) then
    let s' := s.setPls n { x with acc := a + M, q := if full then x.q else x.q ++ [false] }
    if full then drop s' else s'
  else s.setPls n { x with acc := a }

/-- The increments kept for a window `w`: those within it, and the one before. -/
def keepInc (w : Time) (t : Time) : List (Time × Int) → List (Time × Int)
  | [] => []
  | [p] => [p]
  | p :: q :: r => if t - q.1 ≤ w then p :: keepInc w t (q :: r) else [p]

/-- The raw velocity of R35 from increments in 2^-32 line steps, newest first: over the oldest within `w`, else over the previous
one; truncated to Q32.16. -/
def rawVel (w : Time) (incs : List (Time × Int)) : Int :=
  match incs with
  | (t1, p1) :: (tp, pp) :: r =>
    let within := ((tp, pp) :: r).filter (fun q => t1 - q.1 ≤ w)
    let (t0, p0) := within.getLast?.getD (tp, pp)
    if t1 ≤ t0 then 0 else tdiv (wrapS 96 (p1 - p0) * 65536000) ((t1 - t0 : Nat) : Int)
  | _ => 0

/-- The stuck-active timers of the inputs on line axis `k` up to `t` (R42): they run while the input is active and the axis is not at
ZERO_SPEED. Called before that flag can change. -/
def State.ginTimers (s : State) (k : Nat) (t : Time) : State :=
  (List.range 64).foldl (fun s n =>
    let g := s.ginOf n
    if g.active ∧ s.nat (oGin n 3) = k then
      s.setGin n { g with run := g.run + (if bit (s.laxOf k).st 4 then 0 else t - g.runT), runT := max g.runT t }
    else s) s

/-- An increment of `d` source counts on line axis `k` at `ts` (R31, R35, R36). -/
def State.laxInc (s : State) (k : Nat) (d : Int) (ts : Time) : State :=
  let s := if bit (s.laxOf k).st 4 then s.ginTimers k ts else s
  let x := s.laxOf k
  let D := max 1 (s.nat (oLax k 4))
  let N := s.nat (oLax k 3)
  let tot : Int := (x.rem * D / x.den : Nat) + d * (N : Int)
  let x := { x with pos := wrapS 64 (x.pos + tot / (D : Int)), rem := (tot % (D : Int)).toNat, den := D }
  let w := usT (s.nat (oLax k 7))
  let x := { x with iv := if x.incs = [] then x.iv else ts - x.tk, tk := ts, q := s.laxQ k, zsLim := s.nat (oLax k 9),
                    incs := (ts, x.pos32) :: x.incs }
  let x := { x with vraw := rawVel w x.incs, incs := (x.incs.take 1) ++ keepInc w ts (x.incs.drop 1) }
  let x := if bit x.st 4 then
      { x with zcnt := x.zcnt + 1, st := if 1 ≤ x.zcnt then putBit x.st 4 false else x.st }
    else x
  s.setLax k x

/-- Does line axis `k` take its increments from (kind, instance) at present? -/
def State.laxTakes (s : State) (k kind inst : Nat) : Bool :=
  let x := s.laxOf k
  decide (x.kind = kind ∧ x.inst = inst ∧ x.follow = none ∧ x.dr = none) && !bit x.st 7

/-- Every line axis on (kind, instance) takes an increment. -/
def State.laxIncs (s : State) (kind inst : Nat) (d : Int) (ts : Time) : State :=
  (List.range 32).foldl (fun s k => if s.laxTakes k kind inst then s.laxInc k d ts else s) s

/-- `d` counts of encoder `e` at `ts`: position, estimate record, direction, divided pulses, line axes (R21, R29, R45, R31). -/
def State.encCount (s : State) (e : Nat) (d : Int) (ts : Time) : State :=
  let x := s.encOf e
  let pos := wrapS 64 (s.num (oEnc e 0x0A) + d)
  let (dir, ext, ch) := dirRule (bit x.st 1) x.ext pos (s.num (oEnc e 7))
  let s := s.setn (oEnc e 0x0A) pos
  let s := s.setEnc e { x with ext := ext, st := putBit x.st 1 dir,
                               recs := (ts, pos) :: keepInc (usT 65535) ts x.recs }
  let s := if ch then s.eventAt (s.devOf ts) (0x30 + e) 0x0107 e else s
  let s := (List.range 8).foldl (fun s n =>
    if s.nat (oPls n 1) = e then (List.range d.natAbs).foldl (fun s _ => s.plsCount n (decide (0 ≤ d))) s else s) s
  s.laxIncs 1 e d ts

/-- The Gray-code place of (A, B): forward is A leading B (R21). -/
def quad (a b : Bool) : Nat :=
  match a, b with
  | false, false => 0
  | true, false => 1
  | true, true => 2
  | false, true => 3

/-- The time stamp of an edge, to 1.5625 ns (R21). -/
def edgeTime (t : Time) : Time := t - t % unitT 1

def execEncoderEdge (t : Time) (e : Fin 16) (a b : Bool) (s : State) : Step :=
  let s := s.tick t
  let x := s.encOf e
  if s.nat (oEnc e 1) ≠ 1 ∨ (x.a = a ∧ x.b = b) then .next s
  else
    let ts := edgeTime t
    let close := match x.last with
      | some l => decide (ts < l + nsT 16)
      | none => false
    let d := (quad a b + 4 - quad x.a x.b) % 4
    let s := s.setEnc e { x with a := a, b := b, last := some ts }
    let s := if close then s.encFault e 7 else s
    if d = 2 then .next (s.encFault e 6)
    else
      let inv := s.nat (oEnc e 2) = 1
      let sg : Int := if d = 1 then 1 else -1
      .next (s.encCount e (if inv then -sg else sg) ts)

/-- An effective calibration value of encoder `e` with the auto-tracking adjustment (R22). -/
def State.encCal (s : State) (e sub : Nat) : Int := s.num (ky (0x4801 + 0x10 * e) sub)

def execSincosSample (t : Time) (e : Fin 16) (sn cs : Int) (s : State) : Step :=
  let s := s.tick t
  let x := s.encOf e
  if s.nat (oEnc e 1) ≠ 2 then .next s
  else
    let auto : Int := if s.nat (oEnc e 9) = 1 then 1 else 0
    let s1 := (s.encCal e 0x32 + auto * x.adjGs) * (sn - s.encCal e 0x30 - auto * x.adjOs)
    let c1 := (s.encCal e 0x33 + auto * x.adjGc) * (cs - s.encCal e 0x31 - auto * x.adjOc)
    let phi := s.encCal e 0x34
    let c2 := quadratureFix s1 c1 phi
    let ang := encAngle s1 c2
    let d := if x.angKnown then (ang - x.ang + 2048) % 4096 - 2048 else ang - s.num (oEnc e 0x0A)
    let mag2 := s1 * s1 + c2 * c2
    let lo : Int := 12288 * 16384
    let hi : Int := 61440 * 16384
    let per := if x.angKnown then (s.num (oEnc e 0x0A) + d - ang) / 4096 else 0
    let low := decide (100 * mag2 < lo * lo ∨ hi * hi < 100 * mag2)
    let s := s.setEnc e { x with ang := ang, angKnown := true, periods := per, low := low }
    let s := if x.angKnown ∧ (d > 512 ∨ d < -512) then s.encFault e 7 else s
    let s := if low then s.encFault e 5 else s
    .next (if d = 0 then s else s.encCount e d t)

def execIndex (t : Time) (e : Fin 16) (s : State) : Step :=
  let s := s.tick t
  let x := s.encOf e
  let kind := s.nat (oEnc e 1)
  if kind = 0 ∨ (kind = 1 ∧ s.nat (oEnc e 8) = 1 ∧ !(x.a && x.b)) then .next s
  else
    let pos := s.num (oEnc e 0x0A)
    let s := (s.setn (oEnc e 0x0B) pos).setn (oEnc e 0x0C) (s.devOf t)
    let s := s.setEnc e { x with st := putBit x.st 8 true }
    -- R265: the zero offset can be set at the Z edge
    .next ((List.range 16).foldl (fun s a =>
      if s.nat (oAx a 0 2) = e.val ∧ s.frcN (oAx a 0 1) = 2 ∧ s.frcN (oAx a 6 5) = 1 then
        (s.setn (oAx a 6 4) (wrapS 32 (pos + (s.axOf a).fbOff))).enforce (oAx a 6 4)
      else s) s)

def execWireCheckExpiry (t : Time) (e : Fin 16) (pair : WirePair) (s : State) : Step :=
  let s := s.tick t
  if s.nat (oEnc e 1) = 0 then .next s
  else .next (s.encFault e (match pair with
    | .a => 2
    | .b => 3
    | .z => 4))

def execAutoTrackUpdate (t : Time) (e : Fin 16) (smin smax cmin cmax freq : Int) (s : State) : Step :=
  let s := s.tick t
  let x := s.encOf e
  if s.nat (oEnc e 1) ≠ 2 ∨ s.nat (oEnc e 9) ≠ 1 ∨ freq < 10 ∨ 100000 < freq then .next s
  else
    let os := s.encCal e 0x30 + x.adjOs
    let oc := s.encCal e 0x31 + x.adjOc
    let gs := s.encCal e 0x32 + x.adjGs
    let gc := s.encCal e 0x33 + x.adjGc
    .next (s.setEnc e { x with
      adjOs := x.adjOs + asr ((smin + smax) / 2 - os) 4
      adjOc := x.adjOc + asr ((cmin + cmax) / 2 - oc) 4
      adjGs := x.adjGs + asr (Config.gainError smin smax gs) 4
      adjGc := x.adjGc + asr (Config.gainError cmin cmax gc) 4 })

def execEncStatusClear (t : Time) (e : Fin 16) (v : BitVec 32) (present : BitVec 9) (s : State) : Step :=
  let s := s.tick t
  let x := s.encOf e
  let st := [2, 3, 4, 5, 6, 7, 8].foldl (fun st i => if v.getLsbD i then putBit st i false else st) x.st
  let s := s.setEnc e { x with st := st }
  .next ([2, 3, 4, 5, 7].foldl (fun s i =>
    if v.getLsbD i && present.getLsbD i then s.encFault e i else s) s)

/-! ## Line axes -/

/-- Put line axis `k` at a position given in 2^-32 line steps. -/
def Lax.at32 (x : Lax) (p : Int) : Lax :=
  { x with pos := wrapS 64 (p / step32), rem := (p % step32).toNat, den := 4294967296 }

/-- One 1 us update (R30, R35, R36): the virtual ramp, the filter, ZERO_SPEED, OVERSPEED, direction and history. -/
def State.laxUpdate (s : State) (k : Nat) (t : Time) : State :=
  let s := s.ginTimers k t
  let x := s.laxOf k
  let dt := t - x.tv
  -- the virtual source (R30): its position is exact, then its velocity ramps
  let vden : Nat := 65536000 * 4294967296
  let x := if x.kind = 4 ∧ x.follow = none ∧ x.dr = none ∧ !bit x.st 7 then
      let tot : Int := (x.rem * vden / x.den : Nat) + x.virt * (dt : Int)
      { x with pos := wrapS 64 (x.pos + tot / (vden : Int)), rem := (tot % (vden : Int)).toNat, den := vden, tk := t }
    else x
  let acc : Int := s.num (oLax k 0x0B) * (dt : Int) + x.virtR
  let dv := acc / (msT 1 : Int)
  let target := s.num (oLax k 0x0A)
  let virt := if x.virt < target then min target (x.virt + dv) else max target (x.virt - dv)
  let x := { x with virt := virt, virtR := if virt = target then 0 else acc % (msT 1 : Int), tv := t, upT := t }
  let frozen := x.dr.isSome || bit x.st 7
  let x :=
    if frozen then x
    else match x.follow, x.kind with
      | some j, _ => { x with vf := s.laxVf 33 j, st := putBit x.st 4 (bit (s.laxOf j).st 4) }
      | none, 1 | none, 2 =>
        let v := if x.iv < t - x.tk then
            clampI (x.q * 65536000 / ((t - x.tk : Nat) : Int)) x.vraw
          else x.vraw
        { x with vf := x.vf + asr (v - x.vf) (s.nat (oLax k 8)) }
      | none, 3 => x
      | none, 4 => { x with vf := x.virt, st := putBit x.st 4 (decide (x.virt = 0)) }
      | none, _ => { x with vf := 0, st := putBit x.st 4 true }
  let x := if 8589934592 < 100 * x.vf ∨ 100 * x.vf < -8589934592 then { x with st := putBit x.st 3 true } else x
  let s := s.setLax k x
  let p := s.laxP32 33 k t
  let (dir, ext, _) := dirRule (bit x.st 1) x.ext (wrapS 64 (p / step32)) (s.num (oLax k 0x0C))
  let x := { x with ext := ext, hist := ((t, p) :: x.hist).take 32,
                    st := if x.kind = 3 ∧ x.follow = none then x.st else putBit x.st 1 dir }
  let s := s.setLax k x
  -- R41: an input re-arms once its line axis reaches pa + D
  (List.range 64).foldl (fun s n =>
    match (s.ginOf n).rearm with
    | some r =>
      if s.nat (oGin n 3) = k ∧ 0 ≤ sdiff (wrapS 64 (p / step32)) r then s.setGin n { s.ginOf n with rearm := none } else s
    | none => s) s

/-- The running estimate a source gives line axis `k` (R32), with the time of its latest increment. -/
def State.sourceVel (s : State) (k kind inst : Nat) (t : Time) : Int × Time :=
  let N := s.num (oLax k 3)
  let D := max 1 (s.num (oLax k 4))
  match kind with
  | 1 =>
    let r := (s.encOf inst).recs.map (fun p => (p.1, p.2 * step32))
    (tdiv (rawVel (usT (s.nat (oLax k 7))) r * N) D, (r.head?.map Prod.fst).getD t)
  | 2 => (tdiv (s.num (oAx inst 1 9) * N) D, (s.axOf inst).lastInc.getD t)
  | 3 => (tget (fun _ => 0) s.fab.vels inst, t)
  | 4 => ((s.laxOf k).virt, t)
  | _ => (0, t)

/-- Line axis `k` on the source `kind`, `inst`, with its position continuous and the new source's running estimate (R32). That ends
FALLBACK, EXTRAPOLATING and LOST (R33). -/
def State.onSource (s : State) (k kind inst : Nat) (t : Time) : Lax :=
  let p := s.laxP32 33 k t
  let (v, tk) := s.sourceVel k kind inst t
  let x := s.laxOf k
  let back := if kind = 1 ∨ kind = 2 then clampI (s.laxQ k) (cover v ((t : Int) - tk)) else 0
  let st := [7, 6, 5].foldl (fun st i => putBit st i false) x.st
  let st := putBit st 2 true
  let st := if kind = 0 then putBit st 4 true else if kind = 4 then putBit st 4 (decide (x.virt = 0)) else st
  let x := { x with kind := kind, inst := inst, pend := none, follow := none, foff := 0, dr := none, st := st, vf := v,
                    vraw := v, tk := tk, q := s.laxQ k, ownT := t, zsLim := s.nat (oLax k 9), zcnt := 0, tv := t }
  let x := x.at32 (p - back)
  -- a fabric source keeps the offset that makes the position continuous (R32, R369)
  let x := if kind = 3 ∧ tget (fun _ => 65536) s.fab.axisSeq inst ≠ 65536 then
      { x with foff := p - (tget (fun _ => 0) s.fab.poss inst * step32
        + cover v ((t : Int) - s.monoOf (tget (fun _ => 0) s.fab.axisTb inst))) }
    else x
  -- an encoder's own record of increments goes on as the line axis's (R32, R35)
  let recs := (s.encOf inst).recs
  match kind, recs with
    | 1, r0 :: r =>
      let N := s.num (oLax k 3)
      let D := max 1 (s.num (oLax k 4))
      { x with incs := (r0 :: r).map (fun q => (q.1, x.pos32 + wrapS 64 (q.2 - r0.2) * N * step32 / D))
               iv := match r with
                 | r1 :: _ => tk - r1.1
                 | [] => x.iv }
    | 1, [] | 2, _ => { x with incs := [(tk, x.pos32)] }
    | _, _ => { x with incs := [] }

/-- The source of line axis `k` changes to `kind`, `inst`, with event 0xFD (R32). -/
def State.applySource (s : State) (k kind inst : Nat) (t : Time) : State :=
  let s := s.ginTimers k t
  (s.setLax k (s.onSource k kind inst t)).event 0xFD 0x0D01 k

/-- The written source is applied at the next 1 us update (R32). -/
def execSourceSwitch (t : Time) (k : Fin 32) (s : State) : Step :=
  let s := s.tick t
  match (s.laxOf k).pend with
  | none => .next s
  | some (kind, inst) => .next (s.applySource k kind inst t)

/-- The source of a line axis is at fault (R28, R33): a latched fault of its encoder, or the followed line axis no longer VALID;
other sources report their own. -/
def State.sourceFaulty (s : State) (k : Nat) : Bool :=
  let x := s.laxOf k
  decide (x.kind ≠ 0) && x.dr.isNone && !bit x.st 7 &&
    (match x.follow with
     | some j => !bit (s.laxStatus j) 0
     | none => if x.kind = 1 then decide ((s.encOf x.inst).st &&& 0xFC ≠ 0) else true)

/-- The response to a source fault (R33): fallback, or dead reckoning. -/
def State.sourceFault (s : State) (k : Nat) (t : Time) : State :=
  let x := s.laxOf k
  let f := s.nat (oLax k 5)
  let p := s.laxP32 33 k t
  if f < 32 ∧ f ≠ k ∧ bit (s.laxStatus f) 0 ∧ (s.laxOf f).follow = none then
    let x := { x with follow := some f, foff := p - s.laxP32 33 f t, st := putBit (putBit x.st 5 true) 2 true }
    (s.setLax k x).event 0xFD 0x0D02 k
  else
    let x := { x.at32 p with dr := some t, drLim := s.nat (oLax k 6), tk := t, vf := s.laxVf 33 k, follow := none, foff := 0,
                             st := putBit (putBit x.st 6 true) 5 false }
    (s.setLax k x).event 0xFD 0x0D03 k

def execLineAxisSourceFault (t : Time) (k : Fin 32) (s : State) : Step :=
  let s := s.tick t
  if s.sourceFaulty k then .next (s.sourceFault k t) else .next s

def execZeroSpeedTimeout (t : Time) (k : Fin 32) (s : State) : Step :=
  let s := s.tick t
  let x := s.laxOf k
  if (x.kind = 1 ∨ x.kind = 2) ∧ x.follow = none ∧ x.dr = none ∧ usT x.zsLim < t - x.tk ∧ !bit x.st 4 then
    .next ((s.ginTimers k t).setLax k { x with vf := 0, vraw := 0, zcnt := 0, st := putBit x.st 4 true })
  else .next s

/-- LOST (R33, R34): VALID clear, the position held. -/
def State.laxLost (s : State) (k : Nat) (t : Time) : State :=
  let x := s.laxOf k
  let x := { x.at32 (s.laxP32 33 k t) with dr := none, vf := 0, vraw := 0, st := putBit (putBit x.st 7 true) 6 false }
  (s.setLax k x).event 0xFD 0x0D04 k

/-! ## Divided-pulse outputs -/

/-- The levels after one step: A leads B forward. -/
def plsNext (a b fwd : Bool) : Bool × Bool :=
  if fwd then
    match a, b with
    | false, false => (true, false)
    | true, false => (true, true)
    | true, true => (false, true)
    | false, true => (false, false)
  else
    match a, b with
    | false, false => (false, true)
    | false, true => (true, true)
    | true, true => (true, false)
    | true, false => (false, false)

def execPlsStepOut (t : Time) (n : Fin 8) (s : State) : Step :=
  let s := s.tick t
  let x := s.plsOf n
  let spaced : Bool := match x.last with
    | some l => decide (l + s.nat (oPls n 4) * nsT 25 / 2 ≤ t)
    | none => true
  match x.q with
  | [] => .next s
  | f :: r =>
    if s.nat (oPls n 1) ≤ 15 ∧ spaced ∧ 2 ≤ s.modeN then
      let (a, b) := plsNext x.a x.b f
      .next ((s.setPls n { x with q := r, a := a, b := b, last := some t }).send (.pls n a b))
    else .next s

/-! ## Snapshot -/

/-- The line-axis snapshot (R48): positions and velocities of all line axes and the device time at one instant. -/
def State.laxSnapshot (s : State) : State :=
  { s with snap := ⟨s.dev.toNat, (List.range 32).map (fun k => s.laxPos k s.now),
                     (List.range 32).map (fun k => s.laxVel k s.now)⟩ }

def execLaxSnap (t : Time) (s : State) : Step :=
  let s := s.tick t
  if s.modeN = 0 then .next s else .next s.laxSnapshot

end Sys2Proof.Machine
end

