-- ==== Sys2Proof/Machine/Time.lean ====
section
/-! DEFINITION. Device time, the calendar and the tallies (R119 to R135). -/

namespace Sys2Proof.Machine

/-! ## Dates -/

/-- A leap year. -/
def leapYear (y : Int) : Bool := (y % 4 == 0 && y % 100 != 0) || y % 400 == 0

/-- Days in a month. -/
def daysIn (y : Int) (m : Nat) : Nat :=
  if m = 2 then (if leapYear y then 29 else 28) else if m = 4 ∨ m = 6 ∨ m = 9 ∨ m = 11 then 30 else 31

/-- Days from 1970-01-01 to a date. -/
def daysOf (y : Int) (m d : Nat) : Int :=
  let y' := if m ≤ 2 then y - 1 else y
  let era := y' / 400
  let yoe := y' - era * 400
  let mp : Int := ((m + 9) % 12 : Nat)
  let doy := (153 * mp + 2) / 5 + (d : Int) - 1
  let doe := yoe * 365 + yoe / 4 - yoe / 100 + doy
  era * 146097 + doe - 719468

/-- The date of a day count from 1970-01-01. -/
def dateOf (z0 : Int) : Int × Nat × Nat :=
  let z := z0 + 719468
  let era := z / 146097
  let doe := z - era * 146097
  let yoe := (doe - doe / 1460 + doe / 36524 - doe / 146096) / 365
  let doy := doe - (365 * yoe + yoe / 4 - yoe / 100)
  let mp := (5 * doy + 2) / 153
  let d := (doy - (153 * mp + 2) / 5 + 1).toNat
  let m := if mp < 10 then (mp + 3).toNat else (mp - 9).toNat
  (yoe + era * 400 + (if m ≤ 2 then 1 else 0), m, d)

/-- ISO weekday, 1 Monday to 7 Sunday. -/
def weekday (days : Int) : Nat := ((days + 3) % 7).toNat + 1

/-- Ordinal day of the year. -/
def yearDay (days : Int) : Nat := (days - daysOf (dateOf days).1 1 1).toNat + 1

/-! ## UTC, local time, shifts (R125 to R128). `L` looks settings up: as in force for a decision time, or as now. -/

/-- The used leap entries (effective TAI second, new offset) in ascending second. -/
def leapList (L : Nat → Val) : List (Int × Int) :=
  let es := (List.range 32).filterMap (fun i =>
    let v := (L (ky 0x2306 (i + 1))).int
    if v / 65536 = 0 then none else some (v / 65536, wrapS 16 (v % 65536)))
  es.foldl (fun acc e => acc.filter (fun x => x.1 < e.1) ++ [e] ++ acc.filter (fun x => e.1 < x.1)) []

/-- The TAI - UTC offset in force at a TAI second, and whether that second is an inserted one (R125). -/
def utcOffset (L : Nat → Val) (tai : Int) : Int × Bool :=
  let base := (L (ky 0x2304 1)).int
  let (off, ins) := (leapList L).foldl (fun (a : Int × Bool) e =>
    if e.1 ≤ tai then (e.2, decide (e.1 = tai) && decide (e.2 = a.1 + 1)) else a) (base, false)
  (off, ins)

/-- The UTC second at which a rule of R126 falls in a year, given the offset in force just before it. -/
def ruleUtc (y : Int) (rule : Nat) (offset : Int) : Int :=
  let m := bits rule 11 8
  let w := bits rule 6 4
  let wd := bits rule 2 0
  let first := daysOf y m 1
  let d1 : Nat := (wd + 7 - weekday first) % 7 + 1
  let d := d1 + 7 * (w - 1)
  let d := if w = 5 ∧ daysIn y m < d then d - 7 else d
  daysOf y m d * 86400 + (bits rule 26 16 : Nat) * 60 - offset

/-- Is daylight time in force at a UTC second (R126)? -/
def daylight (L : Nat → Val) (u : Int) : Bool :=
  let dst := (L (ky 0x2305 1)).int * 60
  let rs := (L (ky 0x2305 2)).int.toNat
  let re := (L (ky 0x2305 3)).int.toNat
  let zone := (L (ky 0x2304 2)).int * 60
  if dst = 0 ∨ rs = 0 ∨ re = 0 then false
  else
    let y := (dateOf ((u + zone) / 86400)).1
    [y - 1, y, y + 1].any (fun y =>
      let a := ruleUtc y rs zone
      let b := ruleUtc y re (zone + dst)
      let b := if b ≤ a then ruleUtc (y + 1) re (zone + dst) else b
      decide (a ≤ u ∧ u < b))

/-- The shift definition in force on local day `days` at a minute (R128); 16 where none is found. -/
def shiftAt (L : Nat → Val) (days : Int) (minute : Nat) : Nat :=
  let best (back : Nat) : Option Nat :=
    let wd := weekday (days - back)
    ((List.range 16).foldl (fun (acc : Option (Nat × Nat)) n =>
      let st := (L (ky (0x2310 + n) 2)).int.toNat
      if (L (ky (0x2310 + n) 1)).int = 1 ∧ bit (L (ky (0x2310 + n) 3)).int.toNat (wd - 1) ∧ (back ≠ 0 ∨ st ≤ minute) then
        match acc with
        | some (b, m) => if m < st then some (n, st) else some (b, m)
        | none => some (n, st)
      else acc) none).map Prod.fst
  ((List.range 8).findSome? best).getD 16

/-- Calendar values of one instant (R124). -/
structure Cal where
  days : Int
  year : Int
  month : Nat
  day : Nat
  hour : Nat
  minute : Nat
  second : Nat
  ns : Nat
  wday : Nat
  yday : Nat
  dst : Bool
  shift : Nat
  utc : Int
  zone : Int                    -- minutes of local time from UTC
  deriving DecidableEq, Repr

/-- The converter of R124, with the tables that `L` gives. -/
def calendar (L : Nat → Val) (dev : Int) : Cal :=
  let tai := dev / 1000000000
  let (off, ins) := utcOffset L tai
  let u := tai - off
  let d := daylight L u
  let zone := (L (ky 0x2304 2)).int + (if d then (L (ky 0x2305 1)).int else 0)
  let loc := u + zone * 60
  let days := loc / 86400
  let sod := (loc % 86400).toNat
  let (y, m, dd) := dateOf days
  { days := days, year := y, month := m, day := dd, hour := sod / 3600, minute := sod / 60 % 60,
    second := if ins then 60 else sod % 60, ns := (dev % 1000000000).toNat, wday := weekday days, yday := yearDay days,
    dst := d, shift := shiftAt L days (sod / 60), utc := u, zone := zone }

/-- The settings in force now. -/
def State.calNow (s : State) : Nat → Val := fun k => s.dec k s.now

/-! ## Time source and steps -/

/-- The time source (R120) is object 0x2300:02; a change raises event 0xDC. -/
def State.setSource (s : State) (v : Nat) : State :=
  if s.nat (ky 0x2300 2) = v then s else (s.setn (ky 0x2300 2) (v : Nat)).event 0xDC 0 0

/-- A step of device time: only the epoch offset changes, and event 0xD9 carries the signed step (R119). -/
def State.stepTime (s : State) (d : Int) : State :=
  ({ s with clk := { s.clk with epoch := s.clk.epoch + d } }).event 0xD9 0 0 (leBytes 8 (wrapU 64 d).toNat)

/-- A time write applied: device time is W seconds, the source is SET, BATT_LOST is cleared (R123). -/
def State.applyTime (s : State) (w : Nat) : State :=
  let s := s.stepTime ((w : Int) * 1000000000 - s.dev)
  { s with clk := { s.clk with battLost := false, staged := none } }.setSource 2

/-- Does a W of R123 fall in the years 2000 to 2199 of UTC? -/
def State.timeOk (s : State) (w : Nat) : Bool :=
  let y := (dateOf (((w : Int) - (utcOffset s.calNow w).1) / 86400)).1
  decide (2000 ≤ y ∧ y ≤ 2199)

/-- A staged time write applies at the next whole-second boundary of device time after it (R123). -/
def execStagedTimeApply (t : Time) (s : State) : Step :=
  let s := s.tick t
  match s.clk.staged with
  | some (w, u) => if u + nsT 1 ≤ t ∧ s.dev % 1000000000 = 0 then .next (s.applyTime w) else .next s
  | none => .next s

/-- A measured offset from the grandmaster under R122, while discipline is enabled. -/
def State.ptpOffset (s : State) (theta : Int) (utc : Option Int) : State :=
  if s.nat (ky 0x2302 1) ≠ 1 then s
  else
    let s := s.setn (ky 0x2308 0x0B) theta
    let s := { s with clk := { s.clk with offsetT := some s.now } }
    let s :=
      if s.num (ky 0x2302 2) < (theta.natAbs : Int) then s.stepTime (-theta)
      else
        let (i, r) := Config.servo s.clk.integ theta
        { s with clk := { s.clk with integ := i, rate := clampI (s.num (ky 0x2302 3)) r } }
    let n := if (theta.natAbs : Int) < s.num (ky 0x2302 4) then s.clk.lockN + 1 else 0
    let s := { s with clk := { s.clk with lockN := min n 16 } }
    let s := if 16 ≤ n then { s with clk := { s.clk with holdT := none } }.setSource 3 else s
    match utc with
    | some u => if s.num (ky 0x2304 1) = wrapS 16 u then s else s.setDec (ky 0x2304 1) (.num (wrapS 16 u))
    | none => s

def execPtpOffset (t : Time) (theta : Int) (utc : Option Int) (s : State) : Step := .next ((s.tick t).ptpOffset theta utc)

def execPtpHoldoverTimeout (t : Time) (s : State) : Step :=
  let s := s.tick t
  match s.clk.offsetT with
  | some o =>
    if s.nat (ky 0x2300 2) = 3 ∧ o + msT (s.nat (ky 0x2302 5)) ≤ t then
      .next ({ s with clk := { s.clk with holdT := some t, lockN := 0 } }.setSource 4)
    else .next s
  | none => .next s

def execHoldoverExpiry (t : Time) (s : State) : Step :=
  let s := s.tick t
  match s.clk.holdT with
  | some h =>
    if s.nat (ky 0x2300 2) = 4 ∧ h + secT 60 ≤ t then
      .next ({ s with clk := { s.clk with holdT := none } }.setSource 2)
    else .next s
  | none => .next s

/-- The calendar clock brought up to date: it counts 32,768 per second (R121). -/
def State.calAdvance (s : State) : State :=
  let c := s.clk
  let one := secT 1 / 32768
  let counts := (c.mono - c.calT) / one
  let tot := c.calSec * 32768 + c.calSub + counts
  { s with clk := { c with calSec := tot / 32768 % 2 ^ 48, calSub := tot % 32768, calT := c.calT + counts * one } }

def execCalendarRealign (t : Time) (s : State) : Step :=
  let s := s.tick t
  let src := s.nat (ky 0x2300 2)
  if 2 ≤ src ∧ src ≤ 4 ∧ s.dev / 1000000000 % 60 = 0 then
    let d := s.dev
    .next { s with clk := { s.clk with
      calSec := (d / 1000000000).toNat % 2 ^ 48
      calSub := (d % 1000000000 * 32768 / 1000000000).toNat
      calOk := true, calT := s.clk.mono } }
  else .next s

/-- The trim adds or omits counts once per 64 s (R121). -/
def execCalendarTrimStep (t : Time) (s : State) : Step :=
  let s := (s.tick t).calAdvance
  if t < s.clk.trimT + secT 64 then .next s
  else
  let d := tdiv (s.num (ky 0x2303 0x30) * 1048576) 1000000
  let tot := (((s.clk.calSec * 32768 + s.clk.calSub : Nat) : Int) + d).toNat
  .next { s with clk := { s.clk with calSec := tot / 32768 % 2 ^ 48, calSub := tot % 32768, trimT := t } }

/-- The snapshot of R124: one instant in every calendar register. -/
def State.timeSnapshot (s : State) : State :=
  let d := s.dev
  let c := calendar s.calNow d
  let dn := (wrapU 64 d).toNat
  { s with clk := { s.clk with
      snapLo := dn % 2 ^ 32
      snapHi := dn / 2 ^ 32
      calDate := (c.year % 65536).toNat * 65536 + c.month * 256 + c.day
      calTime := c.hour * 16777216 + c.minute * 65536 + c.second * 256 + c.wday * 16 + b2n c.dst
      calNs := c.ns
      calInfo := c.yday * 65536 + (if c.shift = 16 then 1 else c.shift * 256) } }

def execTimeSnap (t : Time) (s : State) : Step :=
  let s := s.tick t
  if s.modeN = 0 then .next s else .next s.timeSnapshot

/-- Device time reaches the effective second of a leap-second entry, which is applied whatever it changes (R125). -/
def execLeapSecondApply (t : Time) (s : State) : Step :=
  let s := s.tick t
  let tai := s.dev / 1000000000
  let again : Bool := match s.clk.leapAt with
    | some (e, u) => decide (e = tai ∧ t < u + secT 1)
    | none => false
  if (leapList s.calNow).any (fun e => e.1 = tai) && !again then
    .next ({ s with clk := { s.clk with leapAt := some (tai, t) } }.event 0xDA 0 0)
  else .next s

def execDaylightChange (t : Time) (s : State) : Step :=
  let s := s.tick t
  let c := calendar s.calNow s.dev
  if c.dst = s.clk.dayOn then .next s
  else .next ({ s with clk := { s.clk with dayOn := c.dst } }.event 0xDB 0 0)

def execShiftChange (t : Time) (s : State) : Step :=
  let s := s.tick t
  let c := calendar s.calNow s.dev
  if c.shift = s.clk.shiftNow then .next s
  else .next ({ s with clk := { s.clk with shiftNow := c.shift } }.event 0xDD 0 0)

/-! ## Tallies -/

/-- The limit in use (R129). -/
def State.talLimit (s : State) (n : Nat) : Nat := min (s.nat (oTal n 3)) (2 ^ s.nat (oTal n 1) - 1)

/-- Persistence of tally `n`: its guard in force (R132), 0 off. -/
def State.talGuard (s : State) (n : Nat) : Nat := s.frcN (oTal n 7)

/-- Request the mark S + G once the value has passed S - G/2 (R132); the automatic save of R337 writes it. -/
def State.talMark (s : State) (n : Nat) : State :=
  let x := s.talOf n
  let g := s.talGuard n
  if g ≠ 0 ∧ x.pend = none ∧ x.mark < s.nat (oTal n 0) + g / 2 then
    let s := s.setTal n { x with pend := some (x.mark + g) }
    { s with store := { s.store with autoOwed := true } }
  else s

/-- Has the value reached the mark S before a new mark is confirmed (R132)? -/
def State.talWaits (s : State) (n : Nat) : Bool := s.talGuard n != 0 && Nat.ble (s.talOf n).mark (s.nat (oTal n 0))

/-- After an advance of tally `n` (R132): the mark is asked for, and a value that has reached S is counted as late. -/
def State.talAfter (s : State) (n : Nat) : State :=
  let s := s.talMark n
  if s.talWaits n then (s.bump (oTal n 8)).event 0xDF 0 n else s

/-- Advance tally `n` as a draw does (R129, R132): the value drawn, whether it is held, and the state after. -/
def State.talDraw (s : State) (n : Nat) : Nat × Bool × State :=
  let x := s.talOf n
  let v := s.nat (oTal n 0)
  if x.held then (v, true, s)
  else if s.talWaits n then (v, true, s)
  else
    let v' := v + s.nat (oTal n 4)
    if v' ≤ s.talLimit n then (v, false, (s.setn (oTal n 0) (v' : Nat)).talAfter n)
    else match s.nat (oTal n 5) with
      | 1 => (v, false, (s.setTal n { x with held := true }).event 0xDE 0 n)
      | 2 => (v, false, ((s.setn (oTal n 0) (s.num (oTal n 2))).event 0xDE 0 n).talAfter n)
      | _ => (v, false, (s.setn (oTal n 0) (s.num (oTal n 2))).talAfter n)

/-- A counted event of a source (R130): 1 GIN, 2 casement. -/
def State.talCount (s : State) (kind inst : Nat) : State :=
  (List.range 256).foldl (fun s n =>
    if s.nat (oTal n 6) = kind * 256 + inst then (s.talDraw n).2.2 else s) s

/-- A tally write sets the value and clears HELD (R131). -/
def State.talWrite (s : State) (n v : Nat) : State :=
  let s := s.setn (oTal n 0) (v : Nat)
  (s.setTal n { s.talOf n with held := false }).talAfter n

def execTallyLoRead (t : Time) (n : Fin 256) (s : State) : Step :=
  let s := s.tick t
  if s.modeN = 0 then .next (s.answer .none)
  else
    let v := s.nat (oTal n 0)
    .next ((s.setTal n { s.talOf n with latchHi := v / 2 ^ 32 }).answer (.data (leBytes 4 v)))

def execPersistMarkConfirmed (t : Time) (n : Fin 256) (s : State) : Step :=
  let s := s.tick t
  let x := s.talOf n
  match x.pend with
  | some m => .next ((s.setTal n { x with mark := m, pend := none }).talMark n)
  | none => .next s

end Sys2Proof.Machine
end

