-- ==== Sys2Proof/Machine/Completion.lean ====
section
/-! DEFINITION. Completions (R82, R311 to R313), reject channels (R76 to R80) and general outputs (R44). -/

namespace Sys2Proof.Machine

/-! ## Completion entries -/

/-- A 32-byte entry with the given bytes at its start. -/
def entry32 (b : Bytes) : Bytes := sliceB b 0 32

/-- One half of a VOID entry (R311): its source word and its value. -/
def voidOf (d : Draw) : Nat × Nat := ((if d.record then 32768 else 0) + d.src, d.value)

/-- VOID entries, one for each two voided draws. -/
def voidEntries (c : Nat) : List Draw → List Bytes
  | d :: e :: r =>
    entry32 (leBytes 1 4 ++ leBytes 1 c ++ leBytes 2 (voidOf d).1 ++ leBytes 2 (voidOf e).1 ++ leBytes 2 0
      ++ leBytes 8 (voidOf d).2 ++ leBytes 8 (voidOf e).2) :: voidEntries c r
  | [d] => [entry32 (leBytes 1 4 ++ leBytes 1 c ++ leBytes 2 (voidOf d).1 ++ leBytes 2 0xFFFF ++ leBytes 2 0
      ++ leBytes 8 (voidOf d).2)]
  | [] => []

/-- The statistics entry (R212, R311); all 0 for a refused mark. -/
def statsEntry (c : Nat) (m : Mark) (refused : Bool) : Bytes :=
  let n (x : Nat) := leBytes 2 (min x 65535)
  if refused then entry32 (leBytes 1 2 ++ leBytes 1 c)
  else leBytes 1 2 ++ leBytes 1 c ++ n m.fired ++ n m.late ++ n m.skipped ++ n m.blank ++ n m.cut
    ++ leBytes 2 m.minC ++ leBytes 2 m.minHb ++ leBytes 8 m.energy ++ n m.minV ++ leBytes 2 (wrapU 16 m.maxT).toNat
    ++ leBytes 4 0

/-- The positions entry (R311). -/
def posEntry (c : Nat) (m : Mark) : Bytes :=
  leBytes 1 3 ++ leBytes 1 c ++ leBytes 2 0 ++ leBytes 4 m.count ++ leBytes 8 (wrapU 64 m.a).toNat
    ++ leBytes 8 (wrapU 64 m.s0).toNat ++ leBytes 8 (wrapU 64 m.dev).toNat

/-- The product tag of a mark: its paired entry's, otherwise its own (R52, R54). -/
def Mark.tagOf (m : Mark) : Nat := (m.req.map ReqEntry.tag).getD m.tag

/-- The completion of a mark (R311): primary entry and follow-on entries, with the detail level of its queue. -/
def completion (c : Nat) (m : Mark) (level : Nat) (loss : Bool) (td tfin : Nat) : List Bytes :=
  let refused := bit m.flags 15
  let follow := (if 1 ≤ level then [statsEntry c m refused] else []) ++ (if 2 ≤ level then [posEntry c m] else [])
    ++ voidEntries c (m.voided.take 64)
  (leBytes 1 1 ++ leBytes 1 c ++ leBytes 1 follow.length ++ leBytes 1 (b2n loss) ++ leBytes 4 m.flags ++ leBytes 4 m.tagOf
    ++ leBytes 4 ((m.req.map ReqEntry.cookie).getD m.cookie) ++ leBytes 8 td ++ leBytes 8 tfin) :: follow

/-- Entries waiting in the completion writer's buffer. -/
def State.occupancy (s : State) : Nat := (s.host.buffer.map (fun x => x.entries.length)).foldl (· + ·) 0

/-- Completions are ordered by TFIN, then by casement (R312). -/
def enterCompl (x : Compl) : List Compl → List Compl
  | [] => [x]
  | y :: r => if y.tfin < x.tfin ∨ (y.tfin = x.tfin ∧ y.cas ≤ x.cas) then y :: enterCompl x r else x :: y :: r

/-- A casement forms the completion of a mark (R311, R313). -/
def State.complete (s : State) (c : Nat) (m : Mark) (td tfin : Nat) : State :=
  let s := s.bump (oCas c 0x11 2)
  let q := s.nat (oCas c 0x11 1)
  if q = 0 then s.bump (ky 0x2501 4)
  else
    let d := s.qOf q
    let es := completion c m d.param d.lossOwed td tfin
    let n := s.occupancy
    if 4096 < n + es.length then
      (((s.setQ q { d with lossOwed := true }).bump (oCas c 0x11 3)).bump (ky 0x2501 3)).event 0xE2 0 c (leBytes 2 q)
    else
      let s := s.setQ q { d with lossOwed := false }
      let s := { s with host := { s.host with buffer := enterCompl ⟨q, c, tfin, es⟩ s.host.buffer } }
      let s := s.setn (ky 0x2501 1) (n + es.length : Nat)
      if s.nat (ky 0x2501 2) < n + es.length then s.setn (ky 0x2501 2) (n + es.length : Nat) else s

/-! ## Reject channels -/

/-- Tag the product of an anchor at `a` on casement `c`'s channel (R76 to R79): the flags REJECT_TAGGED, NO_REJECT_CHANNEL,
REJECT_LATE that its entry takes. `atMargin` is a tag made at the report margin itself (R75). -/
def State.rejectTag (s : State) (c : Nat) (key : TagKey) (a : Int) (atMargin : Bool := false) : Nat × State :=
  let n := s.nat (oCas c 0 0x0B)
  if n = 0xFF then (2 ^ 14 + 2 ^ 13, s)
  else
    let x := s.rejOf n
    let rp := wrapS 64 (a + s.num (oRej n 3))
    let p := s.laxPos (s.nat (oRej n 2)) s.now
    if x.tags.any (fun g => g.key = key) then (2 ^ 14, s)
    else if !atMargin ∧ 0 ≤ sdiff p (wrapS 64 (rp - s.num (oRej n 6))) then
      (2 ^ 14 + 2 ^ 12, (s.bump (oRej n 9)).event c 3 c)
    else if 256 ≤ x.tags.length then
      let s := s.setRej n { x with active := true, extra := x.extra ++ [rp] }
      (2 ^ 14, (((s.setn (oRej n 0x0B) 1).bump (oRej n 0x0A))).event c 4 c)
    else
      let s := s.setRej n { x with tags := x.tags ++ [⟨key, rp⟩] }
      (2 ^ 14, s.setn (oRej n 7) (x.tags.length + 1 : Nat))

/-- Is a channel's pulse at its end at position `p`, time `t`? -/
def Rej.ended (x : Rej) (t : Time) (p : Int) : Bool :=
  decide (x.untilT ≤ t) && (match x.untilP with
    | some e => decide (0 ≤ sdiff p e)
    | none => true)

/-- The later of two pulse ends in position (R77). -/
def laterPos (a : Option Int) (b : Int) : Int :=
  match a with
  | some e => if 0 ≤ sdiff e b then e else b
  | none => b

/-- Normal pulsing returns when fewer than 256 tags are held and the overflowed products have passed (R79). -/
def State.rejSettle (s : State) (r : Nat) (p : Int) : State :=
  let x := s.rejOf r
  let x := { x with extra := x.extra.filter (fun e => !(decide (0 ≤ sdiff p e))) }
  let s := s.setRej r x
  if s.nat (oRej r 0x0B) = 1 ∧ x.extra = [] ∧ x.tags.length < 256 then
    (s.setRej r { x with active := !x.ended s.now p }).setn (oRej r 0x0B) 0
  else s

/-- The line axis has reached the reject position of held tags: each drives a pulse (R77, R80). -/
def execRejectPosition (t : Time) (r : Fin 8) (s : State) : Step :=
  let s := s.tick t
  let x := s.rejOf r
  let p := s.laxPos (s.nat (oRej r 2)) t
  let (hit, rest) := x.tags.partition (fun g => decide (0 ≤ sdiff p g.pos))
  let len := s.nat (oRej r 5)
  let x :=
    if hit = [] then x
    else if s.nat (oRej r 4) = 0 then { x with tags := rest, active := true, untilT := max x.untilT (t + usT len) }
    else { x with tags := rest, active := true,
                  untilP := some (hit.foldl (fun e g => laterPos (some e) (wrapS 64 (g.pos + len))) (laterPos x.untilP p)) }
  let s := (s.setRej r x).bumpBy (oRej r 8) hit.length
  let s := s.setn (oRej r 7) (rest.length : Nat)
  .next (s.rejSettle r p)

/-- A reject pulse ends, unless an overrun keeps the output active (R77, R79). -/
def execRejectPulseEnd (t : Time) (r : Fin 8) (s : State) : Step :=
  let s := s.tick t
  let p := s.laxPos (s.nat (oRej r 2)) t
  let s := s.rejSettle r p
  let x := s.rejOf r
  if s.nat (oRej r 0x0B) = 1 ∨ !x.ended t p then .next s
  else .next (s.setRej r { x with active := false, untilP := none })

/-- The level a general output drives at its ball, none for high impedance (R44, R51): its source is the software level or a
reject channel that names it; open-drain drives low only. -/
def State.goutLevel (s : State) (n : Nat) : Option Bool :=
  let on := if s.nat (oGout n 1) = 1 then
      (List.range 8).any (fun r => s.nat (oRej r 1) = n && (s.rejOf r).active)
    else s.nat (oGout n 2) = 1
  let pin := on != (s.nat (oGout n 3) == 1 : Bool)
  match s.nat (oGout n 4) with
  | 1 => some pin
  | 2 => if pin then none else some false
  | _ => none

end Sys2Proof.Machine
end

