-- ==== Sys2Proof/Machine/Template.lean ====
section
/-! DEFINITION. Template and glyph-set images: reading and validating them (R85 to R91, R100, R101, R107, R138, R139, R467, R468). -/

namespace Sys2Proof.Machine

/-! ## Format strings (R91) -/

/-- A piece of a format string: a byte, a field token (0 %F, 1 %B, 2 %X), a text variable, FNC1, a date or time token. -/
inductive Tok where
  | lit (b : Nat)
  | field (m n : Nat)
  | tvar (n : Nat)
  | fnc1
  | date (c : Nat)
  deriving DecidableEq, Repr

/-- A decimal digit. -/
def isDigit (b : Byte) : Bool := decide (0x30 ≤ b.toNat ∧ b.toNat ≤ 0x39)

/-- The number that decimal digits spell. -/
def digits (bs : Bytes) : Nat := bs.foldl (fun n b => 10 * n + (b.toNat - 0x30)) 0

/-- The date and time tokens: Y y m d j J G g V u b a H M S s. -/
def isDateTok (c : Nat) : Bool :=
  [0x59, 0x79, 0x6D, 0x64, 0x6A, 0x4A, 0x47, 0x67, 0x56, 0x75, 0x62, 0x61, 0x48, 0x4D, 0x53, 0x73].contains c

/-- A symbol kind (R90). -/
def isSymbol (kind : Nat) : Bool := decide (8 ≤ kind ∧ kind ≤ 12)

/-- Split a format string of a field of kind `kind` into tokens; none where it holds a token that R91 does not let it hold. -/
def scanFmt (kind : Nat) : Nat → Bytes → Option (List Tok)
  | _, [] => some []
  | 0, _ => none
  | f + 1, b :: bs =>
    if b.toNat ≠ 0x25 then (scanFmt kind f bs).map (Tok.lit b.toNat :: ·)
    else match bs with
      | [] => none
      | c :: r =>
        let k := c.toNat
        let two := decide (2 ≤ r.length) && (r.take 2).all isDigit
        let three := decide (3 ≤ r.length) && (r.take 3).all isDigit
        if k = 0x25 then (scanFmt kind f r).map (Tok.lit 0x25 :: ·)
        else if k = 0x46 ∨ k = 0x42 ∨ k = 0x58 then
          if two ∧ digits (r.take 2) ≤ 63 then
            (scanFmt kind f (r.drop 2)).map
              (Tok.field (if k = 0x46 then 0 else if k = 0x42 then 1 else 2) (digits (r.take 2)) :: ·)
          else none
        else if k = 0x56 ∧ three then
          if digits (r.take 3) ≤ 255 then (scanFmt kind f (r.drop 3)).map (Tok.tvar (digits (r.take 3)) :: ·) else none
        else if k = 0x31 then
          if 8 ≤ kind ∧ kind ≤ 10 then (scanFmt kind f r).map (Tok.fnc1 :: ·) else none
        else if isDateTok k ∧ (kind = 2 ∨ kind = 3) then (scanFmt kind f r).map (Tok.date k :: ·)
        else none

/-- Does a field have a format string? -/
def hasFmt (kind : Nat) : Bool := kind == 1 || kind == 2 || kind == 3 || isSymbol kind

/-- The tokens of a field. -/
def Field.toks (f : Field) : List Tok := (scanFmt f.kind f.fmt.length f.fmt).getD []

/-- The message fields that a SEAL names, in order (R90, R138). -/
def Field.message (f : Field) : List Nat :=
  (leBytes 4 f.a ++ leBytes 4 f.b).map (·.toNat) |>.takeWhile (· != 0xFF)

/-! ## Field checks (R86 codes 6 to 8) -/

/-- Sizes of Data Matrix (R104). -/
def dmSize (r c : Nat) : Bool :=
  (r == c && [10, 12, 14, 16, 18, 20, 22, 24, 26, 32, 36, 40, 44, 48, 52, 64, 72, 80, 88, 96, 104, 120, 132, 144].contains r)
    || [(8, 18), (8, 32), (12, 26), (12, 36), (16, 36), (16, 48)].contains (r, c)

/-- Is a descriptor's kind and its parameters within range (code 6 FIELD)? Bits of PARAM_A and PARAM_B that R90's kinds table reserves or
gives no meaning are not checked: R86 names reserved bytes, and no rule names these bits (log 286). `reserved` are its reserved bytes, `dataLen` the data
area's length, `active` whether a key slot is ACTIVE. -/
def fieldOk (f : Field) (off len : Nat) (reserved : Bytes) (dataLen : Nat) (active : Nat → Bool) : Bool :=
  let a := f.a
  let b := f.b
  let inData := decide (off + len ≤ dataLen)
  if f.kind = 0 then true
  else if 12 < f.kind ∨ reserved.any (· != 0) then false
  else if f.kind = 7 then decide (f.source ≤ 7) && active f.source
  else
    let place := decide (1 ≤ f.tone ∧ f.tone ≤ 3 ∧ f.x ≤ 524287 ∧ f.y ≤ 65534 ∧ 1 ≤ f.sx ∧ f.sx ≤ 16 ∧ 1 ≤ f.sy ∧ f.sy ≤ 16)
    let fmtOk := !hasFmt f.kind || (inData && decide (len ≤ 255))
    place && fmtOk && (f.kind == 6 || isSymbol f.kind || decide (f.set ≤ 63)) &&
      (match f.kind with
        | 1 => true
        | 2 => decide (a % 65536 ≤ 1439)
        | 3 => decide (-65535 ≤ wrapS 32 a ∧ wrapS 32 a ≤ 65535 ∧ bits b 1 0 ≤ 2 ∧ bits b 3 2 ≤ 2 ∧ bits b 31 16 ≤ 1439)
        | 4 => decide (f.source ≤ 255 ∧ 1 ≤ a % 256 ∧ a % 256 ≤ 20) && [10, 16, 36].contains (bits a 15 8)
        | 5 => decide (16 ≤ f.source ∧ f.source ≤ 16383)
        | 6 =>
          let w := a % 65536
          let h := bits a 31 16
          decide (1 ≤ w ∧ w ≤ 4096 ∧ 1 ≤ h ∧ h ≤ 4096 ∧ h * cdiv w 8 ≤ len) && inData
        | _ =>
          let mw := bits a 23 16
          let mh := bits a 31 24
          let nw := a % 256
          decide (f.sx = 1 ∧ f.sy = 1) &&
          (match f.kind with
            | 8 => ((a % 256 == 0 && bits a 15 8 == 0) || dmSize (a % 256) (bits a 15 8)) &&
                decide (1 ≤ mw ∧ mw ≤ 64 ∧ 1 ≤ mh ∧ mh ≤ 64 ∧ 1 ≤ bits b 7 4 ∧ bits b 10 8 < mw)
            | 9 => decide (a % 256 ≤ 25 ∧ bits a 13 10 ≤ 8 ∧ 1 ≤ mw ∧ mw ≤ 64 ∧ 1 ≤ mh ∧ mh ≤ 64 ∧ 4 ≤ bits b 7 4 ∧ bits b 10 8 < mw)
            | 10 => decide (1 ≤ nw ∧ nw ≤ 32 ∧ 1 ≤ bits a 23 8 ∧ 10 ≤ bits b 7 4 ∧ bits b 10 8 < nw)
            | 11 => decide (1 ≤ nw ∧ nw ≤ 32 ∧ 1 ≤ bits a 23 8 ∧ bits b 10 8 < nw)
            | _ => decide (1 ≤ nw ∧ nw ≤ 32 ∧ 1 ≤ bits a 23 8 ∧ bits b 1 0 ≤ 2 ∧ bits b 5 4 ≤ 2 ∧ 1 ≤ bits b 15 8 ∧ bits b 18 16 < nw)))

/-- Does every name that field `i` makes stand under R91 and R138 (code 8 REFERENCE)? A SEAL's message field that is not of lower index, or not
of a kind that R138 allows, gives code 8 too: the spec names no code for it (log 286). -/
def refsOk (fs : List Field) (i : Nat) (f : Field) : Bool :=
  if f.kind = 7 then
    f.message.all (fun n => decide (n < i) && (match fs[n]? with
      | some g => decide (1 ≤ g.kind ∧ g.kind ≤ 5)
      | none => false))
  else if hasFmt f.kind then
    f.toks.all (fun t => match t with
      | .field m n => decide (n < i) && (match fs[n]? with
        | some g => g.kind != 0 && g.kind != 6 && !(m == 0 && g.kind == 7 && !isSymbol f.kind)
        | none => false)
      | _ => true)
  else true

/-! ## Scratch reservations (R467) -/

/-- Bytes of the largest bitmap of a glyph set. -/
def GlyphSet.largest (g : GlyphSet) : Nat :=
  g.glyphs.foldl (fun m x => if x.bitmap.isSome then max m (x.h * cdiv x.w 8) else m) 0

/-- Scratch bytes a field reserves; a module takes one bit, rows padded to a byte. -/
def scratch (sets : List GlyphSet) (f : Field) : Nat :=
  if 1 ≤ f.kind ∧ f.kind ≤ 5 then
    255 * (((sets.find? (fun g => g.number = f.set)).map GlyphSet.largest).getD 0)
  else match f.kind with
    | 6 => bits f.a 31 16 * cdiv (f.a % 65536) 8
    | 8 => if f.a % 256 = 0 then 144 * 18 else f.a % 256 * cdiv (bits f.a 15 8) 8
    | 9 =>
      let n := 17 + 4 * (if f.a % 256 = 0 then 25 else f.a % 256)
      n * cdiv n 8
    | 10 => cdiv (80 * 11 + 2) 8
    | 11 => cdiv 95 8
    | 12 => cdiv 135 8
    | _ => 0

/-! ## Images -/

/-- An image with four bytes at `at_` taken as 0. -/
def zero4 (img : Bytes) (at_ : Nat) : Bytes := img.take at_ ++ [0, 0, 0, 0] ++ img.drop (at_ + 4)

/-- Descriptor `i` of a template image. -/
def readField (img : Bytes) (fieldOff dataOff dataLen i : Nat) : Field × Nat × Nat × Bytes :=
  let o := fieldOff + 32 * i
  let g (k n : Nat) := fieldLE img (o + k) n
  let off := g 0x0E 2
  let len := g 0x10 2
  let fmt := (((img.drop dataOff).take dataLen).drop off).take len
  (⟨g 0 1, g 1 1, g 2 1, g 3 1, g 4 4, g 8 2, g 0x0A 1, g 0x0B 1, g 0x0C 2, fmt, g 0x14 4, g 0x18 4⟩, off, len,
    sliceB img (o + 0x12) 2 ++ sliceB img (o + 0x1C) 4)

/-- Validate a template image (R86): the result code, and the template where it is 0 or 11. `sets` are the glyph sets loaded. -/
def readTemplate (img : Bytes) (number length : Nat) (sets : List GlyphSet) (active : Nat → Bool) : Nat × Option Template :=
  let g (k n : Nat) := fieldLE img k n
  let n := g 0x0E 1
  let width := g 0x10 4
  let fo := g 0x14 4
  let dof := g 0x18 4
  let dl := g 0x1C 4
  let no := g 0x20 4
  let cached := 64 + 32 * n + dl
  if g 0 4 ≠ 0x4D54444B ∨ g 4 2 ≠ 1 ∨ g 6 2 ≠ number ∨ g 8 4 ≠ length ∨ g 0x0F 1 ≠ 0 ∨ (sliceB img 0x24 24).any (· != 0) then
    (3, none)
  else if crc32 (zero4 img 0x3C) ≠ g 0x3C 4 then (4, none)
  else if length % 8 ≠ 0 ∨ g 0x0C 2 = 0 ∨ 64 < n ∨ width = 0 ∨ 524288 < width ∨ fo % 8 ≠ 0 ∨ length < fo + 32 * n
      ∨ 30656 < dl ∨ length < dof + dl ∨ (no ≠ 0xFFFFFFFF ∧ dl < no + 152) ∨ 32768 < cached then (5, none)
  else
    let raw := (List.range n).map (readField img fo dof dl)
    let fs := raw.map (fun r => r.1)
    let names := if no = 0xFFFFFFFF then []
      else (List.range 19).map (fun i => (sliceB img (dof + no + 8 * i) 8).takeWhile (· != 0))
    if !(raw.all (fun (f, off, len, res) => fieldOk f off len res dl active)) ∨ 4 < (fs.filter (fun f => f.kind = 7)).length then
      (6, none)
    else if !(fs.all (fun f => !hasFmt f.kind || (scanFmt f.kind f.fmt.length f.fmt).isSome)) then (7, none)
    else if !((fs.zipIdx).all (fun (f, i) => refsOk fs i f)) then (8, none)
    else if !(fs.all (fun f => !(decide (1 ≤ f.kind ∧ f.kind ≤ 5)) || sets.any (fun x => x.number = f.set))) then (9, none)
    else if 262144 < (fs.map (scratch sets)).sum then (10, none)
    else (0, some ⟨number, length, cached, g 0x0C 2, width, g 0x3C 4, fs, names⟩)

/-- Map ranges are sorted, do not overlap, and stay within code point 0xFFFF and the glyphs (code 5 SIZE). -/
def rangesOk (glyphs : Nat) : List (Nat × Nat × Nat) → Bool
  | [] => true
  | (c, k, g) :: r =>
    decide (1 ≤ k ∧ c + k ≤ 65536 ∧ g + k ≤ glyphs) &&
      (match r with
        | (c', _, _) :: _ => decide (c + k ≤ c')
        | [] => true) && rangesOk glyphs r

/-- Validate a glyph-set image (R86, R100, R101): the result code, and the set where it is 0. -/
def readGlyphSet (img : Bytes) (number length version : Nat) : Nat × Option GlyphSet :=
  let g (k n : Nat) := fieldLE img k n
  let n := g 0x0C 4
  let mo := g 0x18 4
  let mc := g 0x1C 4
  let to_ := g 0x20 4
  let bo := g 0x24 4
  let bl := g 0x28 4
  if g 0 4 ≠ 0x5347444B ∨ g 4 2 ≠ 1 ∨ g 6 1 ≠ number ∨ g 7 1 ≠ 0 ∨ g 8 4 ≠ length ∨ (sliceB img 0x2C 16).any (· != 0) then (3, none)
  else if crc32 (zero4 img 0x3C) ≠ g 0x3C 4 then (4, none)
  else if length % 8 ≠ 0 ∨ n = 0 ∨ 65536 < n ∨ g 0x10 2 = 0 ∨ 255 < g 0x10 2 ∨ 255 < g 0x12 2 ∨ g 0x14 2 = 0 ∨ 255 < g 0x14 2
      ∨ mc = 0 ∨ 65536 < mc ∨ length < mo + 8 * mc ∨ length < to_ + 12 * n ∨ length < bo + bl then (5, none)
  else
    let ranges := (List.range mc).map (fun i => (g (mo + 8 * i) 2, g (mo + 8 * i + 2) 2, g (mo + 8 * i + 4) 4))
    let bm := (img.drop bo).take bl
    let glyphs := (List.range n).map (fun i =>
      let o := to_ + 12 * i
      let off := g o 4
      let w := g (o + 4) 1
      let h := g (o + 5) 1
      let x : Glyph := ⟨off, w, h, wrapS 8 (g (o + 6) 1), wrapS 8 (g (o + 7) 1), g (o + 8) 2,
        if off = 0xFFFFFFFF then none else some ((bm.drop off).take (h * cdiv w 8))⟩
      (x, g (o + 10) 2))
    if !rangesOk n ranges ∨ glyphs.any (fun (x, res) => res != 0 || (x.bitmap.isSome && decide (bl < x.off + x.h * cdiv x.w 8))) then
      (5, none)
    else (0, some ⟨number, version, length, g 0x10 2, g 0x12 2, g 0x14 2, g 0x16 2, mo, to_, bo, bl, ranges, glyphs.map Prod.fst⟩)

end Sys2Proof.Machine
end

