-- ==== Sys2Proof/Machine/Compose.lean ====
section
/-! DEFINITION. Evaluating the fields of a mark and composing its lines (R90 to R106, R112, R138). -/

namespace Sys2Proof.Machine

/-! ## Text forms -/

/-- A number in decimal, at least `w` digits, filled with 0. -/
def decW (w n : Nat) : List Nat :=
  let d := (Nat.toDigits 10 n).map (fun c => c.toNat)
  List.replicate (w - d.length) 0x30 ++ d

/-- The digit of value `d` in radix 16 or 36. -/
def digitChar (d : Nat) : Nat := if d < 10 then 0x30 + d else 0x37 + d

/-- A number in a radix, most significant digit first, with `fuel` digits at most. -/
def radixDigits (r : Nat) : Nat → Nat → List Nat
  | 0, _ => []
  | f + 1, n => if n < r then [digitChar n] else radixDigits r f (n / r) ++ [digitChar (n % r)]

/-- Upper-case hexadecimal (R91). -/
def hexOf (b : List Nat) : List Nat := b.flatMap (fun x => [digitChar (x / 16 % 16), digitChar (x % 16)])

/-- A character of base64url. -/
def b64Char (i : Nat) : Nat :=
  if i < 26 then 0x41 + i else if i < 52 then 0x61 + (i - 26) else if i < 62 then 0x30 + (i - 52) else if i = 62 then 0x2D else 0x5F

/-- Base64url without padding, RFC 4648 (R91). -/
def b64 : List Nat → List Nat
  | x :: y :: z :: r =>
    b64Char (x / 4) :: b64Char (x % 4 * 16 + y / 16) :: b64Char (y % 16 * 4 + z / 64) :: b64Char (z % 64) :: b64 r
  | [x, y] => [b64Char (x / 4), b64Char (x % 4 * 16 + y / 16), b64Char (y % 16 * 4)]
  | [x] => [b64Char (x / 4), b64Char (x % 4 * 16)]
  | [] => []

/-! ## Dates (R93 to R95) -/

/-- ISO weeks of a year: 53 if 1 January is a Thursday, or in a leap year a Wednesday. -/
def isoWeeks (y : Int) : Nat :=
  let w := weekday (daysOf y 1 1)
  if w = 4 ∨ (leapYear y ∧ w = 3) then 53 else 52

/-- ISO week-based year and week of a day (R94). -/
def isoWeek (days : Int) : Int × Nat :=
  let y := (dateOf days).1
  let w : Int := ((yearDay days : Int) - weekday days + 10) / 7
  if w < 1 then (y - 1, isoWeeks (y - 1))
  else if (isoWeeks y : Int) < w then (y + 1, 1)
  else (y, w.toNat)

/-- The last day of the month of a date. -/
def monthEnd (days : Int) : Int :=
  let (y, m, _) := dateOf days
  daysOf y m (daysIn y m)

/-- A base date shifted by an OFFSET_DATE field (R95). -/
def shiftDate (base : Int) (a b : Nat) : Int :=
  let k := wrapS 32 a
  let rule := bits b 3 2
  let r :=
    if bits b 1 0 = 0 then base + k
    else
      let k := if bits b 1 0 = 2 then 12 * k else k
      let (y, m, d) := dateOf base
      let t := ((m : Int) - 1) + k
      let y1 := y + t / 12
      let m1 := (t % 12).toNat + 1
      let dim := daysIn y1 m1
      if rule = 2 ∧ d = daysIn y m then daysOf y1 m1 dim
      else if d ≤ dim then daysOf y1 m1 d
      else if rule = 1 then daysOf y1 m1 dim + ((d - dim : Nat) : Int)
      else daysOf y1 m1 dim
  if bit b 4 then monthEnd r else r

/-- The bytes of an object's string among the settings. -/
def strOf (L : Nat → Val) (k : Nat) : List Nat := (L k).bytes.map (·.toNat)

/-- A date or time token (R91, R93): `days` is the base date, `c` the calendar at the anchor. -/
def dateTok (L : Nat → Val) (names : List Bytes) (c : Cal) (days : Int) (tok : Nat) : List Nat :=
  let (y, m, d) := dateOf days
  let yn := y.toNat
  let name (i : Nat) := ((names[i]?).getD []).map (fun b => b.toNat)
  match tok with
  | 0x59 => decW 4 yn
  | 0x79 => decW 2 (yn % 100)
  | 0x6D => decW 2 m
  | 0x64 => decW 2 d
  | 0x6A => decW 3 (yearDay days)
  | 0x4A => decW 1 (yn % 10) ++ decW 3 (yearDay days)
  | 0x47 => decW 4 (isoWeek days).1.toNat
  | 0x67 => decW 2 ((isoWeek days).1.toNat % 100)
  | 0x56 => decW 2 (isoWeek days).2
  | 0x75 => decW 1 (weekday days)
  | 0x62 => name (m - 1)
  | 0x61 => name (12 + weekday days - 1)
  | 0x48 => decW 2 c.hour
  | 0x4D => decW 2 c.minute
  | 0x53 => decW 2 c.second
  | _ => if c.shift = 16 then strOf L (ky 0x2307 1) else strOf L (ky (0x2310 + c.shift) 4)

/-! ## GS1 (R105) -/

/-- GS1 character set 82. -/
def set82 (c : Nat) : Bool :=
  c == 0x21 || c == 0x22 || decide (0x25 ≤ c ∧ c ≤ 0x3F) || decide (0x41 ≤ c ∧ c ≤ 0x5A) || c == 0x5F
    || decide (0x61 ≤ c ∧ c ≤ 0x7A)

/-- The file-safe base64 set 64. -/
def set64 (c : Nat) : Bool :=
  decide (0x30 ≤ c ∧ c ≤ 0x39) || decide (0x41 ≤ c ∧ c ≤ 0x5A) || decide (0x61 ≤ c ∧ c ≤ 0x7A) || c == 0x2D || c == 0x5F || c == 0x3D

/-- A digit character. -/
def isDig (c : Nat) : Bool := decide (0x30 ≤ c ∧ c ≤ 0x39)

/-- The number that digit characters spell. -/
def digVal (l : List Nat) : Nat := l.foldl (fun n c => 10 * n + (c - 0x30)) 0

/-- The weighted sum of a check digit: weights 3 and 1 from the right. -/
def checkSum : List Nat → Nat
  | x :: y :: r => 3 * (x - 0x30) + (y - 0x30) + checkSum r
  | [x] => 3 * (x - 0x30)
  | [] => 0

/-- The check digit character of a digit string. -/
def checkDigit (l : List Nat) : Nat := 0x30 + (10 - checkSum l.reverse % 10) % 10

/-- Is the last digit the check digit of those before it? -/
def checkOk (l : List Nat) : Bool := l.getLast? == some (checkDigit l.dropLast)

/-- The fixed length of an application identifier's data, or its largest length: (fixed, length, kind of characters: 0 digits, 82, 64),
with the digits of the identifier. -/
def aiOf (d : List Nat) : Option (Nat × Bool × Nat × Nat) :=
  let n2 := digVal (d.take 2)
  let n3 := digVal (d.take 3)
  let n4 := digVal (d.take 4)
  let has (n : Nat) := decide (n ≤ d.length) && (d.take n).all isDig
  if !has 2 then none
  else if n2 = 0 then some (2, true, 18, 0)
  else if n2 = 1 ∨ n2 = 2 then some (2, true, 14, 0)
  else if n2 = 10 ∨ n2 = 21 then some (2, false, 20, 82)
  else if n2 = 11 ∨ n2 = 13 ∨ n2 = 15 ∨ n2 = 16 ∨ n2 = 17 then some (2, true, 6, 0)
  else if n2 = 30 ∨ n2 = 37 then some (2, false, 8, 0)
  else if 91 ≤ n2 ∧ n2 ≤ 99 then some (2, false, 90, 82)
  else if has 3 ∧ (n3 = 240 ∨ n3 = 241) then some (3, false, 30, 82)
  else if has 3 ∧ n3 = 400 then some (3, false, 30, 82)
  else if has 3 ∧ n3 = 414 then some (3, true, 13, 0)
  else if has 4 ∧ 310 ≤ n3 ∧ n3 ≤ 316 ∧ n4 % 10 ≤ 5 then some (4, true, 6, 0)
  else if has 4 ∧ n4 = 7003 then some (4, true, 10, 0)
  else if has 4 ∧ n4 = 8030 then some (4, false, 90, 64)
  else none

/-- A date YYMMDD; DD = 00 where it is accepted. The spec names no century for YY: 29 February is judged in 20YY (log 288). -/
def gs1Date (d : List Nat) (zeroDay : Bool) : Bool :=
  let m := digVal ((d.drop 2).take 2)
  let dd := digVal ((d.drop 4).take 2)
  decide (1 ≤ m ∧ m ≤ 12) && ((zeroDay && dd == 0) || decide (1 ≤ dd ∧ dd ≤ daysIn (2000 + digVal (d.take 2) : Nat) m))

/-- Parse element strings after the leading FNC1: an error code, or the data with the FNC1 after fixed-length data removed and
whether an unknown identifier was passed. Empty data of a variable-length identifier is refused with code 5: "up to n" does not say
whether it may be empty (log 288). -/
def gs1 (pass : Bool) : Nat → List Nat → Except Nat (List Nat × Bool)
  | _, [] => .ok ([], false)
  | 0, _ => .error 5
  | f + 1, d =>
    let known := aiOf d
    if known = none ∧ (!pass ∨ d.length < 2 ∨ !((d.take 2).all isDig)) then .error 5
    else
      let (ai, fixed, len, cs) := known.getD (2, false, 2 ^ 16, 82)
      let body := d.drop ai
      let dat := if fixed then body.take len else body.takeWhile (· != 256)
      let rest := body.drop dat.length
      let okLen := if fixed then dat.length == len else decide (1 ≤ dat.length ∧ dat.length ≤ len)
      let okSet := dat.all (fun c => if cs = 0 then isDig c else if cs = 82 then set82 c else set64 c)
      let n := digVal (d.take ai)
      if !okLen ∨ !okSet then .error 5
      else if known.isSome ∧ ((ai = 2 ∧ n ≤ 2) ∨ (ai = 3 ∧ n = 414)) ∧ !checkOk dat then .error 6
      else if ai = 2 ∧ (n = 11 ∨ n = 13 ∨ n = 15 ∨ n = 16 ∨ n = 17) ∧ !gs1Date dat (decide (15 ≤ n)) then .error 5
      else
        let rest' := match rest with
          | 256 :: r => r
          | r => r
        match gs1 pass f rest' with
        | .error e => .error e
        | .ok (out, unk) =>
          let sep := if fixed ∨ rest' = [] then [] else [256]
          .ok (d.take ai ++ dat ++ sep ++ out, unk || known.isNone)

/-- The data that a symbol field hands to its encoder (R104 to R106), or its error; the flag says that event 0xF5 is due. -/
def symbolData (f : Field) (d : List Nat) : Except Nat (List Nat × Bool) :=
  let gs := f.kind ≠ 11 ∧ f.kind ≠ 12 ∧ bit f.b 0
  if gs then
    match d with
    | 256 :: r =>
      match gs1 (bit f.b 1) (r.length + 1) r with
      | .ok (o, u) =>
        if f.kind = 10 ∧ 48 < (o.filter (· != 256)).length then .error 3 else .ok (256 :: o, u)
      | .error e => .error e
    | _ => .error 5
  else match f.kind with
    | 10 => if d.any (fun c => decide (0x7F < c ∧ c ≠ 256)) then .error 7 else .ok (d, false)
    | 11 | 12 =>
      let short := if f.kind = 12 then 13 else if bit f.b 0 then 11 else 12
      if d.any (fun c => !isDig c) ∨ (d.length ≠ short ∧ d.length ≠ short + 1) then .error 7
      else if d.length = short then .ok (d ++ [checkDigit d], false)
      else if checkOk d then .ok (d, false) else .error 6
    | _ => .ok (d, false)

/-! ## Field values -/

/-- What evaluating a field gives: a value, an error code, or a wait for a seal or a record. -/
inductive FRes where
  | val (v : List Nat)
  | err (code : Nat)
  | wait
  deriving DecidableEq, Repr

/-- What evaluation reads besides the mark (R66, R91, R120): settings in force, the anchor's device time and the calendar there, whether the
time source is other than INVALID. -/
structure Ctx where
  look : Nat → Val
  dev : Int
  cal : Cal
  timed : Bool

/-- The local date of the instant that lies `roll` minutes before the anchor, with that instant's own daylight rule (R93). -/
def Ctx.baseDay (x : Ctx) (roll : Nat) : Int := (calendar x.look (x.dev - (roll : Int) * 60000000000)).days

/-- A field's value for another field's token: FNC1 of a symbol's data stands as 0x1D. -/
def plainVal (v : List Nat) : List Nat := v.map (fun c => if c = 256 then 0x1D else c)

/-- Expand tokens (R91): none while a named field has no value yet. -/
def expand (x : Ctx) (names : List Bytes) (vals : List (Nat × List Nat)) (days : Int) : List Tok → Option (List Nat)
  | [] => some []
  | t :: r =>
    let here : Option (List Nat) := match t with
      | .lit b => some [b]
      | .fnc1 => some [256]
      | .tvar n => some (strOf x.look (ky (0x5100 + n) 1))
      | .date c => some (dateTok x.look names x.cal days c)
      | .field m n =>
        match vals.find? (fun p => p.1 = n) with
        | some (_, v) =>
          let v := plainVal v
          some (if m = 0 then v else if m = 1 then b64 v else hexOf v)
        | none => none
    match here, expand x names vals days r with
    | some a, some b => some (a ++ b)
    | _, _ => none

/-- The value of field `i` of a mark (R90 to R97, R138). -/
def evalField (x : Ctx) (m : Mark) (t : Template) (i : Nat) (f : Field) : FRes :=
  let text (days : Int) (limit : Nat) : FRes :=
    match expand x t.names m.vals days f.toks with
    | none => .wait
    | some v => if limit < v.length then .err 2 else .val v
  let yearOk (days : Int) : Bool := decide (2000 ≤ (dateOf days).1 ∧ (dateOf days).1 ≤ 2199)
  match f.kind with
  | 1 =>
    match m.req.bind ReqEntry.ovr with
    | some (n, o) => if n = i ∧ bit f.flags 7 then .val (o.map (·.toNat)) else text 0 255
    | none => text 0 255
  | 2 =>
    let d := x.baseDay (f.a % 65536)
    if x.timed ∧ yearOk d then text d 255 else .err 1
  | 3 =>
    let d := shiftDate (x.baseDay (bits f.b 31 16)) f.a f.b
    if x.timed ∧ yearOk (x.baseDay (bits f.b 31 16)) ∧ yearOk d then text d 255 else .err 1
  | 4 =>
    match m.draws.find? (fun d => !d.record && d.src = f.source) with
    | some d =>
      let r := bits f.a 15 8
      let ds := radixDigits r 64 d.value
      let n := f.a % 256
      if n < ds.length then .err 2
      else .val (List.replicate (n - ds.length) (if bit f.a 16 then 0x30 else 0x20) ++ ds)
    | none => .wait
  | 5 =>
    match m.draws.find? (fun d => d.record && d.src = f.source) with
    | some d =>
      let b := d.data.drop (f.a % 65536)
      .val ((if bits f.a 31 16 = 0 then b else b.take (bits f.a 31 16)).map (·.toNat))
    | none => .wait
  | 6 => .val []
  | 7 =>
    match (m.seals.find? (fun q => q.field = i)).bind Seal.sig with
    | some sg => .val (sg.map (·.toNat))
    | none => .wait
  | 0 => .val []
  | _ =>
    match expand x t.names m.vals 0 f.toks with
    | none => .wait
    | some d =>
      if 3116 < d.length then .err 2
      else match symbolData f d with
        | .ok (v, _) => .val v
        | .error e => .err e

/-- The message of a SEAL field, once its message fields have values (R138). -/
def sealMessage (m : Mark) (f : Field) : Option (List Nat) :=
  f.message.foldl (fun acc n =>
    match acc, m.vals.find? (fun p => p.1 = n) with
    | some a, some (_, v) => some (a ++ v)
    | _, _ => none) (some [])

/-! ## Rasters (R99, R101 to R103) -/

/-- A field's local raster: its width and height, the set pixels, which a glyph may have left of and above its corner, and whether it is a
symbol. -/
structure Raster where
  w : Nat
  h : Nat
  px : List (Int × Int)
  sym : Bool
  deriving DecidableEq, Repr

/-- The set pixels of a bitmap of `w` by `h`, rows padded to a byte, most significant bit leftmost. -/
def bitmapPixels (b : Bytes) (w h : Nat) : List (Nat × Nat) :=
  (List.range h).flatMap (fun v =>
    let row := (b.drop (v * cdiv w 8)).take (cdiv w 8)
    (List.range w).filterMap (fun u =>
      if bit ((row[u / 8]?).getD 0).toNat (7 - u % 8) then some (u, v) else none))

/-- The glyph index of a code point. -/
def GlyphSet.glyphOf (g : GlyphSet) (c : Nat) : Option Nat :=
  (g.ranges.find? (fun (f, k, _) => decide (f ≤ c ∧ c < f + k))).map (fun (f, _, i) => i + (c - f))

/-- The code points of a text; a byte that starts no valid UTF-8 sequence gives none (R99). -/
def codePoints : Nat → List Nat → List (Option Nat)
  | _, [] => []
  | 0, _ => []
  | f + 1, b :: r =>
    let cont (c : Nat) := decide (0x80 ≤ c ∧ c ≤ 0xBF)
    if b < 0x80 then some b :: codePoints f r
    else match r with
      | c :: r1 =>
        if 0xC2 ≤ b ∧ b ≤ 0xDF ∧ cont c then some (b % 32 * 64 + c % 64) :: codePoints f r1
        else match r1 with
          | d :: r2 =>
            if 0xE0 ≤ b ∧ b ≤ 0xEF ∧ cont c ∧ cont d ∧ !(b == 0xE0 && Nat.blt c 0xA0) ∧ !(b == 0xED && Nat.ble 0xA0 c) then
              some (b % 16 * 4096 + c % 64 * 64 + d % 64) :: codePoints f r2
            else match r2 with
              | e :: r3 =>
                if 0xF0 ≤ b ∧ b ≤ 0xF4 ∧ cont c ∧ cont d ∧ cont e ∧ !(b == 0xF0 && Nat.blt c 0x90) ∧ !(b == 0xF4 && Nat.ble 0x90 c) then
                  some (b % 8 * 262144 + c % 64 * 4096 + d % 64 * 64 + e % 64) :: codePoints f r3
                else none :: codePoints f r
              | [] => none :: codePoints f r
          | [] => none :: codePoints f r
      | [] => [none]

/-- How a character renders (R99): a glyph, a blank of the default advance, or zero width; and whether it counts as missing. -/
def renderChar (g : GlyphSet) (c : Option Nat) : Option (Option Nat) × Bool :=
  match c with
  | some p =>
    if p < 0x20 then (none, true)
    else match if 0xFFFF < p then none else g.glyphOf p with
      | some i => (some (some i), false)
      | none => (some (if g.replace = 0xFFFF then none else g.glyphOf g.replace), true)
  | none => (some (if g.replace = 0xFFFF then none else g.glyphOf g.replace), true)

/-- The characters of a text value in its glyph set: glyph index or blank, and the missing-glyph count. -/
def textGlyphs (g : GlyphSet) (v : List Nat) : List (Option Nat) × Nat :=
  let cs := (codePoints v.length v).map (renderChar g)
  (cs.filterMap Prod.fst, (cs.filter Prod.snd).length)

/-- The raster of a text (R99, and the head of "Placing a field"): the pen starts at u = 0 on a baseline at v = ASCENT. The spec gives W alone;
H is ASCENT + DESCENT grown to the lowest pixel, as W grows to the rightmost (log 289). -/
def textRaster (g : GlyphSet) (v : List Nat) : Raster :=
  let (pen, px) := (textGlyphs g v).1.foldl (fun (acc : Nat × List (Int × Int)) c =>
    match c.bind (fun i => g.glyphs[i]?) with
    | some x =>
      let here := match x.bitmap with
        | some b => (bitmapPixels b x.w x.h).map (fun (u, v) => ((acc.1 : Int) + x.left + u, (g.ascent : Int) - x.top + v))
        | none => []
      (acc.1 + x.adv, acc.2 ++ here)
    | none => (acc.1 + g.advance, acc.2)) (0, [])
  ⟨(px.foldl (fun m p => max m (p.1 + 1)) (pen : Int)).toNat, (px.foldl (fun m p => max m (p.2 + 1)) ((g.ascent + g.descent : Nat) : Int)).toNat,
    px, false⟩

/-- The columns of runs of elements from `u` on: each dark run loses the reduction from its right edge (R103). -/
def barColumns (red : Nat) : Nat → List (Bool × Nat) → List Nat
  | _, [] => []
  | u, (dark, w) :: r => (if dark then (List.range (w - red)).map (u + ·) else []) ++ barColumns red (u + w) r

/-- The sizes of Data Matrix, the fewest modules first and a square before a rectangle of as many (R104; log 287). -/
def dmSizes : List (Nat × Nat) :=
  let sq : List (Nat × Nat) := [10, 12, 14, 16, 18, 20, 22, 24, 26, 32, 36, 40, 44, 48, 52, 64, 72, 80, 88, 96, 104, 120, 132, 144].map (fun n => (n, n))
  sortOn (fun p => p.1 * p.2) (sq ++ [(8, 18), (8, 32), (12, 26), (12, 36), (16, 36), (16, 48)])

/-- Rows and columns of the symbol of a DATAMATRIX or QR field for its data: the fixed size, or the smallest that holds the data; none where
it does not hold the data (R90, R104). -/
def symbolSize (f : Field) (d : List Nat) : Option (Nat × Nat) :=
  if f.kind = 8 then
    (if f.a % 256 = 0 then dmSizes else [(f.a % 256, bits f.a 15 8)]).find? (fun p => Config.symbolHolds 8 p.1 p.2 d)
  else
    ((if f.a % 256 = 0 then (List.range 25).map (· + 1) else [f.a % 256]).find? (fun v => Config.symbolHolds 9 v (bits f.a 9 8) d)).map
      (fun v => (17 + 4 * v, 17 + 4 * v))

/-- The raster of a symbol with its quiet zone, or error 3 (R103, R104). -/
def symbolRaster (f : Field) (d : List Nat) : Except Nat Raster :=
  if f.kind = 8 ∨ f.kind = 9 then
    match symbolSize f d with
    | none => .error 3
    | some (rows, cols) =>
      let mw := bits f.a 23 16
      let mh := bits f.a 31 24
      let q := bits f.b 7 4
      let red := bits f.b 10 8
      let px : List (Nat × Nat) := (List.range rows).flatMap (fun j => (List.range cols).flatMap (fun i =>
        if Config.darkModule f.kind f.a rows cols d j i then
          (List.range (mw - red)).flatMap (fun u => (List.range mh).map (fun v => ((q + i) * mw + u, (q + j) * mh + v)))
        else []))
      .ok ⟨(cols + 2 * q) * mw, (rows + 2 * q) * mh, px.map (fun (u, v) => ((u : Int), (v : Int))), true⟩
  else if f.kind = 10 ∧ 80 < Config.symbolChars d then .error 3
  else
      let runs := Config.bars f.kind f.a f.b d
      let nw := f.a % 256
      let bh := bits f.a 23 8
      let (ql, qr) : Nat × Nat :=
        if f.kind = 10 then (bits f.b 7 4, bits f.b 7 4)
        else if f.kind = 11 then
          (if bits f.b 7 4 ≠ 0 then (bits f.b 7 4, bits f.b 7 4) else if bit f.b 0 then (9, 9) else (11, 7))
        else (10, 10)
      let red := if f.kind = 12 then bits f.b 18 16 else bits f.b 10 8
      let width := (runs.map Prod.snd).sum
      let bearer := if f.kind = 12 then bits f.b 5 4 else 0
      let th := if bearer = 0 then 0 else bits f.b 15 8
      let side := if bearer = 2 then th else 0
      let w := side + ql * nw + width + qr * nw + side
      let h := bh + 2 * th
      let cols := barColumns red (side + ql * nw) runs
      let bars := cols.flatMap (fun u => (List.range bh).map (fun v => (u, th + v)))
      let frame := (List.range h).flatMap (fun v => (List.range w).filterMap (fun u =>
        if bearer ≠ 0 ∧ (v < th ∨ th + bh ≤ v ∨ u < side ∨ w - side ≤ u) then some (u, v) else none))
      .ok ⟨w, h, (bars ++ frame).map (fun (u, v) => ((u : Int), (v : Int))), true⟩

/-- The raster of a field from its value; none where it paints nothing of its own. -/
def fieldRaster (m : Mark) (f : Field) (v : List Nat) : Except Nat (Option Raster) :=
  match f.kind with
  | 0 | 7 => .ok none
  | 6 => .ok (some ⟨f.a % 65536, bits f.a 31 16, (bitmapPixels f.fmt (f.a % 65536) (bits f.a 31 16)).map (fun (u, v) => ((u : Int), (v : Int))), false⟩)
  | 1 | 2 | 3 | 4 | 5 =>
    match m.sets.find? (fun g => g.number = f.set) with
    | some g => .ok (some (textRaster g v))
    | none => .error 12
  | _ => (symbolRaster f v).map some

/-- Where pixel (u, v) of a scaled raster of W' by H' lands (R102). -/
def placePx (f : Field) (w' h' u v : Int) : Int × Int :=
  let u := if bit f.flags 2 then w' - 1 - u else u
  let v := if bit f.flags 3 then h' - 1 - v else v
  match bits f.flags 5 4 with
  | 0 => (f.x + u, f.y + v)
  | 1 => (f.x + (h' - 1 - v), f.y + u)
  | 2 => (f.x + (w' - 1 - u), f.y + (h' - 1 - v))
  | _ => (f.x + v, f.y + (w' - 1 - u))

/-- The pixels a field sets, scaled and placed. -/
def placed (f : Field) (r : Raster) : List (Int × Int) :=
  r.px.flatMap (fun (u, v) => (List.range f.sx).flatMap (fun i => (List.range f.sy).map (fun j =>
    placePx f (r.w * f.sx : Nat) (r.h * f.sy : Nat) (u * (f.sx : Int) + (i : Nat)) (v * (f.sy : Int) + (j : Nat)))))

/-- A field's bounding box: its right and bottom ends. -/
def boxEnd (f : Field) (r : Raster) : Nat × Nat :=
  if bit f.flags 4 then (f.x + r.h * f.sy, f.y + r.w * f.sx) else (f.x + r.w * f.sx, f.y + r.h * f.sy)

/-- A visible field ready to paint: its descriptor, raster and placed pixels. -/
structure Paint where
  f : Field
  endX : Nat
  endY : Nat
  box : Bool
  px : List (Int × Int)

/-- What field `f` of a mark paints with value `v`: nothing where it is hidden or paints nothing; an error where its glyph set is gone (12),
its data does not fit (3), or its symbol is clipped (4, R103). -/
def paintOf (m : Mark) (t : Template) (f : Field) (v : List Nat) : Except Nat (Option Paint) :=
  match fieldRaster m f v with
  | .error e => .error e
  | .ok none => .ok none
  | .ok (some r) =>
    if bit f.flags 1 then .ok none
    else
      let (ex, ey) := boxEnd f r
      if r.sym ∧ (t.width < ex ∨ t.lines < ey) then .error 4
      else .ok (some ⟨f, ex, ey, r.sym || bit f.flags 6, placed f r⟩)

/-- What the fields of a prepared mark paint, in ascending index. -/
def paints (m : Mark) (t : Template) : List Paint :=
  t.fields.zipIdx.filterMap (fun (f, i) =>
    match paintOf m t f (((m.vals.find? (fun p => p.1 = i)).map Prod.snd).getD []) with
    | .ok o => o
    | .error _ => none)

/-- The tone of element x of line y (R103): fields paint over tone 0 in ascending index. -/
def toneAt (ps : List Paint) (x y : Nat) : Nat :=
  ps.foldl (fun tone p =>
    if p.px.contains ((x : Int), (y : Int)) then p.f.tone
    else if p.box ∧ p.f.x ≤ x ∧ x < p.endX ∧ p.f.y ≤ y ∧ y < p.endY then 0
    else tone) 0

/-- Pixels of a field outside the mark's area (R103). -/
def Paint.clipped (p : Paint) (t : Template) : Nat :=
  (p.px.filter (fun (x, y) => decide (x < 0 ∨ (t.width : Int) ≤ x ∨ y < 0 ∨ (t.lines : Int) ≤ y))).length

/-- Line `y` of a mark for a window of `ne` elements from `x0` (R112); in redundant-row mode only row 0 is composed. -/
def composeLine (ps : List Paint) (t : Template) (x0 ne row0 y : Nat) : List Nat :=
  (List.range ne).map (fun i => if row0 ≤ i ∨ t.width ≤ x0 + i then 0 else toneAt ps (x0 + i) y)

end Sys2Proof.Machine
end

