-- ==== Sys2Proof/Machine/Head.lean ====
section
/-! DEFINITION. The head of a casement: identity record (R176, R177), element order and frames (R152, R157 to R169), thermistor and
windows (R180 to R182), element records (R217 to R220) and defects (R230, R235). -/

namespace Sys2Proof.Machine

/-! ## The identity record -/

/-- The `n`-byte field at offset `o` of casement `c`'s loaded record. -/
def State.recF (s : State) (c o n : Nat) : Nat := fieldLE (s.casOf c).recd o n

/-- Element count ne of casement `c`, 0 before a record is loaded. -/
def State.ne (s : State) (c : Nat) : Nat := s.recF c 8 4

/-- SERIAL of a record. -/
def serialOf (r : Bytes) : Bytes := sliceB r 0x38 16

/-- Is every field within its range (R177 check 3)? -/
def recordRange (r : Bytes) : Bool :=
  let g (o n : Nat) := fieldLE r o n
  let ser := serialOf r
  decide (1 ≤ g 5 1 ∧ g 5 1 ≤ 3 ∧ g 6 1 < 32) && [1, 2, 4, 8, 16].contains (g 7 1) &&
  decide (1 ≤ g 8 4 ∧ g 8 4 ≤ g 7 1 * 32768 ∧ 100 ≤ g 0x0C 2 ∧ 1 ≤ g 0x0E 1 ∧ g 0x0E 1 ≤ 4 ∧ g 0x14 1 ≤ 15) &&
  decide (1 ≤ g 0x15 1 ∧ g 0x15 1 ≤ 8 ∧ 1 ≤ g 0x16 2 ∧ g 0x16 2 ≤ 960 ∧ wrapS 8 (g 0x18 1) < wrapS 8 (g 0x19 1)) &&
  decide (g 0x1A 1 ≤ 50 ∧ g 0x1B 1 ≤ 50 ∧ 100 ≤ g 0x1C 4 ∧ g 0x1C 4 ≤ 10000000 ∧ 1000 ≤ g 0x20 2 ∧ g 0x20 2 ≤ 10000) &&
  (ser.dropWhile (fun b => decide (0x20 ≤ b.toNat ∧ b.toNat ≤ 0x7E))).all (· == 0) &&
  decide (g 0x50 1 ≤ 4 ∧ g 0x51 1 < 8) && (sliceB r 0x52 10).all (· == 0)

/-- Usage counter `i` of a record (R176, R177): its value, 0 where value and complement disagree, and whether they agree. -/
def usageCounter (r : Bytes) (i : Nat) : Nat × Bool :=
  let v := fieldLE r (0x60 + 8 * i) 4
  let ok := decide (v + fieldLE r (0x64 + 8 * i) 4 = 0xFFFFFFFF)
  (if ok then v else 0, ok)

/-- Identity status of a record read (R177): 1 valid, 5 format, 2 CRC, 3 range. -/
def recordStatus (r : Bytes) : Nat :=
  if fieldLE r 0 4 ≠ 0x4448444B ∨ fieldLE r 4 1 ≠ 1 then 5
  else if fieldLE r 0x5C 4 ≠ crc32 (sliceB r 0 0x5C) then 2
  else if !recordRange r then 3
  else 1

/-- Port kind in force: 0 none, 1 sash link, 2 classic (R184). -/
def State.portKind (s : State) (c : Nat) : Nat := s.frcN (oCas c 4 1)

/-- Bits per element in force. -/
def State.bpe (s : State) (c : Nat) : Nat := s.frcN (oCas c 4 4)

/-- The checks of R177 of a valid record against the configuration `v` (a lookup: written values at an arm command, values in force
later). -/
def State.recordFits (s : State) (c : Nat) (r : Bytes) (v : Nat → Nat) : Bool :=
  let inf := fieldLE r 6 1
  decide ((if bit inf 0 then 1 else 2) = s.portKind c) && decide (fieldLE r 7 1 = s.frcN (oCas c 4 3)) &&
  (match v (oCas c 4 4) with
    | 1 => bit inf 2
    | 2 => bit inf 3
    | _ => bit inf 4) &&
  decide (v (oCas c 4 0x0D) ≤ fieldLE r 0x16 2 * 100 ∧ v (oCas c 7 6) ≤ fieldLE r 0x15 1)

/-- A valid record `r` fails a check of R177 against the written configuration, as an arm command would take it. -/
def State.misfit (s : State) (c : Nat) (r : Bytes) : Bool := recordStatus r == 1 && !s.recordFits c r (fun k => s.nat k)

/-- The record last read is valid: identity status 1, or 4 where it does not fit the configuration (R177). -/
def State.idValid (s : State) (c : Nat) : Bool := s.nat (oCas c 5 2) == 1 || s.nat (oCas c 5 2) == 4

/-! ## Element order and frames -/

/-- Lanes L of casement `c` (R152). -/
def State.lanes (s : State) (c : Nat) : Nat :=
  if s.portKind c = 2 then 2 * s.frcN (oCas c 4 3) else s.frcN (oCas c 4 3)

/-- m = ceil(ne / L). -/
def State.laneLen (s : State) (c : Nat) : Nat := cdiv (s.ne c) (max 1 (s.lanes c))

/-- The lane of element `e` and its position there (R152). -/
def State.lanePos (s : State) (c e : Nat) : Nat × Nat :=
  if bit (s.recF c 6 1) 1 then (e % max 1 (s.lanes c), e / max 1 (s.lanes c))
  else (e / max 1 (s.laneLen c), e % max 1 (s.laneLen c))

/-- The elements of lane `j`, in order. -/
def State.laneElems (s : State) (c j : Nat) : List Nat :=
  (List.range (s.ne c)).filter (fun e => (s.lanePos c e).1 = j)

/-- A value as bits, most significant first. -/
def msbBits (n x : Nat) : List Bool := (List.range n).map (fun i => bit x (n - 1 - i))

/-- CRC-16 of R156 over bits in the order sent. -/
def crcBits16 (bs : List Bool) : Nat :=
  bs.foldl (fun c b => if bit c 15 != b then ((2 * c) % 65536) ^^^ 0x1021 else (2 * c) % 65536) 0xFFFF

/-- Payload blocks of 1,024 bits, each followed by its CRC (R156). -/
def payloadBlocks : Nat → List Bool → List Bool
  | 0, _ => []
  | _, [] => []
  | f + 1, p => p.take 1024 ++ msbBits 16 (crcBits16 (p.take 1024)) ++ payloadBlocks f (p.drop 1024)

/-- A frame of a sash (R156, R157) as bits from its first. -/
def frameBits (typ bpe slices : Nat) (last first : Bool) (seq count : Nat) (payload : List Bool) : List Bool :=
  let header := msbBits 4 typ ++ msbBits 2 bpe ++ msbBits 3 slices ++ [last, first] ++ msbBits 5 0 ++ msbBits 16 seq
    ++ msbBits 16 count
  msbBits 16 0xC6F1 ++ header ++ msbBits 16 (crcBits16 header) ++ payloadBlocks (payload.length + 1) payload

/-- Bits packed into bytes, first bit most significant. -/
def packBits : Nat → List Bool → Bytes
  | 0, _ => []
  | _, [] => []
  | f + 1, b => BitVec.ofNat 8 ((List.range 8).foldl (fun n i => 2 * n + b2n ((b[i]?).getD false)) 0) :: packBits f (b.drop 8)

/-- P of the most heavily loaded sash (R157, R162). -/
def State.payload (s : State) (c : Nat) : Nat := s.laneLen c * s.bpe c

/-- F of R162. -/
def frameLen (p : Nat) : Nat := 96 + p + 16 * cdiv p 1024

/-- σ in units of 0.25 % (R17, R204): times with the factor (1 + σ) are multiplied by 400 + dsp and divided by 400. -/
def State.dsp (s : State) : Nat := s.nat (ky 0x2010 2)

/-- Frame time tf in units of 1.5625 ns (R192). -/
def State.frameUnits (s : State) (c : Nat) : Nat := frameLen (s.payload c) - 16

/-- `n` units stretched by (1 + sigma), as a time (R17, R155, R192). -/
def State.longT (s : State) (n : Nat) : Time := unitT n * (400 + s.dsp) / 400

/-- Shift period of the setting in force: the slower of the configured and the record's (R167), in units. -/
def State.shiftPeriod (s : State) (c : Nat) : Nat :=
  match max (s.frcN (oCas c 4 5)) (s.recF c 0x50 1) with
  | 0 => 13
  | 1 => 16
  | 2 => 20
  | 3 => 32
  | _ => 64

/-- Latch pulse: two periods. -/
def State.latchUnits (s : State) (c : Nat) : Nat := 2 * s.shiftPeriod c

/-- ds of R168, in units, for a slice of width `w`. -/
def State.dsUnits (s : State) (c w : Nat) : Nat :=
  let tls := s.nat (oCas c 4 7)
  let tsl := s.nat (oCas c 4 8)
  max (w + tsl) (s.laneLen c * s.shiftPeriod c - tls) + s.latchUnits c + tls

/-- Slice count in force. -/
def State.slices (s : State) (c : Nat) : Nat := s.frcN (oCas c 7 6)

/-- The mask of a slice code in force (R201). -/
def State.mask (s : State) (c code : Nat) : Nat := s.frcN (oCas c 8 (9 + code))

/-- HEAD_LATCH, ns. -/
def State.headLatch (s : State) (c : Nat) : Nat := s.recF c 0x22 2

/-- The head pins are driven (R153): configured, in ARMING, ARMED, OPEN or SERVICE with its rails good, or with a committed mark. -/
def State.pinsDriven (s : State) (c : Nat) : Bool :=
  decide (s.portKind c ≠ 0) &&
    (([2, 3, 4, 5].contains (s.casState c) && s.headPower c) || !(s.casOf c).opened.isEmpty)

/-- Start `data` on every sash, a frame of `n` bits (TYPE `kind`) or, as kind 0, a plane of `n` units, once the link is free: on a sash
link 16 idle bits follow each frame (R155, R156). Pins that are high-impedance send nothing (R153). -/
def State.sendSashes (s : State) (c kind n : Nat) (data : Nat → Bytes) : State :=
  if !s.pinsDriven c then s
  else
    let b := s.frcN (oCas c 4 2)
    let x := s.casOf c
    let t := max s.now x.linkT
    let s := s.setCasement c { x with linkT := t + s.longT (if kind = 0 then n else n + 16) }
    (List.range (s.frcN (oCas c 4 3))).foldl (fun s j =>
      let s := s.send (.sash c kind (b + j) t (data j))
      if kind = 0 then s else s.bump (oSash (b + j) 3)) s

/-- The CANCEL frame of a line sent (R157, R160). -/
def State.sendCancel (s : State) (c seq : Nat) : State :=
  if s.portKind c = 1 then
    let bits := frameBits 3 0 0 false false seq 0 []
    (s.sendSashes c 3 bits.length (fun _ => packBits (bits.length + 1) bits)).bump (oCas c 4 0x0F)
  else s

/-! ## Measurement frames and pulses (R223, R224) -/

/-- What the elements of lane `j` carry, in order, with the padding's 0 at the end. -/
def State.laneVals (s : State) (c j : Nat) (f : Nat → Nat) : List Nat :=
  let l := (s.laneElems c j).map f
  l ++ List.replicate (s.laneLen c - l.length) 0

/-- The LINE frame of sash `j` (R157, R158). -/
def State.lineFrame (s : State) (c j slices : Nat) (last first : Bool) (seq : Nat) (code : Nat → Nat) : Bytes :=
  let b := s.bpe c
  let bits := frameBits 1 (b / 2) (slices - 1) last first seq (s.laneLen c - 1) ((s.laneVals c j code).flatMap (msbBits b))
  packBits (bits.length + 1) bits

/-- One bit-plane on the data lines of sash `j` of a classic port: line 2j, then line 2j + 1, as shifted (R166). -/
def State.planeBytes (s : State) (c j : Nat) (on : Nat → Bool) : Bytes :=
  let inv := bit (s.recF c 0x51 1) 2
  let line (l : Nat) : List Bool :=
    let v := (s.laneVals c l (fun e => b2n (on e))).map (fun x => (x == 1) != inv)
    if s.frcN (oCas c 4 6) = 0 then v.reverse else v
  let bits := line (2 * j) ++ line (2 * j + 1)
  packBits (bits.length + 1) bits

/-- Shift one plane into a classic head. -/
def State.sendPlane (s : State) (c : Nat) (on : Nat → Bool) : State :=
  s.sendSashes c 0 (s.laneLen c * s.shiftPeriod c) (fun j => s.planeBytes c j on)

/-- The line sequence goes on by one for each line sent (R157). -/
def State.nextSeq (s : State) (c : Nat) : State :=
  let x := s.casOf c
  s.setCasement c { x with seqNo := (x.seqNo + 1) % 65536 }

/-- The sense-ADC round of 18 slots of 200 ns (R178, R224). -/
def roundT : Time := nsT 3600

/-- The start of the CMS slot of casement `c` in a round (R178, R224, log 299). -/
def cmsSlot (c : Nat) : Time := nsT (200 * (3 * (c % 6) + 2))

/-- The pulse of a measurement cycle (R224 steps 4 and 5). -/
def Meas.start (m : Meas) (c : Nat) : Time := m.t0 + roundT + cmsSlot c - unitT m.ts
def Meas.stop (m : Meas) (c : Nat) : Time := m.t0 + roundT + cmsSlot c + nsT 200

/-- Rounds a cycle takes (R224): the configured period, or the rounds that cover a load. -/
def State.measRounds (s : State) (c : Nat) : Nat :=
  let load := if s.portKind c = 1 then s.longT (s.frameUnits c) + nsT (s.headLatch c)
    else s.longT (s.laneLen c * s.shiftPeriod c + s.latchUnits c) + unitT (s.nat (oCas c 4 7))
  max (s.nat (oCas c 0x0D 5)) (cdiv load roundT)

/-- The measurement pulse as it leaves on the strobes (R161, R165, R223): CSTBc1 carries it on a sash link, and on a classic port in
mode 0. -/
def State.measPulse (s : State) (c : Nat) (m : Meas) : State :=
  if !s.pinsDriven c then s
  else
    let p := [(0, m.ts + 128)]
    let s := s.send (.strobe c 0 (m.start c) p)
    if s.portKind c = 1 ∨ s.frcN (oCas c 4 9) = 0 then s.send (.strobe c 1 (m.start c) p) else s

/-- Load the measurement frame or plane of the element of cycle `m`, which starts with settle time and rounds as now set: at `base` or,
for the first cycle, at the first round once the load ends (R223, R224). A plane loaded is latched. -/
def State.measLoad (s : State) (c : Nat) (m : Meas) (base : Option Time) : State :=
  let e := m.elem
  let s := if s.portKind c = 1 then
      let cm := s.frcN (oCas c 0x0D 3)
      let q := (s.casOf c).seqNo
      (s.sendSashes c 1 (s.frameUnits c) (fun j => s.lineFrame c j 1 true true q (fun x => if x = e then cm else 0))).nextSeq c
    else
      let s := s.sendPlane c (· == e)
      if s.pinsDriven c then s.send (.latch c (s.casOf c).linkT (s.latchUnits c)) else s
  let t0 := match base with
    | some t => t
    | none => cdiv (max s.now (s.casOf c).linkT) roundT * roundT
  s.setCasement c { s.casOf c with meas := some { m with t0 := t0, ts := s.nat (oCas c 0x0D 4) } }

/-! ## Thermistor and windows -/

/-- ln(num / den) with 64 fractional bits (R180). -/
def lnFix (num den : Nat) : Int :=
  let one : Int := 2 ^ 80
  -- 2^k <= x < 2^(k+1)
  let k : Int := (Nat.log2 num : Int) - (Nat.log2 den : Int)
  let x : Int := if 0 ≤ k then (num : Int) * one / ((den : Int) * 2 ^ k.toNat) else (num : Int) * 2 ^ (-k).toNat * one / den
  let z : Int := (x - one) * one / (x + one)
  let z2 := z * z / one
  let atanh := (List.range 60).foldl (fun (acc : Int × Int) i => (acc.1 + acc.2 / ((2 * i + 1 : Nat) : Int), acc.2 * z2 / one)) (0, z)
  let ln2 : Int := 837963523372001241319907  -- ln 2 with 80 fractional bits
  (2 * atanh.1 + k * ln2) / 2 ^ 16

/-- Temperature of a code in 1/16 C, rounded to nearest (R180), through the table filled from pull-up, RT25 and B. -/
def thermTemp (rpu rt25 b code : Nat) : Int :=
  let l := lnFix (rpu * code) ((4096 - code) * rt25)
  -- 1/T = 1/298.15 + l / (2^64 b); T = 298.15 b 2^64 / (b 2^64 + 298.15 l)
  let one : Int := 2 ^ 64
  let n : Int := 29815 * b * one * 16
  let d : Int := 100 * (b * one) + 29815 * l
  if d ≤ 0 then 32767
  else
    let t16 := n - 437040 * d / 100
    max (-32768) (min 32767 ((2 * t16 + d) / (2 * d)))

/-- The HEAD windows (R182) among settings `cfg`: temperature in 1/16 C and supply in mV. -/
def State.tempIn (s : State) (c : Nat) (L : Nat → Val) : Bool :=
  let t := s.num (oCas c 6 3)
  if (L (oCas c 5 9)).int = 1 then
    decide ((L (oCas c 5 0x0A)).int * 16 ≤ t ∧ t ≤ (L (oCas c 5 0x0B)).int * 16)
  else decide (wrapS 8 (s.recF c 0x18 1) * 16 ≤ t ∧ t ≤ wrapS 8 (s.recF c 0x19 1) * 16)

/-- Supply within its window. -/
def State.supplyIn (s : State) (c : Nat) (L : Nat → Val) : Bool :=
  let v := s.num (oCas c 6 4)
  if (L (oCas c 5 9)).int = 1 then decide ((L (oCas c 5 0x0C)).int ≤ v ∧ v ≤ (L (oCas c 5 0x0D)).int)
  else
    let n : Int := s.recF c 0x12 2
    decide (n * (100 - (s.recF c 0x1A 1 : Int)) ≤ 100 * v ∧ 100 * v ≤ n * (100 + (s.recF c 0x1B 1 : Int)))

/-- The HEAD item of R62 at time `t`: rails good, conversions no older than 1 ms and within their windows, identity valid. -/
def State.headOk (s : State) (c : Nat) (t : Time) (L : Nat → Val) : Bool :=
  let x := s.casOf c
  let fresh (o : Option Time) : Bool := match o with
    | some u => decide (t ≤ u + msT 1)
    | none => false
  s.headPower c && fresh x.cthT && fresh x.cvsT && !x.cthBad && s.tempIn c L && s.supplyIn c L
    && x.recOk && s.idValid c

/-- Fill the thermistor table (R180). -/
def State.fillTable (s : State) (c : Nat) : State :=
  let x := s.casOf c
  s.setCasement c { x with table := some (s.frcN (oCas c 6 1), s.recF c 0x1C 4, s.recF c 0x20 2) }

/-! ## Element records -/

/-- The code-word positions of the 26 data bits (R217). -/
def dataPos : List Nat := (List.range 32).filter (fun p => p ≠ 0 ∧ p ≠ 1 ∧ p ≠ 2 ∧ p ≠ 4 ∧ p ≠ 8 ∧ p ≠ 16)

/-- XOR of bits. -/
def xorBits (l : List Bool) : Bool := l.foldl (· != ·) false

/-- The five Hamming check bits of 26 data bits. -/
def hamming (d : Nat) : Nat :=
  (List.range 5).foldl (fun n j =>
    n + (if xorBits (dataPos.zipIdx.map (fun (p, i) => bit p j && bit d i)) then 2 ^ j else 0)) 0

/-- A record with its CHECK field computed over bits [25:0] (R217). -/
def withCheck (d : Nat) : Nat :=
  let d := d % 2 ^ 26
  let r := d + hamming d * 2 ^ 26
  r + (if xorBits ((List.range 31).map (bit r)) then 2 ^ 31 else 0)

/-- A record read: its data bits, and 0 good, 1 corrected, 2 uncorrectable (R233). -/
def readCheck (r : Nat) : Nat × Nat :=
  let d := r % 2 ^ 26
  let syn := hamming d ^^^ bits r 30 26
  let odd := xorBits ((List.range 32).map (bit r))
  if syn = 0 ∧ !odd then (d, 0)
  else if !odd then (d, 2)
  else match dataPos.findIdx? (· == syn) with
    | some i => (d ^^^ 2 ^ i, 1)
    | none => (d, 1)

/-- Where element `e` of casement `c` lies in the Ledger (R218). -/
def State.ledKey (s : State) (c e : Nat) : Nat :=
  let (j, q) := s.lanePos c e
  let b := s.frcN (oCas c 4 2)
  if s.portKind c = 2 then (b + j / 2) * 32768 + (j % 2) * 16384 + q else (b + j) * 32768 + q

/-- A Ledger word. -/
def State.ledWord (s : State) (k : Nat) : Nat := tget (fun _ => 0) s.led k

/-- Write a Ledger word. -/
def State.setLed (s : State) (k v : Nat) : State := { s with led := tset (fun _ => 0) s.led k v }

/-- The fields of a record's data bits: HIST, RCLASS, RCODE, DUTY. -/
def recHist (d : Nat) : Nat := bits d 1 0
def recClass (d : Nat) : Nat := bits d 5 2
def recCode (d : Nat) : Nat := bits d 15 6
def recDuty (d : Nat) : Nat := bits d 25 16

/-- Data bits from their fields. -/
def mkRec (duty code cls hist : Nat) : Nat := duty % 1024 * 65536 + code % 1024 * 64 + cls % 16 * 4 + hist % 4

/-- Write an element's record. -/
def State.putRec (s : State) (c e d : Nat) : State := s.setLed (s.ledKey c e) (withCheck d)

/-- The data bits of an element's record, as any reader takes them. -/
def State.getRec (s : State) (c e : Nat) : Nat := (readCheck (s.ledWord (s.ledKey c e))).1

/-- An element is dead and hidden (class 0xF). -/
def State.dead (s : State) (c e : Nat) : Bool := recClass (s.getRec c e) == 15

/-- The class of a code (R225): the number of bounds at or below it. -/
def State.classOf (s : State) (c code : Nat) : Nat :=
  ((List.range 14).filter (fun i => decide (s.nat (oCas c 0x0E (i + 1)) ≤ code))).length

/-- The rank table's entry for the head's RANK (R220). -/
def State.rankCode (s : State) (c : Nat) : Nat := fieldLE (s.str (oCas c 0x0E 0x1A)) (2 * s.recF c 0x14 1) 2

/-! ## Defects -/

/-- Does a defect kind make its element dead (R230)? -/
def State.deadKind (s : State) (c kind : Nat) : Bool :=
  kind == 1 || kind == 2 || kind == 5 || kind == 6 || s.nat (oCas c 0x0E 0x12) == 1

/-- Give an element a class. -/
def State.setClass (s : State) (c e cls : Nat) : State :=
  let d := s.getRec c e
  s.putRec c e (mkRec (recDuty d) (recCode d) cls (recHist d))

/-- The defect list changed: its count, and an automatic save (R222). -/
def State.defectsChanged (s : State) (c : Nat) : State :=
  let s := s.setn (oCas c 0x0E 0x16) ((s.casOf c).defects.length : Nat)
  { s with store := { s.store with autoOwed := true } }

/-- Declare a defect of `kind` at element `e` (R230). -/
def State.declare (s : State) (c e kind : Nat) : State :=
  let x := s.casOf c
  let now := s.dev.toNat
  let dk := s.deadKind c kind
  match x.defects.find? (fun d => d.elem = e) with
  | some d =>
    if (d.kind = 3 ∨ d.kind = 4) ∧ !s.dead c e ∧ dk then
      let s := s.setCasement c { x with defects := x.defects.map (fun y => if y.elem = e then ⟨e, kind, now⟩ else y) }
      ((s.setClass c e 15).event c 0x13 c).defectsChanged c
    else s
  | none =>
    let s := if dk then s.setClass c e 15 else s
    if x.defects.length < 1024 then
      ((s.setCasement c { x with defects := x.defects ++ [⟨e, kind, now⟩] }).event c 0x13 c).defectsChanged c
    else if s.nat (oCas c 0x0E 0x1C) = 0 then (s.setn (oCas c 0x0E 0x1C) 1).event c 0x14 c
    else s

/-- An uncorrectable record, found by any reader (R235), rewritten dead, declared and reported; its sash's bit is set. -/
def State.ledUncorrectable (s : State) (c e : Nat) : State :=
  let k := s.ledKey c e
  let s := s.setLed k (withCheck (mkRec 0 0 15 0))
  let s := s.declare c e 6
  let s := s.fault (k / 32768 / 16) 1 (k / 32768) (k % 32768)
  (s.bump (oCas c 0x10 8)).event c 0x15 c

/-- Read an element's record for use: corrected, with R235 for an uncorrectable one. Answers the data bits and whether they were
usable. -/
def State.useRec (s : State) (c e : Nat) : Nat × Bool × State :=
  match readCheck (s.ledWord (s.ledKey c e)) with
  | (_, 2) => (mkRec 0 0 15 0, false, s.ledUncorrectable c e)
  | (d, 1) => (d, true, s.bump (oCas c 0x10 7))
  | (d, _) => (d, true, s)

/-- LEDGER_INIT: entry to ARMING or SERVICE keeps or initialises the records by Ledger serial (R220). -/
def State.ledgerInit (s : State) (c : Nat) : State :=
  let x := s.casOf c
  let ser := serialOf x.recd
  let n := s.ne c
  if x.serial = some ser then
    (List.range n).foldl (fun s e =>
      let (d, _, s) := s.useRec c e
      s.putRec c e (mkRec 0 (recCode d) (recClass d) 0)) s
  else
    let code := s.rankCode c
    let cls := s.classOf c code
    let s := (List.range n).foldl (fun s e => s.putRec c e (mkRec 0 code cls 0)) s
    -- the persistent store's defect list for this SERIAL
    let stored := match (s.store.bankA, s.store.bankB) with
      | (some a, some b) => if a.seq < b.seq then b.aux else a.aux
      | (some a, none) => a.aux
      | (none, some b) => b.aux
      | (none, none) => []
    let lst : List Defect := match stored.find? (fun p => sliceB p.2 0 16 = ser) with
      | some (_, b) => (List.range ((b.length - 16) / 16)).map (fun i =>
          let o := 16 + 16 * i
          ⟨fieldLE b o 4, fieldLE b (o + 4) 1, fieldLE b (o + 8) 8⟩)
      | none => []
    let s := lst.foldl (fun s d => s.setClass c d.elem 15) s
    let s := s.setCasement c { s.casOf c with serial := some ser, defects := lst }
    ((s.setv (oCas c 0x10 6) (.str ser)).setn (oCas c 0x0E 0x16) (lst.length : Nat)).setn (oCas c 0x0E 0x1C) 0

/-! ## Consumable status (R239) -/

/-- The sensor estimate is available. -/
def State.sensorOk (s : State) (c : Nat) : Bool := s.num (oCas c 0x0F 4) != 2 ^ 64 - 1

/-- DISAGREE and LOW after a change of an estimate or of a threshold (R239). -/
def State.consumableStatus (s : State) (c : Nat) : State :=
  let vc := s.nat (oCas c 0x0F 3)
  let vs := s.nat (oCas c 0x0F 4)
  let ok := s.sensorOk c
  let st := s.nat (oCas c 0x0F 0x0F)
  let diff := if vc ≤ vs then vs - vc else vc - vs
  let dis := ok && decide (max (s.nat (oCas c 0x0F 0x0C)) (max vc vs * s.nat (oCas c 0x0F 0x0D) / 256) < diff)
  let low := decide ((if ok then min vc vs else vc) ≤ s.nat (oCas c 0x0F 0x0E))
  let s' := s.setn (oCas c 0x0F 0x0F) (b2n dis + 2 * b2n low + 4 * b2n ok : Nat)
  let s' := if dis != bit st 0 then s'.event c 0x16 c else s'
  if low && !bit st 1 then s'.event c 0x17 c else s'

/-- The available estimate v under an override (R71). -/
def State.available (s : State) (c ovr : Nat) : Nat :=
  let vc := s.nat (oCas c 0x0F 3)
  let vs := s.nat (oCas c 0x0F 4)
  match ovr with
  | 1 => vc
  | 2 => if s.sensorOk c then vs else 0
  | _ => if s.sensorOk c then min vc vs else vc

end Sys2Proof.Machine
end

