-- ==== Sys2Proof/Machine/Azrov.lean ====
section
/-! DEFINITION. The Azrov node's frames, routing and fabric time (R359 to R365, R367). -/

namespace Sys2Proof.Machine

/-- Own node ID in force. -/
def State.node (s : State) : Nat := s.frcN (ky 0x2400 2)

/-- Node state: 0 ISOLATED, 1 DISCOVERING, 2 JOINED, 3 CONFLICT. -/
def State.nodeState (s : State) : Nat := s.nat (ky 0x2400 6)

/-- Fabric time now: device time and FOFF (R367). -/
def State.ftime (s : State) : Int := s.dev + s.num (ky 0x2400 8)

/-- The monotonic count in ns: the Azrov commit compares by it (R119). -/
def State.count (s : State) : Int := s.dev - s.clk.epoch

/-- A fabric time as a value of the monotonic count, by the offsets of now. -/
def State.ofFtime (s : State) (f : Int) : Int := f - s.num (ky 0x2400 8) - s.clk.epoch

/-- A frame of R359: header, payload and CRC-32. -/
def azFrame (typ flags src dst seq : Nat) (payload : Bytes) : Bytes :=
  let h := leBytes 1 typ ++ leBytes 1 flags ++ leBytes 1 src ++ leBytes 1 dst ++ leBytes 2 seq ++ leBytes 2 payload.length
  h ++ payload ++ leBytes 4 (crc32 (h ++ payload))

/-- Own tree links: (port, neighbour node). -/
def State.treePorts (s : State) : List (Nat × Nat) :=
  s.fab.tree.filterMap (fun (a, b) =>
    if a / 4 = s.node then some (a % 4, b / 4) else if b / 4 = s.node then some (b % 4, a / 4) else none)

/-- Can the tree reach `dst` from `n` without passing `from_`, and over how many hops? -/
def treeReach (tree : List (Nat × Nat)) (dst : Nat) : Nat → Nat → Nat → Option Nat
  | 0, _, _ => none
  | f + 1, from_, n =>
    if n = dst then some 0
    else
      let next := tree.filterMap (fun (a, b) =>
        if a / 4 = n ∧ b / 4 ≠ from_ then some (b / 4) else if b / 4 = n ∧ a / 4 ≠ from_ then some (a / 4) else none)
      (next.findSome? (fun m => treeReach tree dst f n m)).map (· + 1)

/-- The port of the tree path to `dst` (R365). -/
def State.hop (s : State) (dst : Nat) : Option Nat :=
  (s.treePorts.find? (fun (_, n) => (treeReach s.fab.tree dst 32 s.node n).isSome)).map Prod.fst

/-- Tree hops to a node. -/
def State.hops (s : State) (dst : Nat) : Nat :=
  (s.treePorts.findSome? (fun (_, n) => (treeReach s.fab.tree dst 32 s.node n).map (· + 1))).getD 0

/-- Send frames that wait in a replay buffer while fewer than 8 are outstanding (R361). -/
def State.portFlush (s : State) (p : Nat) : State :=
  let x := s.portOf p
  x.replay.foldl (fun s f =>
    let x := s.portOf p
    if f.tries = 0 ∧ (x.replay.filter (fun g => g.tries ≠ 0)).length < 8 then
      (s.setPort p { x with replay := x.replay.map (fun g => if g.seq = f.seq then { g with tries := 1, at_ := s.now } else g) }).send
        (.fabric p f.frame)
    else s) s

/-- Put a control frame on port `p` (R361). -/
def State.sendCtl (s : State) (p typ flags dst : Nat) (payload : Bytes) (src : Option Nat := none) : State :=
  let x := s.portOf p
  if !x.up then s
  else
    let frame := azFrame typ flags (src.getD s.node) dst x.txSeq payload
    (s.setPort p { x with txSeq := (x.txSeq + 1) % 65536, replay := x.replay ++ [⟨x.txSeq, frame, 0, s.now⟩] }).portFlush p

/-- Frame types a node in CONFLICT does not send (R363). -/
def heldInConflict (typ : Nat) : Bool := typ == 1 || (decide (0x10 ≤ typ ∧ typ ≤ 0x14))

/-- The ordered set ACK (R357). -/
def ackSet (seq : Nat) : Bytes := 0x7C#8 :: leBytes 2 seq

/-- A control frame that port `p` has not passed on yet (R361). -/
def State.linkNew (s : State) (p seq : Nat) : Bool :=
  match (s.portOf p).rxSeq with
  | some r => decide (0 < wrapS 16 ((seq : Int) - r))
  | none => true

/-- A good control frame is acknowledged and noted as passed on. -/
def State.taken (s : State) (p seq : Nat) : State :=
  (s.setPort p { s.portOf p with rxSeq := some (seq % 65536) }).send (.fabric p (ackSet seq))

/-- A good control frame on port `p` (R361): acknowledged, and passed on to `f` once; a repeated one is dropped. -/
def State.linkIn (s : State) (p seq : Nat) (f : State → State) : State :=
  if !(s.portOf p).up then s
  else if s.linkNew p seq then f (s.taken p seq)
  else s.send (.fabric p (ackSet seq))

/-- A unicast frame along the tree path (R365), from this node or passed on from `src`. -/
def State.unicast (s : State) (typ dst : Nat) (payload : Bytes) (src : Option Nat := none) : State :=
  if s.fab.conflict && heldInConflict typ then s
  else match s.hop dst with
    | some p => s.sendCtl p typ 0 dst payload src
    | none => s

/-- A multicast frame on every tree link but the one it came by (R365). -/
def State.multicast (s : State) (typ : Nat) (payload : Bytes) (from_ : Option Nat) (src : Nat) : State :=
  if s.fab.conflict && heldInConflict typ then s
  else s.treePorts.foldl (fun s (p, _) => if some p = from_ then s else s.sendCtl p typ 1 0xFF payload (some src)) s

/-- A mark identity as it travels (R360). -/
def idBytes (i : MarkId) : Bytes := leBytes 1 i.node ++ leBytes 1 i.casement ++ leBytes 4 i.seq

/-- The payload of an ANCHOR frame (R360). -/
def anchorBytes (id : MarkId) (ref : Nat) (aref : Int) (ftime template tag : Nat) : Bytes :=
  idBytes id ++ leBytes 2 ref ++ leBytes 8 (wrapU 64 aref).toNat ++ leBytes 8 ftime ++ leBytes 2 template ++ leBytes 4 tag

/-- A counter held in a part of an object: bits [hi:lo] up by one, wrapping (R381, R382). -/
def State.bumpPart (s : State) (k hi lo : Nat) : State :=
  let v := s.nat k
  let w := 2 ^ (hi + 1 - lo)
  let p := bits v hi lo
  s.setn k ((v - p * 2 ^ lo + (p + 1) % w * 2 ^ lo : Nat) : Int)

/-! ## Links of the view (R364, R378) -/

/-- A link's identity: that of its lower node (R366). -/
def linkId (l : Nat × Nat) : Nat := min l.1 l.2

/-- Links of the view that both ends report as usable, each once. -/
def State.links (s : State) : List (Nat × Nat) :=
  let all := s.fab.view.flatMap (fun x => x.entries.filterMap (fun e =>
    if e.state = 1 ∨ e.state = 2 then some (x.node * 4 + e.port, e.nbNode * 4 + e.nbPort) else none))
  all.filter (fun l => Nat.blt l.1 l.2 && all.contains (l.2, l.1) && !s.fab.failed.contains (linkId l))

/-- The most hops of a path from node `n` to `dst` that passes no node twice; every such path lies in some tree. -/
def longPath (links : List (Nat × Nat)) (dst : Nat) : Nat → List Nat → Nat → Option Nat
  | 0, _, _ => none
  | f + 1, seen, n =>
    if n = dst then some 0
    else
      let next := (links.flatMap (fun (a, b) => (if a / 4 = n then [b / 4] else []) ++ (if b / 4 = n then [a / 4] else []))).eraseDups
      (next.filter (fun m => !seen.contains m)).foldl (fun (acc : Option Nat) m =>
        match longPath links dst f (m :: seen) m with
        | some h => some (max (acc.getD 0) (h + 1))
        | none => acc) none

/-- The most hops between this node and `dst` over any tree the fabric can take (R378). -/
def State.mostHops (s : State) (dst : Nat) : Nat := (longPath s.links dst 32 [s.node] s.node).getD 0

/-! ## Stitched groups -/

/-- Stitch role of casement `c` in force: 0 none, 1 lead, 2 participant. -/
def State.role (s : State) (c : Nat) : Nat := s.frcN (oStitch c 1)

/-- The participants that lead casement `c` names: (node, casement). -/
def State.participants (s : State) (c : Nat) : List (Nat × Nat) :=
  (List.range 15).filterMap (fun i =>
    let v := s.frcN (oStitch c (i + 2))
    if v = 0xFFFF then none else some (v / 256, v % 256))

/-- The most tree hops from this node to a participant of lead `c` (R374). -/
def State.hmax (s : State) (c : Nat) : Nat := ((s.participants c).map (fun (n, _) => s.hops n)).foldl max 0

/-- The stitched mark of an identity, as its lead holds it. -/
def State.stitchOf (s : State) (i : MarkId) : Option Stitch := s.fab.stitches.find? (fun x => x.id = i)

/-- Replace a stitched mark. -/
def State.setStitch (s : State) (x : Stitch) : State :=
  { s with fab := { s.fab with stitches := s.fab.stitches.map (fun y => if y.id = x.id then x else y) } }

end Sys2Proof.Machine
end

