-- ==== Sys2Proof/Machine/Shutter.lean ====
section
/-! DEFINITION. The Shutter: anchors, draws, changes near a decision point, the admission test, and what ends a mark that is refused
(R52 to R75, R81, R129, R145, R148). -/

namespace Sys2Proof.Machine

/-- A mark as an anchor makes it. -/
def Mark.init : Mark :=
  { key := .input 0 0, order := 0, a := 0, t := 0, dev := 0, tag := 0, cookie := 0, needReq := false, req := none, tplNo := none,
    s0 := 0, pitch := 1, la := 0, stitch := none, comp := none, compT := 0, unit := none, tpl := none, sets := [], draws := [],
    voided := [], vals := [], seals := [], need := [], have_ := [], prepared := false, err := 0, missing := false, lines := [],
    recomposed := false, tD := 0, tdDev := 0, fails := 0, vote := none, cfg := [], flags := 0, reserve := 0, count := 0, lns := [],
    refills := [], bad := [], keep := [], hide := [], late := 0, skipped := 0, blank := 0, fired := 0, cut := 0, energy := 0, minC := 65535, minHb := 65535,
    minV := 1048576, maxT := -32769, drops := 0, strobeActed := false, ended := false, fin := 0 }

/-- Line axis of casement `c`. -/
def State.casAxis (s : State) (c : Nat) : Nat := s.nat (oCas c 0 3)

/-- Replace the pending mark of a number. -/
def State.setPend (s : State) (c : Nat) (m : Mark) : State :=
  let x := s.casOf c
  s.setCasement c { x with pend := x.pend.map (fun y => if y.order = m.order then m else y) }

/-- Replace an open mark. -/
def State.setOpen (s : State) (c : Nat) (m : Mark) : State :=
  let x := s.casOf c
  s.setCasement c { x with opened := x.opened.map (fun y => if y.order = m.order then m else y) }

/-- Remove a pending mark. -/
def State.dropPend (s : State) (c : Nat) (m : Mark) : State :=
  let x := s.casOf c
  let p := x.pend.filter (fun y => y.order != m.order)
  (s.setCasement c { x with pend := p }).setn (oCas c 2 4) (p.length : Nat)

/-- All pending marks whose composition has started, with their casements, in composition-start order. -/
def State.composing (s : State) : List (Nat × Mark) :=
  let all := s.cas.flatMap (fun (c, x) => x.pend.filterMap (fun m => m.comp.map (fun k => (k, c, m))))
  (sortOn Prod.fst all).map (fun (_, c, m) => (c, m))

/-! ## Withdrawn seals (R148) -/

/-- Withdraw the Notary requests of a mark, one field or all: those queued leave, one in the unit is marked, each is counted. -/
def State.withdraw (s : State) (order : Nat) (field : Option Nat) : State :=
  let hit (r : NReq) : Bool := r.mark == order && (field == none || field == some r.field)
  let n := s.notary
  let gone := n.queue.filter hit
  let q := n.queue.filter (fun r => !hit r)
  let s := { s with notary := { n with queue := q } }
  let s := (s.bumpBy (ky 0x5200 4) gone.length).setn (ky 0x5200 1) (q.length : Nat)
  match n.op with
  | some (.seal r false) =>
    if hit r then ({ s with notary := { s.notary with op := some (.seal r true) } }).bump (ky 0x5200 4) else s
  | _ => s

/-! ## Field errors (R106) -/

/-- A field error of code `code` stops a mark's composition. -/
def State.fieldError (s : State) (c : Nat) (m : Mark) (code : Nat) : State :=
  let s := (s.bump (oCas c 3 8)).setn (oCas c 3 9) (code : Nat)
  let s := (s.withdraw m.order none).event 0xF0 (0x0A00 + code) c
  s.setPend c { m with err := code, lines := [], prepared := false, unit := none }

/-- An error status of a sealing request ends the mark's composition (R143). -/
def State.sealError (s : State) (c : Nat) (m : Mark) (slot status : Nat) : State :=
  let s := (s.bump (ky 0x5200 3)).setn (ky 0x5200 5) (status : Nat)
  (s.event 0xF6 (0x0A00 + status) c [BitVec.ofNat 8 slot, BitVec.ofNat 8 status]).fieldError c m 10

/-! ## Draws (R66, R90) -/

/-- Is a casement a participant of a stitched group, whose draws would not agree (R371)? -/
def State.noDraws (s : State) (c : Nat) : Bool := s.role c == 2

/-- The tallies, or the record queues, that a template's fields name, each once in field order. -/
def Template.sources (t : Template) (kind : Nat) : List Nat :=
  ((t.fields.filter (fun f => f.kind = kind)).map Field.source).eraseDups

/-- Draw the tallies a mark lacks. -/
def State.drawTallies (s : State) (c : Nat) (m : Mark) : State × Mark :=
  match m.tpl with
  | none => (s, m)
  | some t =>
    if s.noDraws c then (s, m)
    else (t.sources 4).foldl (fun (acc : State × Mark) n =>
      if acc.2.draws.any (fun d => !d.record && d.src = n) then acc
      else
        let (v, held, s) := acc.1.talDraw n
        (s, { acc.2 with draws := acc.2.draws ++ [⟨false, n, v, [], s.now, held⟩] })) (s, m)

/-- Draw the records a mark lacks from the pools that hold some. -/
def State.drawRecords (s : State) (c : Nat) (m : Mark) : State × Mark :=
  match m.tpl with
  | none => (s, m)
  | some t =>
    if s.noDraws c then (s, m)
    else (t.sources 5).foldl (fun (acc : State × Mark) q =>
      if acc.2.draws.any (fun d => d.record && d.src = q) then acc
      else
        let d := acc.1.qOf q
        match d.pool with
        | [] => acc
        | (b, id, ts) :: r =>
          (acc.1.setQ q { d with pool := r }, { acc.2 with draws := acc.2.draws ++ [⟨true, q, id, b, ts, false⟩] })) (s, m)

/-! ## Templates in force and recomposition (R67, R87, R100, R127) -/

/-- The template number of a mark: given, or the default template in force. -/
def State.templateNo (s : State) (c : Nat) (m : Mark) : Nat := m.tplNo.getD (s.decN (oCas c 0 0x0A) s.now)

/-- The template version in force. -/
def State.template (s : State) (n : Nat) : Option Template := s.comp.templates.find? (fun t => t.number = n)

/-- The glyph sets a template names that are in force, and whether one it names is not. -/
def State.templateSets (s : State) (t : Template) : List GlyphSet × Bool :=
  let ns := ((t.fields.filter (fun f => decide (1 ≤ f.kind ∧ f.kind ≤ 5))).map Field.set).eraseDups
  let gs := ns.filterMap (fun n => s.comp.sets.find? (fun g => g.number = n))
  (gs, decide (gs.length ≠ ns.length))

/-- The seals of a template. -/
def Template.sealFields (t : Template) : List Seal :=
  t.fields.zipIdx.filterMap (fun (f, i) => if f.kind = 7 then some ⟨i, f.source, false, none⟩ else none)

/-- An override that names no field that takes it is ignored and counted, once for its mark (R92, R304). -/
def State.countOverride (s : State) (c : Nat) (t : Template) (m : Mark) : State :=
  match m.req.bind ReqEntry.ovr with
  | some (n, _) => if (t.fields[n]?).any (fun f => f.kind = 1 && bit f.flags 7) then s else s.bump (oCas c 3 0x0C)
  | none => s

/-- Begin composing a mark again, or first, from the versions in force: its draws are made where it lacks them. -/
def State.beginMark (s : State) (c : Nat) (m : Mark) (again : Bool) : State :=
  let s := s.withdraw m.order none
  let m := { m with vals := [], seals := [], need := [], have_ := [], prepared := false, err := 0, lines := [], unit := none,
                    recomposed := m.recomposed || again }
  match s.template (s.templateNo c m) with
  | none => (s.setPend c { m with tpl := none }).fieldError c { m with tpl := none } 11
  | some t =>
    let s := if again then s else s.countOverride c t m
    let (gs, lost) := s.templateSets t
    let m := { m with tpl := some t, sets := gs, seals := t.sealFields }
    if s.frcN (oCas c 3 1) = 0 then (s.setPend c m).fieldError c m 8
    else if lost then (s.setPend c m).fieldError c m 12
    else
      let (s, m) := s.drawTallies c m
      let (s, m) := s.drawRecords c m
      s.setPend c m

/-- Recompose the marks that `p` picks. -/
def State.recompose (s : State) (p : State → Nat → Mark → Bool) : State :=
  s.composing.foldl (fun s (c, m) =>
    match (s.casOf c).pend.find? (fun y => y.order = m.order) with
    | some m => if m.vote = none ∧ p s c m then s.beginMark c m true else s
    | none => s) s

/-- A tally write: the draws of pending marks from it are withdrawn and made again, in composition-start order (R67). -/
def State.redraw (s : State) (n : Nat) : State :=
  let hit (m : Mark) : Bool := m.vote == none && m.draws.any (fun d => !d.record && d.src = n)
  let s := s.composing.foldl (fun s (c, m) =>
    if hit m then s.setPend c { m with draws := m.draws.filter (fun d => d.record || d.src != n) } else s) s
  s.composing.foldl (fun s (c, m) =>
    let uses := m.vote == none && (m.tpl.map (fun t => (t.sources 4).contains n)).getD false
    if uses then
      let (s, m) := s.drawTallies c m
      let s := s.withdraw m.order none
      s.setPend c { m with vals := [], prepared := false, lines := [], unit := none,
                           seals := (m.tpl.map Template.sealFields).getD [] }
    else s) s

/-- Records in a pool go to the oldest pending mark whose record field has no draw (R67). -/
def State.giveRecords (s : State) (q : Nat) : State :=
  s.composing.foldl (fun s (c, m) =>
    if m.vote = none ∧ (m.tpl.map (fun t => (t.sources 5).contains q)).getD false ∧ !m.draws.any (fun d => d.record && d.src = q) then
      let (s, m) := s.drawRecords c m
      s.setPend c m
    else s) s

/-- Every pending mark with a seal from slot `k` loses it (R145). -/
def State.loseSeals (s : State) (k status : Nat) : State :=
  s.composing.foldl (fun s (c, m) =>
    if m.vote = none ∧ m.seals.any (fun q => q.slot = k) then s.sealError c m k status else s) s

/-! ## Head-service changes that wait for the next decision point -/

/-- Clear a defect or every defect (R230). -/
def State.clearDefect (s : State) (c e : Nat) : State :=
  let x := s.casOf c
  let back (s : State) (e : Nat) : State :=
    let code := recCode (s.getRec c e)
    s.setClass c e (s.classOf c (if code = 0 then s.rankCode c else code))
  if e = 0xFFFFFFFF then
    let s := s.setCasement c { x with defects := [] }
    let s := (List.range (s.ne c)).foldl (fun s e => if s.dead c e then back s e else s) s
    (s.setn (oCas c 0x0E 0x1C) 0).defectsChanged c
  else
    (back (s.setCasement c { x with defects := x.defects.filter (fun d => d.elem != e) }) e).defectsChanged c

/-- A new supply (R240). -/
def State.newSupply (s : State) (c full : Nat) : State :=
  let x := s.casOf c
  let s := s.setCasement c { x with ribbon := 0, spool := none }
  ((s.setn (oCas c 0x0F 3) (full : Nat)).setn (oCas c 0x0F 4) (2 ^ 64 - 1)).consumableStatus c

/-- Consumption charged to the counted estimate, which never falls below 0 (R236); for ribbon with a spool sensor it counts toward
the span, whose start is the supply spool's position at its first charge (R237). -/
def State.charge (s : State) (c v : Nat) : State :=
  let s := (s.setn (oCas c 0x0F 3) (s.nat (oCas c 0x0F 3) - v : Nat)).consumableStatus c
  if s.nat (oCas c 1 1) = 1 ∧ s.nat (oCas c 0x0F 5) = 3 then
    let x := s.casOf c
    s.setCasement c { x with ribbon := x.ribbon + v, spool := some (x.spool.getD (s.num (oAx (s.nat (oCas c 0x0F 6)) 1 8))),
                             span := if x.spool.isNone then s.nat (oCas c 0x0F 0x0A) else x.span }
  else s

/-- Is glyph set `n` pinned? -/
def State.pinned (s : State) (n : Nat) : Bool := s.nat (ky (0x5010 + n) 2) = 1

/-- Bytes of the pinned versions in force but of set `n` (R107); of all with n = 64. A version counts with its whole LENGTH, header
included: the spec does not say what of an image a set occupies (log 285). -/
def State.pinnedBytes (s : State) (n : Nat) : Nat :=
  ((s.comp.sets.filter (fun g => s.pinned g.number && g.number != n)).map GlyphSet.length).sum

/-- The blocks of 64 B that hold bytes [a, a + n) of a set version. -/
def blocksOf (g : GlyphSet) (a n : Nat) : List (Nat × Nat × Nat) :=
  if n = 0 then [] else (List.range ((a + n - 1) / 64 - a / 64 + 1)).map (fun i => (g.number, g.version, a / 64 + i))

/-- Every block of a set version: its map ranges, glyph records and bitmaps (R107). -/
def GlyphSet.blocks (g : GlyphSet) : List (Nat × Nat × Nat) :=
  (blocksOf g g.mapOff (8 * g.ranges.length) ++ blocksOf g g.tableOff (12 * g.glyphs.length) ++ blocksOf g g.bitmapOff g.bitmapLen).eraseDups

/-- Unpinned blocks that fit the type-case cache beside the pinned sets, most recently used first. -/
def State.keepBlocks (s : State) (l : List (Nat × Nat × Nat)) : State :=
  { s with comp := { s.comp with blocks := l.take (65536 - cdiv (s.pinnedBytes 64) 64) } }

/-- Glyph set `n` loses its pin: the blocks of its version in force stay cached and compete as unpinned ones from now on, as the most
recently used (R107, log 285). -/
def State.unpin (s : State) (n : Nat) : State :=
  match s.comp.sets.find? (fun g => g.number = n) with
  | some g => s.keepBlocks (g.blocks ++ s.comp.blocks.filter (fun b => !(b.1 == n && b.2.1 == g.version)))
  | none => s

/-- A version of glyph set `n` stops being in force: the blocks it held pinned stay where marks still use it (R107). -/
def State.releaseSet (s : State) (n : Nat) : State :=
  let used (g : GlyphSet) := s.cas.any (fun (_, x) => (x.pend ++ x.opened).any (fun m => m.sets.contains g))
  match s.comp.sets.find? (fun g => g.number = n) with
  | some g => if s.pinned n && used g then s.unpin n else s
  | none => s

/-- The Compositor, Ledger and Notary act on one change at ts + 2 us (R65, R67). -/
def State.applyChange (s : State) (ch : Change) : State :=
  match ch with
  | .template n v =>
    let s := { s with comp := { s.comp with
      templates := (s.comp.templates.filter (fun (t : Template) => t.number != n)) ++ v.toList
      cache := s.comp.cache.filter (· != n) } }
    s.recompose (fun s c m => s.templateNo c m = n)
  | .glyphSet n v =>
    let s := s.releaseSet n
    let s := { s with comp := { s.comp with sets := (s.comp.sets.filter (fun (g : GlyphSet) => g.number != n)) ++ v.toList } }
    let s := if v.isSome then s.keepBlocks s.comp.blocks
      else ((s.setn (ky (0x5010 + n) 1) 0).setn (ky (0x5010 + n) 2) 0).setn (ky (0x5010 + n) 3) 0
    s.recompose (fun _ _ m => (m.tpl.map (fun (t : Template) =>
      t.fields.any (fun f => decide (1 ≤ f.kind ∧ f.kind ≤ 5 ∧ f.set = n)))).getD false)
  | .tally n => s.redraw n
  | .record q => s.giveRecords q
  | .revoke k => s.loseSeals k 5
  | .disable k => s.loseSeals k 6
  | .declare c e =>
    let x := s.casOf c
    let s := if s.dead c e then s
      else s.setCasement c { x with opened := x.opened.map (fun m => if m.hide.contains e then m else { m with keep := e :: m.keep }) }
    s.declare c e 5
  | .clear c e =>
    let x := s.casOf c
    let es := if e = 0xFFFFFFFF then (List.range (s.ne c)).filter (s.dead c) else (if s.dead c e then [e] else [])
    let s := s.setCasement c { x with opened := x.opened.map (fun m =>
      { m with hide := (es.filter (fun e => !m.keep.contains e)) ++ m.hide }) }
    s.clearDefect c e
  | .newSupply c full => s.newSupply c full
  | .consume c v => s.charge c v
  | .hostSensor c v => (s.setn (oCas c 0x0F 4) (v : Nat)).consumableStatus c

/-- The calendar keys of R127. -/
def isCalKey (k : Nat) : Bool :=
  let i := k / 256
  i == 0x2304 || i == 0x2305 || i == 0x2306 || i == 0x2307 || decide (0x2310 ≤ i ∧ i < 0x2320)

/-- Does a template hold a date, time or shift token? -/
def Template.usesCal (t : Template) : Bool :=
  t.fields.any (fun f => hasFmt f.kind && f.toks.any (fun k => match k with
    | .date _ => true
    | _ => false))

/-- Does a template hold text variable `n`? -/
def Template.usesVar (t : Template) (n : Nat) : Bool :=
  t.fields.any (fun f => hasFmt f.kind && f.toks.contains (.tvar n))

/-- CHANGE_APPLY: everything whose ts + 2 us has come (R65, R67, R127), in time-stamp order. -/
def State.applyChanges (s : State) (t : Time) : State :=
  let (due, later) := s.comp.changes.partition (fun p => decide (p.1 + usT 2 ≤ t))
  let ws := s.waits.filter (fun w => decide (w.ts + usT 2 ≤ t))
  let s := ({ s with comp := { s.comp with changes := later } }).settle t
  let s := due.foldl (fun s p => s.applyChange p.2) s
  let keys := ws.map (fun w => w.key)
  if keys.isEmpty then s
  else s.recompose (fun _ c m =>
    (m.tplNo.isNone && keys.contains (oCas c 0 0x0A)) ||
    (match m.tpl with
      | some tp => (tp.usesCal && keys.any isCalKey)
          || keys.any (fun k => decide (0x5100 ≤ k / 256 ∧ k / 256 ≤ 0x51FF) && tp.usesVar (k / 256 - 0x5100))
      | none => false))

/-! ## Composition start (R66) -/

/-- Start composing the oldest pending mark that waits, where a galley buffer is free. -/
def State.startComposition (s : State) (c : Nat) : State :=
  let x := s.casOf c
  let used := x.opened.length + (x.pend.filter (fun m => m.comp.isSome)).length
  match x.pend.find? (fun m => m.comp.isNone && (!m.needReq || m.req.isSome)) with
  | some m =>
    if used < 2 then
      let k := s.comp.order + 1
      let s := { s with comp := { s.comp with order := k } }
      s.beginMark c { m with comp := some k, compT := s.now } false
    else s
  | none => s

def execCompositionStart (t : Time) (c : Fin 48) (s : State) : Step :=
  .next (((s.tick t).applyChanges t).startComposition c)

/-! ## Predicted times (R110) -/

/-- A setting of a mark. -/
def Mark.set_ (m : Mark) (k : Nat) : Val := tget dfl m.cfg k
def Mark.num (m : Mark) (k : Nat) : Int := (m.set_ k).int
def Mark.nat (m : Mark) (k : Nat) : Nat := (m.num k).toNat

/-- Landing position of line `n` (R57). -/
def Mark.lp (m : Mark) (n : Nat) : Int := m.s0 + (n * m.pitch : Nat)

/-- The latency compensation of a mark, ns (R188, R216). -/
def State.latency (s : State) (c : Nat) (m : Mark) : Int :=
  if s.frcN (oCas c 7 1) = 1 then m.num (oCas c 7 2) else wrapS 32 (s.recF c 0x24 4)

/-- The predicted trigger time of line `n`, none while the line axis stands or runs in reverse (R187, R190). -/
def State.trigT (s : State) (c : Nat) (m : Mark) (n : Nat) : Option Int :=
  let k := s.casAxis c
  let vf := s.laxVf 33 k
  if vf ≤ 0 then none
  else
    let d := wrapS 96 (m.lp n * step32 - s.laxP32 33 k s.now)
    some ((s.now : Int) + d * 65536000 / vf - s.latency c m * 4294967296)

/-- Time at which a distance in line steps is covered at `vf`, from now; now for a distance behind. -/
def State.reachTime (s : State) (d vf : Int) : Int :=
  (s.now : Int) + (if d ≤ 0 then 0 else d * 65536 * (usT 1 : Int) / max 1 vf)

/-- Urgency of a pending mark: its predicted decision time under R59 at present vf, or one second after its composition started. -/
def State.urgency (s : State) (c : Nat) (m : Mark) : Int :=
  let k := s.casAxis c
  let p := s.laxPos k s.now
  let vf := s.laxVf 33 k
  if vf ≤ 0 then (m.compT + secT 1 : Nat)
  else
    let byLa := s.reachTime (sdiff (wrapS 64 (m.s0 - m.la)) p) vf
    let byTl := s.reachTime (sdiff m.s0 p) vf - (usT (s.nat (oCas c 0 7) + 1) : Int)
    max (s.now : Int) (min byLa byTl)

/-- Does a mark of casement `c` stand among its open marks? -/
def State.isOpen (s : State) (c : Nat) (m : Mark) : Bool := (s.casOf c).opened.any (fun y => y.order == m.order)

/-- Lines of a mark's template. -/
def Mark.height (m : Mark) : Nat := (m.tpl.map Template.lines).getD 0

/-- Urgency of a unit's job (R110): of an open mark the predicted trigger time of its next uncomposed line, now while its line axis gives
none (log 284); of a pending mark its predicted decision time. -/
def State.jobUrgency (s : State) (c : Nat) (m : Mark) : Int :=
  if s.isOpen c m then (s.trigT c m m.lines.length).getD (s.now : Int) else s.urgency c m

/-- The marks that units may work on: those composing, and the open marks with lines not yet composed (R64, R110). -/
def State.jobs (s : State) : List (Nat × Mark) :=
  s.composing ++ s.cas.flatMap (fun (c, x) => (x.opened.filter (fun m => decide (m.lines.length < m.height))).map (fun m => (c, m)))

/-- Replace a mark that a unit works on, pending or open. -/
def State.setJob (s : State) (c : Nat) (m : Mark) : State := if s.isOpen c m then s.setOpen c m else s.setPend c m

/-! ## Anchors (R52 to R58) -/

/-- Anchors are captured in READY, MARKING and SAFE (R53). -/
def State.captures (s : State) : Bool := s.modeN == 4 || s.modeN == 5 || s.modeN == 7

/-- Pair waiting anchors with waiting entries, both in order (R54). -/
def State.pair (s : State) (c : Nat) : State :=
  let x := s.casOf c
  match x.pend.find? (fun m => m.needReq && m.req.isNone && m.vote.isNone), x.reqs with
  | some m, r :: rest =>
    (s.setCasement c { x with reqs := rest }).setPend c
      { m with req := some r, tplNo := r.template }
  | _, _ => s

/-- An entry that came less than 2 us before the decision of its anchor pairs with the next anchor (R54): entries keep their order, so each
later pending anchor takes the entry before its own, and one that composes begins again. -/
def State.rePair (s : State) (c : Nat) (r : ReqEntry) : State :=
  let x := s.casOf c
  let waits (m : Mark) : Bool := m.needReq && m.vote.isNone
  let had := x.pend.filter waits
  let s := s.setCasement c { x with
    reqs := r :: (had.filterMap Mark.req ++ x.reqs)
    pend := x.pend.map (fun m => if waits m then { m with req := none, tplNo := none } else m) }
  let s := had.foldl (fun s _ => s.pair c) s
  had.foldl (fun s m =>
    match (s.casOf c).pend.find? (fun y => y.order = m.order ∧ y.comp.isSome ∧ y.req ≠ m.req) with
    | some y => s.beginMark c y false
    | none => s) s

/-! ## The decision point (R59) -/

/-- Has the oldest undecided anchor of casement `c` reached its decision point? -/
def State.reached (s : State) (c : Nat) (m : Mark) : Bool :=
  let k := s.casAxis c
  let p := s.laxPos k s.now
  let vf := s.laxVf 33 k
  decide (0 ≤ vf) &&
    (decide (0 ≤ sdiff p (wrapS 64 (m.s0 - m.la))) ||
      decide (sdiff m.s0 p * 65536 ≤ vf * ((s.nat (oCas c 0 7) + 1 : Nat) : Int)))

/-- The settings of casement `c` that a mark keeps from its decision point (R213). -/
def markKeys (c : Nat) : List Nat :=
  [8, 0x0A, 0x0C, 0x0D].map (oCas c 0 ·) ++ [2, 3, 4, 5, 6, 7].map (oCas c 1 ·) ++ [9, 0x0A, 0x0B, 0x0C, 0x0D].map (oCas c 5 ·)
    ++ [2, 4, 5, 7].map (oCas c 7 ·) ++ (List.range 8).map (fun i => oCas c 8 (i + 1)) ++ [2, 6].map (oCas c 9 ·)
    ++ (List.range 32).map (fun i => oCas c 0x0A (i + 1)) ++ (List.range 5).map (fun i => oCas c 0x0B (i + 1))
    ++ [oCas c 0x0C 1, oCas c 0x0E 0x13]

/-- Those settings as they govern a mark decided at `tD`. -/
def State.snapshot (s : State) (c : Nat) (tD : Time) : Tbl Val :=
  (markKeys c).foldl (fun m k => tset dfl m k (s.dec k tD)) []

/-! ## Tones after substitution (R231, R232) -/

/-- The row offset dr in force: 0 in independent mode. -/
def State.rowOffset (s : State) (c : Nat) : Nat := if s.frcN (oCas c 0x0E 0x14) = 1 then s.nat (oCas c 0x0E 0x15) else 0

/-- The tone of element `e` in a composed line. -/
def lineTone (m : Mark) (n e : Nat) : Nat := (((m.lines[n]?).getD [])[e]?).getD 0

/-- The tones of line `n` after substitution, with `dead` the dead elements. -/
def State.subTones (s : State) (c : Nat) (m : Mark) (n : Nat) (dead : List Bool) : List Nat :=
  let ne := s.ne c
  let rows := max 1 (s.recF c 0x0E 1)
  let ta := (m.set_ (oCas c 0x0E 0x13)).bytes
  let assist (t : Nat) : Nat := min 3 ((ta[t]?).getD 0).toNat
  let isDead (e : Nat) : Bool := (dead[e]?).getD false
  let dr := s.rowOffset c
  let half := if dr = 0 then 0 else ne / 2
  (List.range ne).map (fun e =>
    if dr ≠ 0 ∧ half ≤ e then
      if isDead (e - half) ∧ dr ≤ n then lineTone m (n - dr) (e - half) else 0
    else
      let row (x : Nat) := if dr ≠ 0 then x / half else x * rows / max 1 ne
      let help (x : Nat) : Nat :=
        if x < ne ∧ row x = row e ∧ isDead x ∧ (dr = 0 ∨ isDead (x + half)) then assist (lineTone m n x) else 0
      let t := lineTone m n e
      if isDead e then t
      else max t (max (if e = 0 then 0 else help (e - 1)) (help (e + 1))))

/-- The dead elements of casement `c` for a mark: declarations and clears made since its decision do not touch it (R230). -/
def State.deadMask (s : State) (c : Nat) (m : Mark) : List Bool :=
  (List.range (s.ne c)).map (fun e => (s.dead c e && !m.keep.contains e) || m.hide.contains e)

/-- Lines a mark fires over: l, and dr more in redundant-row mode (R232). -/
def State.lineCount (s : State) (c : Nat) (m : Mark) : Nat := ((m.tpl.map Template.lines).getD 0) + s.rowOffset c

/-- The demand of a mark at its decision point (R70). -/
def State.demand (s : State) (c : Nat) (m : Mark) : Nat :=
  let l := s.lineCount c m
  match s.nat (oCas c 1 1) with
  | 1 => cdiv (l * m.pitch * 1000) 65536 + m.nat (oCas c 1 3)
  | 2 =>
    let dead := s.deadMask c m
    let k (t : Nat) := if t = 0 then 0 else m.nat (oCas c 1 (3 + t))
    let composed := m.lines.length + (if m.lines.length = l - s.rowOffset c then s.rowOffset c else 0)
    let drops := ((List.range composed).map (fun n => ((s.subTones c m n dead).map k).sum)).sum
    drops + (l - composed) * s.ne c * max (k 1) (max (k 2) (k 3))
  | _ => 0

/-- The GALLEY item (R62, R64). -/
def State.galleyOk (s : State) (c : Nat) (m : Mark) : Bool :=
  let p := s.laxPos (s.casAxis c) s.now
  let l := (m.tpl.map Template.lines).getD 0
  let d := sdiff m.s0 p
  let g := min l (max 1 (if d ≤ 0 then 1 else cdiv d.toNat (max 1 m.pitch)))
  m.err == 0 && m.tpl.isSome && m.prepared && decide (g ≤ m.lines.length) && m.seals.all (fun q => q.sig.isSome)

/-- Does a participant's template hold fields whose values separate devices would not agree on (R371)? -/
def Template.disagrees (t : Template) : Bool := t.fields.any (fun f => f.kind == 4 || f.kind == 5 || f.kind == 7)

/-- The FIELDS item (R62, R69, R371). -/
def State.fieldsOk (s : State) (c : Nat) (m : Mark) (tD : Time) : Bool :=
  match m.tpl.orElse (fun _ => if m.needReq && m.req.isNone then none else s.template (s.templateNo c m)) with
  | none => true
  | some t =>
    if s.noDraws c then !t.disagrees
    else
      (t.sources 5).all (fun q => m.draws.any (fun d => d.record && d.src = q && decide (d.ts + usT 2 ≤ tD))) &&
      t.fields.all (fun f => !(f.kind == 4 && bit f.flags 0) || !m.draws.any (fun d => !d.record && d.src = f.source && d.held))

/-- The SPEED item (R63). -/
def State.speedOk (s : State) (c : Nat) (m : Mark) : Bool :=
  let k := s.casAxis c
  let st := s.laxStatus k
  let vf := s.laxVf 33 k
  let pol := m.nat (oCas c 7 4)
  let tmin : Int := if pol ≤ 1 then s.num (oCas c 7 0x0A) else s.num (oCas c 7 9)
  let x := vf * (256 + m.num (oCas c 0 8)) * 1000000
  bit st 0 && !bit st 6 && decide (0 ≤ vf) && decide (x ≤ 96000 * 256 * 65536 * (m.pitch : Int)) &&
    decide (x * tmin ≤ 1000000000 * 256 * 65536 * (m.pitch : Int))

/-- Position of the last line of a committed mark. -/
def Mark.last (m : Mark) : Int := wrapS 64 (m.s0 + ((m.count - 1) * m.pitch : Nat))

/-- The SLOT item (R13, R62). A stitched mark that has voted yes holds its slot, so that its GO never makes a third mark or an overlap
(log 283). -/
def State.slotOk (s : State) (c : Nat) (m : Mark) (tD : Time) : Bool :=
  let x := s.casOf c
  let voted := x.pend.filter (fun y => y.vote == some true)
  decide (x.opened.length + voted.length < 2) &&
    (match (x.opened ++ voted).getLast? with
      | some o => decide (0 < sdiff m.s0 o.last)
      | none => true) &&
    (match (x.lastD.toList ++ voted.map Mark.tD).getLast? with
      | some d => decide (d + usT 2500 ≤ tD)
      | none => true)

/-- The failing items 1 to 9 as bits 0 to 8 (R62), for a mark that carries its settings and its demand. -/
def State.items (s : State) (c : Nat) (m : Mark) (tD : Time) : Nat :=
  let x := s.casOf c
  let before (o : Option Time) : Bool := match o with
    | some u => decide (u + usT 2 ≤ tD)
    | none => false
  let st := s.casState c
  let i1 := s.modeN == 5
  let i2 := (st == 3 || st == 4) && !before x.disarm && !before x.service
  let i3 := s.slotOk c m tD
  let i4 := s.headOk c tD m.set_
  let i5 := s.speedOk c m
  let i6 := !m.needReq || (match m.req with
    | some r => decide (max r.t m.t + usT 2 ≤ tD)
    | none => false)
  let i7 := s.fieldsOk c m tD
  let i8 := s.galleyOk c m
  let i9 := s.nat (oCas c 1 1) == 0 ||
    decide (m.reserve + m.nat (oCas c 1 2) + s.nat (oCas c 1 8) ≤ s.available c (m.nat (oCas c 1 7)))
  [i1, i2, i3, i4, i5, i6, i7, i8, i9].zipIdx.foldl (fun n (ok, i) => if ok then n else n + 2 ^ i) 0

/-- The lowest failing item, 0 for none. -/
def admitCode (fails : Nat) : Nat := ((setBits 11 fails).head?.map (· + 1)).getD 0

/-- Flags of a mark at its decision point: STITCHED, SEALED, DISAGREE, OVERRIDE, RECOMPOSED. -/
def State.markFlags (s : State) (c : Nat) (m : Mark) : Nat :=
  64 * b2n m.stitch.isSome + 8 * b2n (!m.seals.isEmpty) +
    4 * b2n (s.obit (oCas c 0x0F 0x0F) 0) + 2 * b2n (decide (m.nat (oCas c 1 7) ≠ 0)) +
    b2n m.recomposed

/-- Every participant of lead `c` has reported on a stitched mark. -/
def State.allReported (s : State) (c : Nat) (id : MarkId) : Bool :=
  match s.stitchOf id with
  | some x => (s.participants c).all (fun p => x.reports.contains p)
  | none => true

/-- The blank-line tolerance by which a lead judges reports on a stitched mark (R75): its own mark's, or the one in force. -/
def State.leadTolerance (s : State) (id : MarkId) : Nat :=
  let c := id.casement
  let x := s.casOf c
  match (x.opened ++ x.closing).find? (fun m => m.stitch = some id) with
  | some m => m.nat (oCas c 0 0x0C)
  | none => s.decN (oCas c 0 0x0C) s.now

/-- The lead's completion of a stitched mark that has closed (R75, R377): a bad report tags the product, as does a missing one, which
also sets STITCH_INCOMPLETE. -/
def State.leadFinish (s : State) (c : Nat) (m : Mark) (incomplete : Bool) : State :=
  let bad := (m.stitch.bind s.stitchOf).any Stitch.bad
  let (f, s) := if (incomplete ∨ bad) ∧ !bit m.flags 14 then s.rejectTag c m.key m.a incomplete else (0, s)
  let x := s.casOf c
  let s := { s with fab := { s.fab with stitches := s.fab.stitches.filter (fun y => some y.id != m.stitch) } }
  let s := s.setCasement c { x with closing := x.closing.filter (fun y => y.order != m.order) }
  s.complete c { m with flags := m.flags ||| f ||| 32 * b2n incomplete } (wrapU 64 m.tdDev).toNat (wrapU 64 m.fin).toNat

/-- A report has come: the lead's completion forms if it only waited for it. -/
def State.leadTry (s : State) (id : MarkId) : State :=
  let c := id.casement
  match (s.casOf c).closing.find? (fun m => m.stitch = some id) with
  | some m => if s.allReported c id then s.leadFinish c m false else s
  | none => s

/-- REPORT to the lead of a stitched mark, when a participant's completion forms (R75, R377). -/
def State.report (s : State) (c : Nat) (m : Mark) : State :=
  match m.stitch with
  | none => s
  | some id =>
    if s.role c ≠ 2 then s
    else
      let late := m.late + m.skipped
      if id.node = s.node then
        match s.stitchOf id with
        | some x =>
          (s.setStitch { x with
            reports := (s.node, c) :: x.reports
            bad := x.bad || bit m.flags 15 || bit m.flags 11 || decide (s.leadTolerance id < late) }).leadTry id
        | none => s
      else s.unicast 0x14 id.node (idBytes id ++ leBytes 1 c ++ leBytes 1 0 ++ leBytes 4 m.flags ++ leBytes 2 late ++ leBytes 2 0)

/-! ## Capture (R52 to R58) -/

/-- An overflow anchor (R56, R82): refused at capture. -/
def State.overflowAnchor (s : State) (c : Nat) (m : Mark) : State :=
  let s := (s.bump (oCas c 2 9)).event c 2 c
  let (f, s) := s.rejectTag c m.key m.a
  let m := { m with flags := 11 * 2 ^ 28 + 2 ^ 26 + 2 ^ 15 + f }
  let s := ((s.bump (oCas c 2 7)).setn (oCas c 2 8) 11)
  (s.complete c m (wrapU 64 m.dev).toNat (wrapU 64 m.dev).toNat).report c m

/-- Capture an anchor at position `a`, time stamp `t`, on casement `c` (R52, R54, R56, R57). `req` is the entry of anchor source 2,
`tag` and `tpl` those a lead sends. -/
def State.capture (s : State) (c : Nat) (key : TagKey) (a : Int) (t : Time) (req : Option ReqEntry) (stitch : Option MarkId)
    (sent : Option (Nat × Nat)) : State :=
  let x := s.casOf c
  let k := s.comp.order + 1
  let s := { s with comp := { s.comp with order := k } }
  let base := { Mark.init with key := key, order := k, a := wrapS 64 a, t := t, dev := s.devOf t, stitch := stitch, tD := t }
  let base := { base with tag := ((req.map ReqEntry.tag).orElse (fun _ => sent.map Prod.snd)).getD 0,
                          cookie := (req.map ReqEntry.cookie).getD 0 }
  if 64 ≤ x.pend.length then s.overflowAnchor c base
  else
    let src1 := s.nat (oCas c 0 1) = 1
    let seq := s.nat (oCas c 0 0x0F)
    let need := src1 ∧ s.nat (oCas c 0 9) ≠ 0
    let m := { base with
      tag := if req.isNone ∧ sent.isNone then seq else base.tag
      needReq := decide need || req.isSome
      req := req
      tplNo := (req.bind ReqEntry.template).orElse (fun _ => sent.map Prod.fst)
      s0 := wrapS 64 (a + s.num (oCas c 0 4)), pitch := s.nat (oCas c 0 5), la := s.nat (oCas c 0 6) }
    let s := if req.isNone ∧ sent.isNone then s.setn (oCas c 0 0x0F) ((seq + 1) % 2 ^ 32 : Nat) else s
    let s := s.setCasement c { x with pend := x.pend ++ [m], capSeq := (x.capSeq + 1) % 2 ^ 32 }
    (s.setn (oCas c 2 4) (x.pend.length + 1 : Nat)).pair c

/-- Position of the reference line axis for lead or participant `c`: the offset of its own axis from the fabric source it follows. -/
def State.axisOffset (s : State) (c : Nat) : Int :=
  let k := s.casAxis c
  let x := s.laxOf k
  if x.kind = 3 then wrapS 64 (x.foff / step32) else 0

/-- The reference source of lead `c` (R371): its own axis at this node, or that axis's fabric source. -/
def State.refSource (s : State) (c : Nat) : Nat :=
  let k := s.casAxis c
  let x := s.laxOf k
  if x.kind = 3 then x.inst else s.node * 32 + k

/-- A lead captures: the mark identity, the ANCHOR to each participant (R371, R372). -/
def State.leadAnchor (s : State) (c : Nat) (key : TagKey) (a : Int) (t : Time) (req : Option ReqEntry) : State :=
  let id : MarkId := ⟨s.node, c, (s.casOf c).capSeq⟩
  let full := 64 ≤ (s.casOf c).pend.length
  let s := s.capture c (if s.role c = 1 then .fabric id else key) a t req (if s.role c = 1 then some id else none) none
  if s.role c ≠ 1 ∨ full then s
  else
    match (s.casOf c).pend.getLast? with
    | none => s
    | some m =>
      let ref := s.refSource c
      let aref := wrapS 64 (a - s.axisOffset c)
      let ft := s.devOf t + s.num (ky 0x2400 8)
      let tpl := s.templateNo c m
      let payload := anchorBytes id ref aref (wrapU 64 ft).toNat tpl m.tagOf
      let ps := s.participants c
      let remote := (ps.filter (fun p => p.1 ≠ s.node)).map Prod.fst
      let st : Stitch := ⟨id, [], none, none, [], false, (remote.eraseDups).map (fun n => (n, payload)), false, m.a⟩
      let s := { s with fab := { s.fab with stitches := s.fab.stitches ++ [st] } }
      let s := remote.eraseDups.foldl (fun s n => s.unicast 0x10 n payload) s
      ps.foldl (fun s (n, c') =>
        if n = s.node ∧ s.nat (oCas c' 0 1) = 3 then
          s.capture c' (.fabric id) (wrapS 64 (aref + s.axisOffset c')) t none (some id) (some (tpl, m.tagOf))
        else s) s

/-! ## Refusal and commitment -/

/-- MARK_REFUSE (R10, R68, R69, R76): the draws are voided, late records go back to the head of their pools, the product is tagged,
the completion is written. -/
def State.refuse (s : State) (c : Nat) (m : Mark) (fails : Nat) : State :=
  let tD := s.now
  let vT := if m.stitch.isSome ∧ m.vote.isSome then m.tD else tD
  let good (d : Draw) : Bool := !d.record || decide (d.ts + usT 2 ≤ vT)
  let void := m.draws.filter good
  let s := (m.draws.filter (fun d => !good d)).reverse.foldl (fun s d =>
    let q := s.qOf d.src
    s.setQ d.src { q with pool := (d.data, d.value, d.ts) :: q.pool }) s
  let s := s.withdraw m.order none
  let s := s.dropPend c m
  -- an entry that came less than 2 us before the decision pairs with the next anchor (R54)
  let s : State := match m.req with
    | some r =>
      if bit fails 5 ∧ s.nat (oCas c 0 1) = 1 then
        s.rePair c r
      else s
    | none => s
  let m := if bit fails 5 ∧ s.nat (oCas c 0 1) = 1 then { m with req := none } else m
  let (f, s) := if m.stitch.isSome ∧ s.role c = 2 then (0, s) else s.rejectTag c m.key m.a
  let flags := admitCode fails * 2 ^ 28 + fails * 2 ^ 16 + 2 ^ 15 + f + 16 * b2n (!void.isEmpty) + s.markFlags c m
  let m := { m with flags := flags, voided := void, fails := fails, tdDev := s.dev, count := s.lineCount c m }
  let s := (s.bump (oCas c 2 7)).setn (oCas c 2 8) (admitCode fails : Nat)
  (s.complete c m (wrapU 64 s.dev).toNat (wrapU 64 s.dev).toNat).report c m

/-- MEASUREMENT_ABANDON (R228): a cycle in progress ends, with a pulse that runs, and the measurement frame the head holds is cancelled. -/
def State.abandonMeasure (s : State) (c : Nat) : State :=
  let x := s.casOf c
  match x.meas with
  | some m =>
    if m.kind = 0 then
      let s := s.setCasement c { x with meas := none }
      let s := if s.nat (oCas c 0x0D 1) = 1 then s.bump (oCas c 0x0D 0x0A) else s
      let s := if m.start c ≤ s.now then s.measPulse c m else s
      if s.now < m.stop c then
        (if m.start c ≤ s.now then s.send (.strobeEnd c s.now) else s).sendCancel c ((x.seqNo + 65535) % 65536)
      else s
    else s
  | none => s

/-- MARK_COMMIT (R60, R71, R213). -/
def State.commitMark (s : State) (c : Nat) (m : Mark) : State :=
  let s := s.abandonMeasure c
  let s := s.dropPend c m
  let m := { m with tD := if m.stitch.isSome ∧ m.vote.isSome then s.now else m.tD, tdDev := s.dev, flags := s.markFlags c m,
                    count := s.lineCount c m }
  let x := s.casOf c
  let s := s.setCasement c { x with opened := x.opened ++ [m], lastD := some s.now }
  let s := (s.setn (oCas c 2 5) (x.opened.length + 1 : Nat)).bump (oCas c 2 6)
  let s := s.setn (oCas c 1 8) (s.nat (oCas c 1 8) + m.reserve : Nat)
  let s := if s.casState c = 3 then s.setCas c 4 else s
  s.talCount 2 c

/-- SHORTAGE (R72) follows the CONSUMABLE item. -/
def State.shortage (s : State) (c : Nat) (fails : Nat) : State :=
  if bit fails 8 then (s.setbit (oCas c 2 3) 0 true).event c 1 c
  else s.setbit (oCas c 2 3) 0 false

/-- The predicted GO deadline in fabric time (R373): (s - pu - vf * 51) / vf after now. -/
def State.goDeadline (s : State) (c : Nat) (m : Mark) : Int :=
  let k := s.casAxis c
  let vf := s.laxVf 33 k
  let d := sdiff m.s0 (s.laxPos k s.now)
  if vf ≤ 0 then s.ftime + 1000000000 else s.ftime + (d * 65536 - vf * 51) * 1000 / vf

/-- h of R378: the most hops between the lead of a stitched mark and a participant, this one or each of the lead's, over any tree. -/
def State.tripHops (s : State) (c : Nat) (id : MarkId) : Nat :=
  if s.role c = 1 then ((s.participants c).map (fun (n, _) => s.mostHops n)).foldl max 0 else s.mostHops id.node

/-- Does casement `c`'s lead time exceed the vote round trip by 50 us (R74, R378)? -/
def State.leadTimeOk (s : State) (c : Nat) (id : MarkId) : Bool :=
  decide (2 + 2 * s.tripHops c id + 50 < s.nat (oCas c 0 7))

/-- GO or ABORT reaches a stitched casement of this device (R74, R374, R375): the mark that has voted is committed, or refused, as it is
where the casement's lead time is too short (R378) or the node is in CONFLICT (R363). -/
def State.stitchEnd (s : State) (c : Nat) (id : MarkId) (go : Bool) : State :=
  match (s.casOf c).pend.find? (fun m => m.stitch = some id ∧ m.vote.isSome) with
  | some m => if go && m.vote == some true && s.leadTimeOk c id && !s.fab.conflict then s.commitMark c m else s.refuse c m (m.fails ||| 512)
  | none => s

/-- The lead's one decision on a stitched mark (R374): multicast, and applied to its own casements. -/
def State.stitchDecide (s : State) (x : Stitch) (go : Bool) : State :=
  let c := x.id.casement
  let s := s.setStitch { x with decided := some go, closed := !go }
  let s := if go then s else (s.bump (oStitch c 0x12)).event 0xD6 0x0732 c
  let s := s.multicast (if go then 0x12 else 0x13) (idBytes x.id) none s.node
  (c :: ((s.participants c).filter (fun p => p.1 = s.node)).map Prod.snd).foldl (fun s c' => s.stitchEnd c' x.id go) s

/-- The members of a lead's group: itself and its participants. -/
def State.members (s : State) (c : Nat) : List (Nat × Nat) := (s.node, c) :: s.participants c

/-- 1 us + 1 us * hmax in ns (R374). -/
def State.goTravel (s : State) (c : Nat) : Int := ((1000 + 1000 * s.hmax c : Nat) : Int)

/-- The test of R374 on every vote and every 1 us update. -/
def State.stitchTest (s : State) (id : MarkId) : State :=
  match s.stitchOf id with
  | none => s
  | some x =>
    let c := id.casement
    if x.decided.isSome then s
    else if s.fab.conflict || x.votes.any (fun v => !v.2.2) then s.stitchDecide x false
    else if (s.members c).all (fun p => x.votes.any (fun v => v.1 = p.1 ∧ v.2.1 = p.2)) then
      s.stitchDecide x (decide (s.count + s.goTravel c ≤ x.deadline.getD 0))
    else s

/-- A vote entered at its lead, with the earliest deadline known; a deadline is kept on the monotonic count, so that a time step moves no
decision (R119). -/
def State.addVote (s : State) (id : MarkId) (node c : Nat) (yes : Bool) (dl : Nat) : State :=
  match s.stitchOf id with
  | some x =>
    if x.decided.isSome ∨ x.votes.any (fun v => v.1 = node ∧ v.2.1 = c) then s
    else
      let dl := s.ofFtime (dl : Nat)
      (s.setStitch { x with votes := (node, c, yes) :: x.votes,
                            deadline := some (match x.deadline with
                              | some d => min d dl
                              | none => dl) }).stitchTest id
  | none => s

/-- A stitched casement votes (R73, R373): a lead keeps its vote, a participant sends it. -/
def State.castVote (s : State) (c : Nat) (m : Mark) (id : MarkId) (fails : Nat) : State :=
  let dl := s.goDeadline c m
  let s := s.setPend c { m with vote := some (decide (fails = 0)), fails := fails, tD := s.now, tdDev := s.dev }
  if id.node = s.node then s.addVote id s.node c (decide (fails = 0)) (wrapU 64 dl).toNat
  else
    s.unicast 0x11 id.node (idBytes id ++ leBytes 1 (b2n (decide (fails ≠ 0))) ++ leBytes 1 0 ++ leBytes 2 (fails % 512)
      ++ leBytes 8 (wrapU 64 dl).toNat)

/-- The decision of the oldest undecided anchor (R59 to R74), with its inputs at hand. -/
def State.decide_ (s : State) (c : Nat) (m : Mark) : State :=
  let tD := s.now
  let m := { m with cfg := s.snapshot c tD, tD := tD, tdDev := s.dev }
  let m := { m with reserve := s.demand c m }
  let fails := s.items c m tD
  let s := s.shortage c fails
  match m.stitch with
  | some id => s.castVote c m id fails
  | none =>
    if fails = 0 then s.commitMark c m
    else s.refuse c m fails

/-- Every pending anchor on a line axis that becomes LOST is decided at once (R61). -/
def State.decideLost (s : State) (k : Nat) : State :=
  let s := s.applyChanges s.now
  (List.range 48).foldl (fun s c =>
    if s.casAxis c = k then
      ((s.casOf c).pend.filter (fun m => m.vote.isNone)).foldl (fun s m =>
        match (s.casOf c).pend.find? (fun y => y.order = m.order) with
        | some m => s.decide_ c m
        | none => s) s
    else s) s

end Sys2Proof.Machine
end

