-- ==== Sys2Proof/Machine/Otp.lean ====
section
/-! DEFINITION. The one-time array: reads, redirection and the programming engine (R402 to R408, R415, R417, R418). -/

namespace Sys2Proof.Machine

/-! ## Rows -/

/-- The copies of a redundant row (R402, R403); none for a row of another kind. -/
def otpCopies (r : Nat) : List Nat :=
  if (0x010 ≤ r ∧ r ≤ 0x015) ∨ (0x01C ≤ r ∧ r ≤ 0x01E) then (List.range 3).map (· + (r - (r - 0x010) % 3))
  else if 0x016 ≤ r ∧ r ≤ 0x01B then (List.range 3).map (fun i => 0x016 + r % 2 + 2 * i)
  else if 0x100 ≤ r ∧ r < 0x200 ∧ 0x10 ≤ r % 0x20 ∧ r % 0x20 ≤ 0x12 then (List.range 3).map (· + (r - r % 0x20 + 0x10))
  else []

/-- A protected row (R402, R403). -/
def otpProtected (r : Nat) : Bool := decide ((0x0E0 ≤ r ∧ r ≤ 0x0E7) ∨ (0x100 ≤ r ∧ r < 0x200 ∧ r % 0x20 < 8))

/-- Where row `r` lies: the spare of the highest entry that names it (R405). -/
def State.otpLoc (s : State) (r : Nat) : Nat :=
  match ((s.otp.redirect.zipIdx.filter (fun p => p.1 = r)).map Prod.snd).getLast? with
  | some i => 0x400 + i
  | none => r

/-- A row of the array as a read finds it, the redirection applied. -/
def State.otpRaw (s : State) (r : Nat) : Nat := tget (fun _ => 0) s.otp.array (s.otpLoc r)

/-- A row of the shadow. -/
def State.otpShadow (s : State) (r : Nat) : Nat := tget (fun _ => 0) s.otp.shadow r

/-- The 39 bits of an ECC row that holds `v`. -/
def otpWord (v : Nat) : Nat := v % 2 ^ 32 + (Config.otpCheck (BitVec.ofNat 32 v)).toNat * 2 ^ 32

/-- Does a raw row stand in the code? A blank row does. -/
def otpValid (raw : Nat) : Bool := raw == 0 || raw == otpWord raw

/-- An ECC row read (R402, R404): its data, and 0 good, 1 corrected, 2 uncorrectable. -/
def otpDecode (raw : Nat) : Nat × Nat :=
  if otpValid raw then (raw % 2 ^ 32, 0)
  else match (List.range 39).find? (fun i => otpValid (raw ^^^ 2 ^ i)) with
    | some i => ((raw ^^^ 2 ^ i) % 2 ^ 32, 1)
    | none => (0, 2)

/-- Bitwise majority of three words. -/
def majority (a b c : Nat) : Nat := (a &&& b) ||| (a &&& c) ||| (b &&& c)

/-- The value of a row, as the units that use it read it: a redundant value by majority, a failed row 0 (R404, R412). -/
def State.otpVal (s : State) (r : Nat) : Nat :=
  match otpCopies r with
  | [a, b, c] => majority (s.otpShadow a) (s.otpShadow b) (s.otpShadow c) % 2 ^ 32
  | _ => (otpDecode (s.otpShadow r)).1

/-- `n` rows from `r` as one number, the lowest row least significant (R403). -/
def State.otpNum (s : State) (r : Nat) : Nat → Nat
  | 0 => 0
  | n + 1 => s.otpVal r + s.otpNum (r + 1) n * 2 ^ 32

/-- The lifecycle that the rows spell (R407). -/
def State.otpLifecycle (s : State) : Nat :=
  let v := s.otpVal 0x010 % 8
  if v = 0 ∨ v = 1 ∨ v = 3 then v else 7

/-- The security version counter: the number of 1 bits (R403). -/
def State.otpSecurity (s : State) : Nat := (setBits 32 (s.otpVal 0x016)).length + (setBits 32 (s.otpVal 0x017)).length

/-- State of a Notary slot from its rows (R142): 0 EMPTY, 1 ACTIVE, 2 REVOKED. -/
def State.otpSlot (s : State) (k : Nat) : Nat :=
  let v := s.otpVal (0x110 + 0x20 * k)
  if bit v 1 then 2 else if bit v 0 then 1 else 0

/-- The scalar of a slot (log 17: the rows hold it as it was imported). -/
def State.slotScalar (s : State) (k : Nat) : Nat := s.otpNum (0x100 + 0x20 * k) 8

/-- The lifecycle in force, as read at the last start. -/
def State.lifecycle (s : State) : Nat := s.nat (ky 0x2620 1)

/-- Put a word into the shadow and the array at the place of row `r`. -/
def State.otpPut (s : State) (r word : Nat) : State :=
  { s with otp := { s.otp with array := tset (fun _ => 0) s.otp.array (s.otpLoc r) word
                               shadow := tset (fun _ => 0) s.otp.shadow r word } }

/-! ## Reads (R415) -/

/-- The row whose content row `r` holds: a spare holds that of the row its redirection entry names (R405). -/
def State.otpNamed (s : State) (r : Nat) : Nat := if 0x400 ≤ r then (s.otp.redirect[r - 0x400]?).getD r else r

/-- A read into OTP_DATA and OTP_STATUS of `raw`, with the WEAK bit. A protected row returns 0, and a spare that holds one too (R144, R402). A user row that is uncorrectable gives no stated data. -/
def State.otpReadOut (s : State) (row raw : Nat) (weak : Bool) : State :=
  let red := 16 * b2n (s.otpLoc row != row)
  let w := 8 * b2n weak
  if otpProtected (s.otpNamed row) then { s with otp := { s.otp with data := 0, status := red + w } }
  else match otpCopies row with
    | [a, b, c] =>
      let v := majority (s.otpShadow a) (s.otpShadow b) (s.otpShadow c) % 2 ^ 32
      { s with otp := { s.otp with data := v, status := raw / 2 ^ 32 % 128 * 65536 + red + w } }
    | _ =>
      let (d, k) := otpDecode raw
      let st := raw / 2 ^ 32 % 128 * 65536 + red + w + (if k = 1 then 2 else if k = 2 then 4 else 0)
      let (d, s) := if k = 2 ∧ 0x200 ≤ row then s.free 32 else (d, s)
      let s := if k = 1 then { s with otp := { s.otp with corrected := s.otp.corrected + 1 } } else s
      { s with otp := { s.otp with data := d, status := st } }

/-- OTP_CTRL.READ: a read of OTP_ROW from the shadow. -/
def State.otpRead (s : State) : State :=
  let r := s.otp.row
  if 0x40F < r then { s with otp := { s.otp with data := 0, status := 0 } }
  else if 0x400 ≤ r then s.otpReadOut r (tget (fun _ => 0) s.otp.array r) false
  else s.otpReadOut r (s.otpShadow r) false

/-- OTP_CTRL.MARGIN: a margin read of OTP_ROW from the array; `weak` are the bits that the raised threshold loses. -/
def State.otpMargin (s : State) (weak : BitVec 39) : State :=
  let r := s.otp.row
  let s := { s with otp := { s.otp with margin := false } }
  if 0x40F < r then { s with otp := { s.otp with data := 0, status := 0 } }
  else
    let raw := if 0x400 ≤ r then tget (fun _ => 0) s.otp.array r else s.otpRaw r
    s.otpReadOut r raw (decide (raw &&& weak.toNat ≠ 0))

def execOtpRead (t : Time) (s : State) : Step :=
  let s := s.tick t
  if s.modeN = 0 then .next s else .next s.otpRead

def execOtpMarginRead (t : Time) (weak : BitVec 39) (s : State) : Step :=
  let s := s.tick t
  if s.modeN = 0 then .next s else .next (s.otpMargin weak)

/-! ## Programming (R406, R408) -/

/-- May a lifecycle's user program row `r` (R407)? -/
def otpUserRow (life r : Nat) : Bool :=
  let common := decide (0x200 ≤ r ∨ (0x013 ≤ r ∧ r ≤ 0x01E))
  match life with
  | 0 => true
  | 1 => common || decide (0x020 ≤ r ∧ r ≤ 0x03F)
  | 3 => common
  | _ => false

/-- The temperature lets the engine burn (R406). -/
def State.otpWarm (s : State) : Bool := decide (0 ≤ s.num (ky 0x2200 8) ∧ s.num (ky 0x2200 8) ≤ 85)

/-- Is the engine at work or owed work? -/
def State.otpBusy (s : State) : Bool := s.otp.job.isSome || !s.otp.owed.isEmpty

/-- Give the engine a job; it waits while another is burned. -/
def State.otpStart (s : State) (j : OtpJob) : State :=
  if s.otp.job.isNone then { s with otp := { s.otp with job := some j } }
  else { s with otp := { s.otp with owed := s.otp.owed ++ [j] } }

/-- A new redirection entry for row `r` with its spare programmed (R405); none where no spare is left. -/
def State.otpRedirect (s : State) (r word : Nat) : Option State :=
  let n := s.otp.redirect.length
  if 16 ≤ n then none
  else
    let s := { s with otp := { s.otp with redirect := s.otp.redirect ++ [r] } }
    let s := ((s.otpPut r word).setn (ky 0x2620 4) (n + 1 : Nat)).event 0xFE 0x0C13 0
    some (if n = 15 then s.event 0xFE 0x0C14 0 else s)

/-- Burn one row (R406, R408): result 0 OK or 3 NO_SPARE. `weak`: a bit stays weak or wrong after the re-burns. -/
def State.otpBurn (s : State) (r v : Nat) (weak : Bool) : Nat × State :=
  let fail (s : State) : Nat × State := (3, (s.fault 45 0 0 r).event 0xFE 0x0C12 0)
  match otpCopies r with
  | [a, b, c] =>
    let s := [a, b, c].foldl (fun s x => s.otpPut x (s.otpRaw x ||| v)) s
    if weak then match s.otpRedirect r (s.otpRaw r) with
      | some s => (0, s)
      | none => fail s
    else (0, s)
  | _ =>
    let word := otpWord v
    let raw := s.otpRaw r
    if raw ≠ 0 ∧ raw ≠ word then
      match s.otpRedirect r word with
      | some s => (0, s)
      | none => fail s
    else
      let s := s.otpPut r word
      if weak then match s.otpRedirect r word with
        | some s => (0, s)
        | none => fail s
      else (0, s)

/-- The refusal of a program execute, with the result that is written (R406, R408): busy, 1 LIFECYCLE, 2 PROTECTED, 5 TEMPERATURE. -/
def State.otpProgramCheck (s : State) : Option (Refuse × Option Nat) :=
  let r := s.nat (ky 0x2621 1)
  if s.otpBusy then some (.state, none)
  else if otpProtected r ∨ (0x100 ≤ r ∧ r < 0x200) then some (.range, some 2)
  else if !otpUserRow s.lifecycle r then some (.state, some 1)
  else if !s.otpWarm then some (.state, some 5)
  else none

/-- A program execute accepted. -/
def State.otpProgramAct (s : State) : State :=
  (s.setn (ky 0x2621 4) 0xFF).otpStart ⟨s.nat (ky 0x2621 1), s.nat (ky 0x2621 2), 0, []⟩

/-- The refusal of an advance, revocation or policy burn (0x2622 to 0x2624) that the lifecycle, the engine or the temperature forbids. -/
def State.otpSysCheck (s : State) : Option Refuse :=
  if s.otpBusy ∨ s.lifecycle = 7 ∨ !s.otpWarm then some .state else none

/-- LIFECYCLE_ADVANCE: the target must be a later state (R407). -/
def State.lifecycleCheck (s : State) : Option Refuse :=
  match s.otpSysCheck with
  | some r => some r
  | none => if s.nat (ky 0x2622 1) ≤ s.otpLifecycle then some .range else none

def State.lifecycleAct (s : State) : State := s.otpStart ⟨0x010, s.nat (ky 0x2622 1), 3, []⟩

/-- SET_RESTRICT and SET_DEBUG_LOCK burn bits of 0x013 to 0x015. -/
def State.policyAct (s : State) (lock : Bool) : State := s.otpStart ⟨0x013, if lock then 2 else 1, 3, []⟩

/-- REVOKE_FIRMWARE_KEY: not the running key (R418). -/
def State.revokeKeyCheck (s : State) (k : Nat) : Option Refuse :=
  match s.otpSysCheck with
  | some r => some r
  | none => if (s.otp.image.map Image.key) = some k then some .range else none

def State.revokeKeyAct (s : State) (k : Nat) : State := s.otpStart ⟨0x01C, 2 ^ k, 3, []⟩

/-- ADVANCE_SECURITY_COUNTER: no higher than the running image's SEC_VERSION (R417). -/
def State.securityCheck (s : State) (v : Nat) : Option Refuse :=
  match s.otpSysCheck with
  | some r => some r
  | none => if ((s.otp.image.map Image.sec).getD 0) < v then some .range else none

/-- The counter to `v`; a lower value leaves it as it is. -/
def State.securityAct (s : State) (v : Nat) : State :=
  if v ≤ s.otpSecurity then s
  else
    let bits := 2 ^ v - 1
    s.otpStart ⟨0x016, bits % 2 ^ 32, 3, if 32 < v then [(0x017, bits / 2 ^ 32)] else []⟩

/-! ## Notary slots (R142 to R146, R150) -/

/-- State object of slot `k`, with its event (R150). -/
def State.setSlot (s : State) (k v : Nat) : State :=
  if s.nat (ky (0x5210 + k) 1) = v then s
  else (s.setn (ky (0x5210 + k) 1) (v : Nat)).event 0xF7 0x0A21 k [BitVec.ofNat 8 v]

/-- The public key of a slot made readable (R144, R146). -/
def State.showKey (s : State) (k : Nat) : State :=
  let (x, y) := publicKey (s.slotScalar k)
  let d := keyDigest x y
  ((s.setv (ky (0x5210 + k) 2) (.str x)).setv (ky (0x5210 + k) 3) (.str y)).setn (ky (0x5210 + k) 4) (beNat (d.take 8) : Nat)

/-- The rows of an import (R144): scrambled scalar, digest of the public key, state ACTIVE. -/
def importRows (k : Nat) (scalar : Bytes) : List (Nat × Nat) :=
  let (x, y) := publicKey (beNat scalar)
  let d := beNat (keyDigest x y)
  let b := 0x100 + 0x20 * k
  (List.range 8).map (fun i => (b + i, beNat scalar / 2 ^ (32 * i) % 2 ^ 32))
    ++ (List.range 8).map (fun i => (b + 8 + i, d / 2 ^ (32 * i) % 2 ^ 32)) ++ [(b + 0x10, 1)]

/-- A job ends with a result: its object, and the Notary slot it serves. -/
def State.otpFinish (s : State) (j : OtpJob) (res : Nat) : State :=
  match j.why with
  | 0 => s.setn (ky 0x2621 4) (res : Nat)
  | 1 =>
    let k := s.notary.importing.getD 0
    let s := { s with notary := { s.notary with importing := none } }
    if res = 0 then (((s.setn (ky 0x5201 4) 0).setn (ky 0x5200 5) 0).showKey k).setSlot k 1 else (s.setn (ky 0x5201 4) 11).setn (ky 0x5200 5) 11
  | 2 =>
    let k := s.notary.revoking.getD 0
    let s := { s with notary := { s.notary with revoking := none } }
    if res = 0 then ((s.setn (ky 0x5202 3) 0).setn (ky 0x5200 5) 0).setSlot k 2 else (s.setn (ky 0x5202 3) 11).setn (ky 0x5200 5) 11
  | _ => s

/-- Programming of a row ends (R406): the next row of the job, or its end and the next job. -/
def execOtpProgramDone (t : Time) (weak : Bool) (s : State) : Step :=
  let s := s.tick t
  match s.otp.job with
  | none => .next s
  | some j =>
    let (res, s) := s.otpBurn j.row j.value weak
    match res, j.rest with
    | 0, (r, v) :: rest => .next { s with otp := { s.otp with job := some ⟨r, v, j.why, rest⟩ } }
    | _, _ =>
      let s := s.otpFinish j res
      .next { s with otp := { s.otp with job := s.otp.owed.head?, owed := s.otp.owed.drop 1 } }

end Sys2Proof.Machine
end

