-- ==== Sys2Proof/Machine/Compositor.lean ====
section
/-! DEFINITION. The Compositor: commits, type case, composition units and overflow refills (R85 to R87, R100, R105 to R118, R268). -/

namespace Sys2Proof.Machine

/-! ## Commits -/

/-- The commit object of a kind (R86, R268). -/
def commitIdx : CommitKind → Nat
  | .template => 0x5001
  | .glyphSet => 0x5002
  | .rotorTable => 0x2041

/-- DATA byte 0 of event 0xF1. -/
def commitCode : CommitKind → Nat
  | .template => 0
  | .glyphSet => 1
  | .rotorTable => 2

/-- The commit of a kind that is being validated. -/
def State.committing (s : State) : CommitKind → Option Commit
  | .template => s.comp.commitT
  | .glyphSet => s.comp.commitG
  | .rotorTable => s.comp.commitR

/-- Set the commit being validated. -/
def State.setCommitting (s : State) (k : CommitKind) (c : Option Commit) : State :=
  match k with
  | .template => { s with comp := { s.comp with commitT := c } }
  | .glyphSet => { s with comp := { s.comp with commitG := c } }
  | .rotorTable => { s with comp := { s.comp with commitR := c } }

/-- The commit that an execute write would start. -/
def State.stagedCommit (s : State) (k : CommitKind) (p : Path) : Commit :=
  let i := commitIdx k
  ⟨s.nat (ky i 1), s.nat (ky i 2), s.nat (ky i 3), p⟩

/-- Versions of templates held in the store: those in force, those that marks still use, and those about to apply (R87). -/
def State.storeTemplates (s : State) : List Template :=
  let used := s.cas.flatMap (fun (_, x) => (x.pend ++ x.opened).filterMap Mark.tpl)
  let next := s.comp.changes.filterMap (fun p => match p.2 with
    | .template _ v => v
    | _ => none)
  (s.comp.templates ++ used ++ next).eraseDups

/-- Versions of glyph sets held in the type-case area. -/
def State.storeSets (s : State) : List GlyphSet :=
  let used := s.cas.flatMap (fun (_, x) => (x.pend ++ x.opened).flatMap Mark.sets)
  let next := s.comp.changes.filterMap (fun p => match p.2 with
    | .glyphSet _ v => v
    | _ => none)
  (s.comp.sets ++ used ++ next).eraseDups

/-- An INTEGER16 column entry of a rotor-angle table, as it is stored. -/
def rotorData (img : Bytes) (n : Nat) : List Nat := (List.range n).map (fun i => fieldLE img (0x10 + 2 * i) 2)

/-- Validate a rotor-angle table (R268). -/
def readRotor (img : Bytes) (length : Nat) : Nat × List Nat :=
  let cols := fieldLE img 5 1
  let n := fieldLE img 6 2
  if fieldLE img 0 4 ≠ 0x5453444B ∨ fieldLE img 4 1 ≠ 1 ∨ fieldLE img 8 4 ≠ 0 then (3, [])
  else if crc32 (zero4 img 0x0C) ≠ fieldLE img 0x0C 4 then (4, [])
  else if (cols ≠ 2 ∧ cols ≠ 3) ∨ (n ≠ 256 ∧ n ≠ 1024) ∨ length ≠ 0x10 + 2 * cols * n then (5, [])
  else (0, cols :: n :: rotorData img (cols * n))

/-- What a commit stores when it passes. -/
inductive Stored where
  | tpl (v : Option Template)
  | set (v : Option GlyphSet)
  | rotor (v : List Nat)
  deriving DecidableEq, Repr

/-- Validate a commit (R86, R100, R268): its result code and what it stores. -/
def State.validate (s : State) (k : CommitKind) (c : Commit) : Nat × Stored :=
  match k with
  | .template =>       -- code 9 looks at the sets in force: between a set's commit and ts + 2 us it is not, though its Loaded object reads 1 (log 291)
    if c.length = 0 then (0, .tpl none)
    else if !s.inDram c.addr c.length then (2, .tpl none)
    else
      match readTemplate (s.dramRead c.addr c.length) c.number c.length s.comp.sets
          (fun n => s.nat (ky (0x5210 + n) 1) = 1) with
      | (0, some t) =>
        if s.frcN (ky 0x5000 2) < ((s.storeTemplates.map Template.length).sum + c.length) then (11, .tpl none) else (0, .tpl (some t))
      | (e, _) => (e, .tpl none)
  | .glyphSet =>
    if c.length = 0 then (0, .set none)
    else if !s.inDram c.addr c.length then (2, .set none)
    else
      match readGlyphSet (s.dramRead c.addr c.length) c.number c.length s.comp.version with
      | (0, some g) =>
        if s.frcN (ky 0x5000 4) < ((s.storeSets.map GlyphSet.length).sum + c.length)
            ∨ (s.pinned c.number ∧ 2097152 < s.pinnedBytes c.number + c.length) then (11, .set none)
        else (0, .set (some g))
      | (e, _) => (e, .set none)
  | .rotorTable =>
    if !s.inDram c.addr c.length then (2, .rotor [])
    else
      let (e, l) := readRotor (s.dramRead c.addr c.length) c.length
      (e, .rotor l)

/-- A commit that passed is stored: its time stamp, and its application under R65 (R85, R87, R100, R268). -/
def State.storeCommit (s : State) (k : CommitKind) (c : Commit) (v : Stored) : State :=
  let ts := s.now
  let s := s.setn (ky (commitIdx k) 5) 0
  let later (s : State) (ch : Change) : State := { s with comp := { s.comp with changes := s.comp.changes ++ [(ts, ch)] } }
  match v with
  | .tpl t => later (s.setn (ky 0x5001 6) s.dev) (.template c.number t)
  | .set g =>
    let s := { s with comp := { s.comp with version := s.comp.version + 1 } }
    let i := 0x5010 + c.number
    let s := match g with
      | some x => (s.setn (ky i 1) 1).setn (ky i 3) (x.glyphs.length : Nat)
      | none => s
    later (s.setn (ky 0x5002 6) s.dev) (.glyphSet c.number g)
  | .rotor l => { s with comp := { s.comp with rotors := tset (fun _ => []) s.comp.rotors c.number l } }

/-- A commit that failed: its result and event 0xF1 (R86). -/
def State.failCommit (s : State) (k : CommitKind) (number code : Nat) : State :=
  (s.setn (ky (commitIdx k) 5) (code : Nat)).event 0xF1 (0x0A00 + code) number [BitVec.ofNat 8 (commitCode k)]

/-- Validation ends: stored or refused. Answers whether the commit passed. -/
def State.endCommit (s : State) (k : CommitKind) (c : Commit) : Bool × State :=
  let (e, v) := s.validate k c
  if e = 0 then (true, s.storeCommit k c v) else (false, s.failCommit k c.number e)

/-- A commit's execute write accepted: validation begins, or a deletion completes at once (R85, R87, R100). -/
def State.commitAct (s : State) (k : CommitKind) (p : Path) : State :=
  let c := s.stagedCommit k p
  if c.length = 0 ∧ k ≠ .rotorTable then (s.endCommit k c).2
  else (s.setCommitting k (some c)).answer .waits

/-- Validation of a commit ends (R85, R86). -/
def execCommitValidationDone (t : Time) (kind : CommitKind) (s : State) : Step :=
  let s := s.tick t
  match s.committing kind with
  | none => .next s
  | some c =>
    let (ok, s) := (s.setCommitting kind none).endCommit kind c
    .next (s.answer (if ok then .ok else .refused .range))

/-! ## Type case (R107, R108) -/

/-- Pin or unpin the version in force (R107): a pin past 2 MiB, or of a set not loaded, is refused. -/
def State.pinCheck (s : State) (n v : Nat) : Option Refuse :=
  match s.comp.sets.find? (fun g => g.number = n) with
  | some g => if v = 1 ∧ 2097152 < s.pinnedBytes n + g.length then some .range else none
  | none => if v = 1 then some .range else none

/-- A write of a pin takes effect at once (R107): pinning loads the blocks, which then leave the unpinned ones, and narrows the room of
the others; unpinning leaves them cached. `was` is the pin before the write. -/
def State.pinAct (s : State) (n : Nat) (was : Bool) : State :=
  if was = s.pinned n then s
  else if was then s.unpin n
  else match s.comp.sets.find? (fun g => g.number = n) with
    | some g => s.keepBlocks (s.comp.blocks.filter (fun b => !(b.1 == n && b.2.1 == g.version)))
    | none => s

/-- The blocks a character of a set reads: its map range, its glyph record and its bitmap. -/
def glyphBlocks (g : GlyphSet) (i : Nat) : List (Nat × Nat × Nat) :=
  let range := (g.ranges.findIdx? (fun (_, k, f) => decide (f ≤ i ∧ i < f + k))).getD 0
  let rec_ := blocksOf g (g.mapOff + 8 * range) 8 ++ blocksOf g (g.tableOff + 12 * i) 12
  match g.glyphs[i]? with
  | some x => rec_ ++ (if x.bitmap.isSome then blocksOf g (g.bitmapOff + x.off) (x.h * cdiv x.w 8) else [])
  | none => rec_

/-- Is a block at hand without a miss: of a pinned version in force, or cached? -/
def State.blockAt (s : State) (b : Nat × Nat × Nat) : Bool :=
  (s.pinned b.1 && s.comp.sets.any (fun g => g.number = b.1 && g.version = b.2.1)) || s.comp.blocks.contains b

/-- A type-case miss completes its fill (R108). -/
def execTypeCaseFillDone (t : Time) (set block : Nat) (s : State) : Step :=
  let s := s.tick t
  match s.comp.fills.find? (fun b => b.1 = set ∧ b.2.2 = block) with
  | none => .next s
  | some b =>
    let s := { s with comp := { s.comp with fills := s.comp.fills.filter (· != b)
                                            blocks := (b :: s.comp.blocks.filter (· != b)).take (65536 - cdiv (s.pinnedBytes 64) 64) } }
    .next (s.composing.foldl (fun s (c, m) =>
      if m.need.contains b then s.setPend c { m with need := m.need.filter (· != b), have_ := b :: m.have_ } else s) s)

/-! ## The template cache (R113) -/

/-- Pages a cached template takes. -/
def Template.pages (t : Template) : Nat := cdiv t.cached 4096

/-- Pages the cached templates take. -/
def State.cachePages (s : State) (l : List Nat) : Nat := (l.map (fun n => ((s.template n).map Template.pages).getD 0)).sum

/-- Leave out the least recently used template that no unit is reading, until the new one fits; `fuel` is the cache's length. -/
def State.cacheFit (s : State) (locked : List Nat) (pages : Nat) : Nat → List Nat → List Nat
  | 0, l => l
  | f + 1, l =>
    if l.length < 256 ∧ s.cachePages l + pages ≤ 512 then l
    else match l.reverse.find? (fun n => !locked.contains n) with
      | some n => s.cacheFit locked pages f (l.filter (· != n))
      | none => l

/-- A unit reads template `t`: a hit moves it to the front, a miss counts and brings it in. -/
def State.cacheUse (s : State) (t : Template) : State :=
  if s.comp.cache.contains t.number then
    { s with comp := { s.comp with cache := t.number :: s.comp.cache.filter (· != t.number) } }
  else
    let locked := s.jobs.filterMap (fun (_, m) => if m.unit.isSome then m.tpl.map Template.number else none)
    let l := s.cacheFit locked t.pages 257 s.comp.cache
    (({ s with comp := { s.comp with cache := t.number :: l } })).bump (ky 0x5000 6)

/-- What the query objects 0x5003:02 and :03 read for template `n` (R117). -/
def State.templateQuery (s : State) (n : Nat) : Nat × Nat :=
  match s.template n with
  | none => (0, 0)
  | some t =>
    let cached := s.comp.cache.contains n
    let older := s.storeTemplates.any (fun x => x.number = n && x != t)
    ((match cached, older with
      | false, false => 1
      | true, false => 2
      | false, true => 3
      | true, true => 4), t.crc)

/-! ## Composition (R105, R106, R109 to R115) -/

/-- Bytes of a galley line (R112). -/
def State.stride (s : State) (c : Nat) : Nat := 64 * cdiv (s.ne c) 256

/-- Lb: lines a galley buffer of casement `c` holds (R113). -/
def State.bufferLines (s : State) (c : Nat) : Nat :=
  if s.stride c = 0 then 0 else s.frcN (oCas c 3 1) / 2 * 4096 / s.stride c

/-- Bytes a mark keeps in the overflow area (R114). -/
def State.overflowBytes (s : State) (c : Nat) (m : Mark) : Nat :=
  (((m.tpl.map Template.lines).getD 0) - s.bufferLines c) * s.stride c

/-- Do the lines of a mark fit the galley (R113 to R115)? The overflow area is shared by the marks the casement holds. -/
def State.galleyFits (s : State) (c : Nat) (m : Mark) : Bool :=
  let l := (m.tpl.map Template.lines).getD 0
  let lb := s.bufferLines c
  if l ≤ lb ∨ s.ne c = 0 then true
  else
    let x := s.casOf c
    let others := ((x.pend.filter (fun y => y.comp.isSome && y.order != m.order)) ++ x.opened).map (s.overflowBytes c)
    decide (s.frcN (oCas c 3 3) = 1 ∧ 8 ≤ lb ∧ s.overflowBytes c m + others.sum ≤ s.frcN (oCas c 3 5))

/-- The settings and calendar a mark's fields read (R66, R91, R127). -/
def State.ctx (s : State) (m : Mark) : Ctx := ⟨s.calNow, m.dev, calendar s.calNow m.dev, s.nat (ky 0x2300 2) != 0⟩

/-- Does a GS1 symbol pass an unknown application identifier (R105)? -/
def unknownAi (x : Ctx) (m : Mark) (t : Template) (f : Field) : Bool :=
  if isSymbol f.kind then
    match expand x t.names m.vals 0 f.toks with
    | some d => (match symbolData f d with
      | .ok (_, u) => u
      | .error _ => false)
    | none => false
  else false

/-- The glyph set of a text field among those of a mark; none for a field of another kind. -/
def textSet (m : Mark) (f : Field) : Option GlyphSet :=
  if 1 ≤ f.kind ∧ f.kind ≤ 5 then m.sets.find? (fun g => g.number = f.set) else none

/-- The blocks that field `f` of a mark reads for value `v`. -/
def fieldBlocks (m : Mark) (f : Field) (v : List Nat) : List (Nat × Nat × Nat) :=
  match textSet m f with
  | some g => ((textGlyphs g v).1.flatMap (fun c => match c with
      | some k => glyphBlocks g k
      | none => [])).eraseDups
  | none => []

/-- Characters of field `f` that have no glyph (R99). A hidden field's count too: R99 speaks of text that is rendered, and R467 and R111 prepare
a hidden field as any other (log 290). -/
def missingGlyphs (m : Mark) (f : Field) (v : List Nat) : Nat :=
  match textSet m f with
  | some g => (textGlyphs g v).2
  | none => 0

/-- Misses that unit `u` has outstanding, for the marks of both its banks but mark `order` (R108). -/
def State.missesOf (s : State) (u order : Nat) : Nat :=
  ((s.jobs.filter (fun p => p.2.unit = some u && p.2.order != order)).map (fun p => p.2.need.length)).sum

/-- Look up blocks for a mark in unit `u` (R108): hits are touched, misses are counted and issued while the unit has fewer than 16
outstanding. Answers whether every block was looked up: the unit stalls on its seventeenth miss. -/
def State.lookUp (s : State) (u : Nat) (m : Mark) (bs : List (Nat × Nat × Nat)) : Bool × State × Mark :=
  let room := 16 - s.missesOf u m.order
  bs.foldl (fun (acc : Bool × State × Mark) b =>
    let (ok, s, m) := acc
    if m.have_.contains b ∨ m.need.contains b then (ok, s, m)
    else if s.blockAt b then
      let s := if s.comp.blocks.contains b then
          { s with comp := { s.comp with blocks := b :: s.comp.blocks.filter (· != b) } }
        else s
      (ok, s, { m with have_ := b :: m.have_ })
    else if m.need.length < room then
      let s := s.bump (ky 0x5000 5)
      (ok, { s with comp := { s.comp with fills := if s.comp.fills.contains b then s.comp.fills else s.comp.fills ++ [b] } },
        { m with need := m.need ++ [b] })
    else (false, s, m)) (true, s, m)

/-- Issue the Notary requests whose messages are ready (R109, R138, R147). -/
def State.issueSeals (s : State) (c : Nat) (t : Template) (m : Mark) : State × Mark :=
  m.seals.foldl (fun (acc : State × Mark) q =>
    let (s, m) := acc
    if q.sent then (s, m)
    else match (t.fields[q.field]?).bind (sealMessage m) with
      | some msg =>
        let n := s.notary
        let r : NReq := ⟨c, m.order, q.field, q.slot, msg.map (BitVec.ofNat 8), s.urgency c m, n.issue⟩
        let s := { s with notary := { n with queue := n.queue ++ [r], issue := n.issue + 1 } }
        (s.setn (ky 0x5200 1) (s.notary.queue.length : Nat),
          { m with seals := m.seals.map (fun y => if y.field = q.field then { y with sent := true } else y) })
      | none => (s, m)) (s, m)

/-- How preparing a field leaves a mark. -/
inductive Prep where
  | done                        -- prepared
  | later                       -- deferred for a seal
  | stall                       -- stalled on the seventeenth miss
  | err (code : Nat)            -- a field error
  deriving DecidableEq, Repr

/-- Prepare field `i` of a mark in unit `u` (R109): its value, its glyph lookups, its raster with what it counts (R99, R103), and the Notary
requests whose messages it completes. -/
def State.prepField (s : State) (u c : Nat) (t : Template) (m : Mark) (i : Nat) (f : Field) : Prep × State × Mark :=
  let x := s.ctx m
  match evalField x m t i f with
  | .err e => (.err e, s, m)
  | .wait => (.later, s, m)
  | .val v =>
    let s := if unknownAi x m t f then s.event 0xF5 0 c else s
    let (ok, s, m) := s.lookUp u m (fieldBlocks m f v)
    if !ok then (.stall, s, m)
    else match paintOf m t f v with
      | .error e => (.err e, s, m)
      | .ok p =>
        let k := missingGlyphs m f v
        let s := s.bumpBy (oCas c 3 0x0A) k
        let s := if k ≠ 0 ∧ !m.missing then s.event 0xF4 0 c else s
        let s := s.bumpBy (oCas c 3 0x0B) ((p.map (fun p => p.clipped t)).getD 0)
        let (s, m) := s.issueSeals c t { m with vals := m.vals ++ [(i, v)], missing := m.missing || decide (k ≠ 0) }
        (.done, s, m)

/-- The preparation phase (R109): the fields of a mark that are not prepared, in index order, until the unit stalls or a field makes an error; a
deferred field is left for later. -/
def State.prepare (s : State) (u c : Nat) (t : Template) (m : Mark) : Prep × State × Mark :=
  t.fields.zipIdx.foldl (fun (acc : Prep × State × Mark) (f, i) =>
    let (e, s, m) := acc
    if (e != .done && e != .later) || m.vals.any (fun p => p.1 = i) then acc else s.prepField u c t m i f) (.done, s, m)

/-- Work of a unit on one mark (R109, R110): the fields it can prepare and their Notary requests while fields are missing; then one line into the
galley, and after the last line the bank is free. -/
def State.unitWork (s : State) (u c : Nat) (m : Mark) (t : Template) : State :=
  if m.prepared then
    let ne := s.ne c
    let row0 := if s.rowOffset c = 0 then ne else ne / 2
    let line := composeLine (paints m t) t (s.frcN (oCas c 3 2)) ne row0 m.lines.length
    s.setJob c { m with lines := m.lines ++ [line], unit := if m.lines.length + 1 < t.lines then some u else none }
  else
    let s := s.cacheUse t
    let m := { m with unit := some u }
    if !s.galleyFits c m then (s.setPend c m).fieldError c m 8
    else match s.prepare u c t m with
      | (.err e, s, m) => (s.setPend c m).fieldError c m e
      | (_, s, m) => s.setPend c { m with prepared := decide (m.vals.length = t.fields.length) && m.need.isEmpty }

/-- Is there work for a unit on a mark: lines to compose once it is prepared, or fields to prepare? A mark that names a record queue waits for
its draw (R97); one in a bank whose fields are all prepared or deferred waits for its fills and seals, and a stalled one for a fill. -/
def State.workable (s : State) (m : Mark) : Bool :=
  m.err == 0 &&
    (match m.tpl with
      | some t =>
        if m.prepared then decide (m.lines.length < t.lines)
        else m.vote.isNone && (t.sources 5).all (fun q => m.draws.any (fun d => d.record && d.src = q)) &&
          (match m.unit with
            | none => true
            | some u =>
              (decide (m.vals.length = t.fields.length) && m.need.isEmpty) ||
                (decide (m.need.length + s.missesOf u m.order < 16) && t.fields.zipIdx.any (fun (f, i) =>
                  !m.vals.any (fun p => p.1 = i) && evalField (s.ctx m) m t i f != .wait)))
      | none => false)

/-- The first of a list of jobs (urgency, casement, composition order) in the order of R110. -/
def bestJob (l : List (Int × Nat × Mark)) : Option (Int × Nat × Mark) :=
  l.foldl (fun acc j =>
    match acc with
    | none => some j
    | some b =>
      if j.1 < b.1 ∨ (j.1 = b.1 ∧ (j.2.1 < b.2.1 ∨ (j.2.1 = b.2.1 ∧ j.2.2.comp.getD 0 < b.2.2.comp.getD 0))) then some j
      else some b) none

/-- A free unit takes the job with the earliest urgency time (R110): each dispatch prepares fields or composes one line, so that a unit switches
job between lines. -/
def execCompositionUnitDispatch (t : Time) (u : Fin 8) (s : State) : Step :=
  let s := (s.tick t).applyChanges t
  let mine := (s.jobs.filter (fun p => p.2.unit = some u.val)).length
  let jobs := s.jobs.filterMap (fun (c, m) =>
    if s.workable m && (m.unit == some u.val || (m.unit.isNone && decide (mine < 2))) then some (s.jobUrgency c m, c, m) else none)
  match bestJob jobs with
  | some (_, c, m) =>
    match m.tpl with
    | some tp => .next (s.unitWork u c m tp)
    | none => .next s
  | none => .next s

/-- An overflow refill of a galley slot completes (R114): of a line composed to the overflow area. -/
def execGalleyRefillDone (t : Time) (c : Fin 48) (line : Nat) (s : State) : Step :=
  let s := s.tick t
  let x := s.casOf c
  .next (s.setCasement c { x with opened := x.opened.map (fun m =>
    { m with refills := m.refills.filter (fun n => n != line || decide (m.lines.length ≤ n)) }) })

end Sys2Proof.Machine
end

