-- ==== Sys2Proof/Machine/Notary.lean ====
section
/-! DEFINITION. The Notary unit: seals, imports, revocation and verification (R136 to R150). -/

namespace Sys2Proof.Machine

/-- Replace the Notary. -/
def State.setNotary (s : State) (n : Notary) : State := { s with notary := n }

/-- The order of service (R147): urgency, casement, issue. -/
def sealBefore (a b : NReq) : Bool :=
  decide (a.urg < b.urg) || (decide (a.urg = b.urg) &&
    (decide (a.cas < b.cas) || (decide (a.cas = b.cas) && decide (a.issue < b.issue))))

/-- The sealing request served next. -/
def nextSeal (l : List NReq) : Option NReq :=
  l.foldl (fun acc r => match acc with
    | none => some r
    | some b => if sealBefore r b then some r else some b) none

/-- The free unit takes the sealing request first in order; an import or a verification only where none waits (R147). -/
def execNotaryDispatch (t : Time) (s : State) : Step :=
  let s := s.tick t
  let n := s.notary
  if n.op.isSome then .next s
  else match nextSeal n.queue with
    | some r =>
      let q := n.queue.filter (fun x => x.issue != r.issue)
      .next ((s.setNotary { n with queue := q, op := some (.seal r false), startT := t, eccHit := false }).setn (ky 0x5200 1)
        (q.length : Nat))
    | none =>
      match n.import_, n.verify with
      | some (k, x), _ => .next (s.setNotary { n with import_ := none, op := some (.import_ k x), startT := t, eccHit := false })
      | none, some v => .next (s.setNotary { n with verify := none, op := some (.verify v), startT := t, eccHit := false })
      | none, none => .next s

/-- Has slot `k`'s revocation taken effect, in its rows or at ts + 2 us (R145)? -/
def State.slotRevoked (s : State) (k : Nat) : Bool :=
  s.nat (ky (0x5210 + k) 1) == 2 || s.lifecycle == 7 ||
    (s.notary.revoking == some k && !s.comp.changes.any (fun p => p.2 == .revoke k))

/-- The status and signature of a sealing request (R142, R143); a memory error during it gives KEY_INTEGRITY whatever else holds (R146). -/
def State.sealStatus (s : State) (r : NReq) : Nat × Bytes :=
  let st := s.nat (ky (0x5210 + r.slot) 1)
  if s.notary.eccHit then (7, [])
  else if st = 0 then (4, [])
  else if s.slotRevoked r.slot then (5, [])
  else if st = 3 then (7, [])
  else if s.decN (ky (0x5210 + r.slot) 5) s.now = 0 then (6, [])
  else ecdsaSign (s.slotScalar r.slot) r.msg

/-- The status of a verification (R149): the checks in order. -/
def State.verifyStatus (s : State) (v : VReq) : Nat :=
  let r := beNat (v.sig.take 32)
  let q := beNat (v.sig.drop 32)
  let slotKey := decide (v.source ≤ 7)
  let st := s.nat (ky (0x5210 + v.source) 1)
  let (x, y) := if slotKey then publicKey (s.slotScalar v.source) else (v.x, v.y)
  if s.notary.eccHit then 7
  else if slotKey ∧ st = 0 then 4
  else if slotKey ∧ st = 3 then 7
  else if r = 0 then 1
  else if ecN ≤ r then 2
  else if q = 0 then 1
  else if ecN ≤ q then 2
  else if !slotKey ∧ !onCurve (beNat x) (beNat y) then 3
  else if ecdsaVerify (beNat x) (beNat y) v.msg r q then 0
  else 8

/-- The test key of RFC 6979 appendix A.2.5 (R407). -/
def testKey : Nat := 0xC9AFA9D845BA75166B5C215767B1D6934E50C3DB36E89B127B8A622B120F6721

/-- The status of an import (R143, R144, R146, R407). Outside 0 to 85 °C nothing is programmed (R406), and of the statuses of R143 the model gives
OTP_WRITE for it (log 293). -/
def State.importStatus (s : State) (k : Nat) (x : Bytes) : Nat :=
  let v := beNat x
  if s.notary.eccHit then 7
  else if s.lifecycle = 0 ∨ s.lifecycle = 7 ∨ (s.lifecycle = 3 ∧ v = testKey) then 10
  else if s.nat (ky (0x5210 + k) 1) ≠ 0 then 9
  else if v = 0 then 1
  else if ecN ≤ v then 2
  else if !s.otpWarm then 11
  else 0

/-- A seal is delivered to its mark, or its error status ends the mark's composition (R109, R143). -/
def State.deliverSeal (s : State) (r : NReq) (st : Nat) (sig : Bytes) : State :=
  match (s.casOf r.cas).pend.find? (fun m => m.order = r.mark) with
  | none => s
  | some m =>
    if st = 0 then
      let s := s.bump (ky (0x5210 + r.slot) 6)
      s.setPend r.cas { m with seals := m.seals.map (fun q => if q.field = r.field then { q with sig := some sig } else q) }
    else s.sealError r.cas m r.slot st

/-- An operation ends after 41.6 us (R136, R137). -/
def execNotaryOperationDone (t : Time) (s : State) : Step :=
  let s := s.tick t
  let n := s.notary
  match n.op with
  | none => .next s
  | some op =>
    if t < n.startT + nsT 41600 then .next s
    else
      let s' := (s.setNotary { n with op := none, eccHit := false }).bump (ky 0x5200 2)
      match op with
      | .seal r wd =>
        let (st, sig) := s.sealStatus r
        if wd then .next s' else .next ((s'.setn (ky 0x5200 5) (st : Nat)).deliverSeal r st sig)
      | .verify v =>
        let st := s.verifyStatus v
        .next ((s'.setn (ky 0x5203 8) (st : Nat)).setn (ky 0x5200 5) (st : Nat))
      | .import_ k x =>
        let st := s.importStatus k x
        if st ≠ 0 then .next ((s'.setn (ky 0x5201 4) (st : Nat)).setn (ky 0x5200 5) (st : Nat))
        else
          let s' := { s' with notary := { s'.notary with importing := some k } }
          match importRows k x with
          | (r, v) :: rest => .next (s'.otpStart ⟨r, v, 1, rest⟩)
          | [] => .next s'

/-! ## Commands to the Notary -/

/-- Is an import or a revocation in progress (R144)? -/
def State.keyBusy (s : State) : Bool :=
  let n := s.notary
  n.import_.isSome || n.importing.isSome || n.revoking.isSome || (match n.op with
    | some (.import_ _ _) => true
    | _ => false)

/-- An import execute accepted (R144): the scalar object is cleared at once. -/
def State.importAct (s : State) : State :=
  let k := s.nat (ky 0x5201 1)
  let x := s.str (ky 0x5201 2)
  let s := (s.setv (ky 0x5201 2) (.str (List.replicate 32 0))).setn (ky 0x5201 4) 0xFF
  { s with notary := { s.notary with import_ := some (k, x) } }

/-- A revoke execute accepted (R145): outside 0 to 85 °C nothing is burned (R406, log 293); else REVOKED is burned, and at ts + 2 us pending marks lose their seals. -/
def State.revokeAct (s : State) : State :=
  let k := s.nat (ky 0x5202 1)
  if s.lifecycle = 7 then (s.setn (ky 0x5202 3) 10).setn (ky 0x5200 5) 10
  else if !s.otpWarm then (s.setn (ky 0x5202 3) 11).setn (ky 0x5200 5) 11
  else
    let s := s.setn (ky 0x5202 3) 0xFF
    let s := { s with notary := { s.notary with revoking := some k }
                      comp := { s.comp with changes := s.comp.changes ++ [(s.now, Change.revoke k)] } }
    s.otpStart ⟨0x110 + 0x20 * k, 2, 2, []⟩

/-- A verify execute: refused while one waits or runs, or where the message is not wholly in DRAM (R147, R149). -/
def State.verifyCheck (s : State) : Option Refuse :=
  let running := match s.notary.op with
    | some (.verify _) => true
    | _ => false
  if s.notary.verify.isSome || running then some .state
  else if !s.inDram (s.nat (ky 0x5203 4)) (s.nat (ky 0x5203 5)) then some .range
  else none

/-- A verification accepted: its inputs are captured, the message among them. -/
def State.verifyAct (s : State) : State :=
  let v : VReq := ⟨s.nat (ky 0x5203 1), s.str (ky 0x5203 2), s.str (ky 0x5203 3),
    s.dramRead (s.nat (ky 0x5203 4)) (s.nat (ky 0x5203 5)), s.str (ky 0x5203 6)⟩
  { s with notary := { s.notary with verify := some v } }.setn (ky 0x5203 8) 0xFF

end Sys2Proof.Machine
end

