-- ==== Sys2Proof/Machine/Inputs.lean ====
section
/-! DEFINITION. General inputs (R39 to R43, R52, R130). -/

namespace Sys2Proof.Machine

/-- The inputs run from CONFIGURE on. -/
def State.running (s : State) : Bool := decide (2 ≤ s.modeN)

/-- One rejected edge counted. -/
def State.ginReject (s : State) (n : Nat) : State := s.bump (oGin n 7)

/-- Does casement `c` take anchors from input `n` (R52)? -/
def State.takesGin (s : State) (c n : Nat) : Bool := s.nat (oCas c 0 1) == 1 && s.nat (oCas c 0 2) == n

/-- How long the stuck-active timer of input `n` has run at `t` (R42). -/
def State.ginRun (s : State) (n : Nat) (t : Time) : Time :=
  let x := s.ginOf n
  x.run + (if bit (s.laxStatus (s.nat (oGin n 3))) 4 then 0 else t - x.runT)

/-- The stuck-active timer of input `n` exceeds its timeout at `t` (R42). -/
def State.ginOver (s : State) (n : Nat) (t : Time) : Bool :=
  let x := s.ginOf n
  x.active && !x.ignored && x.lim != 0 && decide (msT x.lim < s.ginRun n t)

/-- A pulse toward the active level too short for the filter (R39). -/
def execGinPulseRejected (t : Time) (n : Fin 64) (s : State) : Step :=
  let s := s.tick t
  if !s.running || (s.ginOf n).active then .next s else .next (s.ginReject n)

/-- The input goes inactive: its stuck timer is reset, and an ignored input counts again (R42). -/
def execInputInactive (t : Time) (n : Fin 64) (s : State) : Step :=
  let s := s.tick t
  if !s.running then .next s
  else .next (s.setGin n { s.ginOf n with active := false, ignored := false, run := 0 })

/-- The stuck-active timer exceeds its timeout (R42). -/
def execGinStuckTimeout (t : Time) (n : Fin 64) (s : State) : Step :=
  let s := s.tick t
  let x := s.ginOf n
  if s.running && s.ginOver n t then
    let s := s.setGin n { x with stuck := true, ignored := true, ignoredT := t }
    .next ((List.range 48).foldl (fun s c =>
      if s.takesGin c n then (s.event c 0x18 c).fault (28 + c / 12) 3 c n else s) s)
  else .next s

/-- The multiplication of a divided-pulse ratio's M: the accumulator is rescaled (R47). -/
def State.plsRescale (s : State) (n old new : Nat) : State :=
  let x := s.plsOf n
  s.setPls n { x with acc := tdiv (x.acc * (new : Int)) (max 1 old : Nat) }

/-- An output that is enabled starts with A and B low (R47). -/
def State.plsEnable (s : State) (n : Nat) : State := s.setPls n { s.plsOf n with a := false, b := false }

end Sys2Proof.Machine
end

