-- ==== Sys2Proof/Machine/Ports.lean ====
section
/-! DEFINITION. The ports of a casement: the sill line and the identity record, the analog inputs, training and strobe supervision
(R159, R163, R170 to R182, R184). -/

namespace Sys2Proof.Machine

/-- Is casement `c` configured: a port kind in force (R153)? -/
def State.configured (s : State) (c : Nat) : Bool := s.portKind c != 0

/-! ## Identity records (R175 to R177, R180, R220, R240, R241) -/

/-- Pending usage additions whose SERIAL is not the loaded record's are discarded and counted (R241). -/
def State.dropUsage (s : State) (c : Nat) : State :=
  let x := s.casOf c
  let ser := serialOf x.recd
  let stale (k : SillKind) : Bool := match k with
    | .add _ _ q => q != ser
    | _ => false
  let n := (x.usage.filter (fun u => u.2.2 != ser)).length + (x.sillQ.filter stale).length
  (s.setCasement c { x with usage := x.usage.filter (fun u => u.2.2 == ser), sillQ := x.sillQ.filter (fun k => !stale k) }).bumpBy
    (oCas c 0x10 9) n

/-- The identity objects show a record as last read. -/
def State.showRecord (s : State) (c : Nat) (r : Bytes) : State :=
  (s.setv (oCas c 5 1) (.str r)).setn (oCas c 5 2) (recordStatus r : Nat)

/-- Take a record: it becomes the loaded one, the thermistor table is filled (R180), stale usage goes, and a new SERIAL resets an ink
estimate (R240). In SERVICE the records are initialised (R242). -/
def State.loadRecord (s : State) (c : Nat) (r : Bytes) : State :=
  let x := s.casOf c
  let new := serialOf x.recd != serialOf r
  let lost := decide (new = true ∧ x.lines ≠ 0)
  let s := s.setCasement c { x with recd := r, recOk := decide (recordStatus r = 1), held := none,
                                    lines := if new then 0 else x.lines }
  let s := if lost then s.bump (oCas c 0x10 9) else s
  let s := ((s.showRecord c r).fillTable c).dropUsage c
  let s := if new && s.nat (oCas c 1 1) == 2 && s.nat (oCas c 0x0F 5) == 1 then
      { s with comp := { s.comp with changes := s.comp.changes ++ [(s.now, .newSupply c (s.nat (oCas c 0x0F 1)))] } }
    else s
  if s.casState c = 5 ∧ (s.casOf c).recOk then s.ledgerInit c else s

/-- A changed record is taken in COLD or SERVICE and the checks of R177 are repeated: status 4 where one fails. -/
def State.changeRecord (s : State) (c : Nat) (r : Bytes) : State :=
  let s' := s.loadRecord c r
  if s'.misfit c r then s'.setn (oCas c 5 2) 4 else s'

/-- A record held until COLD or SERVICE is taken (R175). -/
def State.takeHeld (s : State) (c : Nat) : State :=
  match (s.casOf c).held with
  | some r => s.loadRecord c r
  | none => s

/-- The record that polls compare with: in ARMING, ARMED and OPEN a held one, else the loaded one (R175). -/
def State.knownRecord (s : State) (c : Nat) : Bytes :=
  let x := s.casOf c
  if 2 ≤ s.casState c ∧ s.casState c ≤ 4 then x.held.getD x.recd else x.recd

/-- The CRC field that polls compare with. -/
def State.knownCrc (s : State) (c : Nat) : Nat := fieldLE (s.knownRecord c) 0x5C 4

/-- A service measurement ends its measuring with a result: the power-down program runs (R229). -/
def State.svcEnd (s : State) (c : Nat) (v : Svc) (res : Nat) : State :=
  (s.setCasement c { s.casOf c with meas := none, train := none, svc := some { v with phase := 3, res := res } }).startProgram c 4

/-- A poll failed (R81, R175). -/
def State.pollFailed (s : State) (c : Nat) : State :=
  let x := s.casOf c
  let n := x.polls + 1
  let s := s.setCasement c { x with polls := n }
  if n < 3 then s
  else match s.casState c with
    | 1 => s.setCas c 0
    | 5 =>
      let s := match x.svc with
        | some v => if v.phase = 3 then s else s.svcEnd c v 2
        | none => s
      s.setCas c 0
    | 2 | 3 | 4 => s.casFault c 2
    | _ => s

/-- The head that answers is to be taken at the next entry to COLD or SERVICE (R81, R175): its record where it is valid. -/
def State.holdRecord (s : State) (c : Nat) (r : Bytes) : State :=
  s.setCasement c { s.casOf c with held := if recordStatus r = 1 then some r else none }

/-- A full record has been read (R175). -/
def State.recordRead (s : State) (c : Nat) (r : Bytes) : State :=
  let x := s.casOf c
  let s := s.setCasement c { x with polls := 0 }
  let same := recordStatus r == 1 && serialOf r == serialOf x.recd
  let differs := fieldLE r 0x5C 4 != s.knownCrc c
  let st := s.casState c
  let s := if st ≠ 0 && differs && !same then s.event c 8 c else s
  match st with
  | 0 => if recordStatus r = 1 then (s.loadRecord c r).setCas c 1 else s.showRecord c r
  | 1 => s.changeRecord c r
  | 5 => s.changeRecord c r
  | 6 => (s.showRecord c r).holdRecord c r
  | _ =>
    let s := (s.showRecord c r).holdRecord c r
    if !differs then s
    else if !same then s.casFault c 3
    else if s.recordFits c r (fun k => s.frcN k) then s
    else ((s.setn (oCas c 5 2) 4).event c 9 c).casFault c 3

/-! ## The sill line (R172 to R174) -/

/-- The service order of R174: poll and record read, counter ADD, service. -/
def SillKind.rank : SillKind → Nat
  | .poll | .record => 0
  | .add _ _ _ => 1
  | _ => 2

/-- A service request of the host (R184), whose STATUS is its result. -/
def SillKind.isService : SillKind → Bool
  | .svcRead _ _ | .svcWrite _ _ => true
  | _ => false

/-- Ask for a transaction. -/
def State.sillAsk (s : State) (c : Nat) (k : SillKind) : State :=
  let x := s.casOf c
  s.setCasement c { x with sillQ := x.sillQ ++ [k] }

/-- A request as it is sent: CMD, ADDR high byte first, LEN, DATA, CRC-8 (R173). -/
def sillRequest (k : SillKind) : Bytes :=
  let b := match k with
    | .poll => [0x11, 0x00, 0x5C, 4]
    | .record => [0x11, 0x00, 0x00, 128]
    | .add i n _ => [0x33] ++ beBytes 2 (0x60 + 8 * i) ++ [4] ++ leBytes 4 n
    | .svcRead a n => [0x11] ++ beBytes 2 a ++ leBytes 1 n
    | .svcWrite a d => [0x22] ++ beBytes 2 a ++ leBytes 1 d.length ++ d
    | .sensor a => [0x11] ++ beBytes 2 a ++ [4]
  b ++ leBytes 1 (crc8 b)

/-- The halves of a byte's cells, most significant bit first: 0 is low then high, 1 high then low (R172). -/
def manchester (b : Byte) : List Bool := (msbBits 8 b.toNat).flatMap (fun x => [x, !x])

/-- The line through a request, by halves of a cell (2 us): BREAK low for 40 us and released for 8 us, then the bytes (R173). -/
def sillWave (b : Bytes) : List Bool := List.replicate 20 false ++ List.replicate 4 true ++ b.flatMap manchester

/-- The bits of received cells, none where a cell has no mid-cell transition (R172). -/
def cellBits : List (Bool × Bool) → Option (List Bool)
  | [] => some []
  | (a, b) :: r => if a = b then none else (cellBits r).map (a :: ·)

/-- Whole bytes of bits, most significant first; `n` bounds their number. -/
def bitBytes : Nat → List Bool → Option Bytes
  | _, [] => some []
  | 0, _ => none
  | n + 1, b => if b.length < 8 then none
    else (bitBytes n (b.drop 8)).map (BitVec.ofNat 8 ((b.take 8).foldl (fun v x => 2 * v + b2n x) 0) :: ·)

/-- A response as the device takes it (R172, R173): STATUS and DATA behind the preamble 0xA5, where coding and CRC-8 are good. -/
def sillHear (r : SillReply) : Option (Byte × Bytes) :=
  match (cellBits r.cells).bind (bitBytes 131) with
  | some (p :: st :: rest) =>
    match rest.reverse with
    | q :: back => if p = 0xA5#8 ∧ q.toNat = crc8 (st :: back.reverse) then some (st, back.reverse) else none
    | [] => none
  | _ => none

/-- The cells of a response with a status and data, as a head sends it (R172, R173). -/
def sillAnswer (st : Byte) (d : Bytes) : SillReply :=
  let b := 0xA5#8 :: st :: d ++ leBytes 1 (crc8 (st :: d))
  ⟨b.flatMap (fun x => (msbBits 8 x.toNat).map (fun v => (v, !v)))⟩

/-- The bytes a good response carries. -/
def SillKind.answerLen : SillKind → Nat
  | .poll => 4
  | .record => 128
  | .add _ _ _ => 4
  | .svcRead _ n => n
  | .svcWrite _ _ => 0
  | .sensor _ => 4

/-- An idle sill line starts its next transaction (R174). A counter ADD never precedes the identity check of its head. -/
def execSillTransactionStart (t : Time) (c : Fin 48) (s : State) : Step :=
  let s := s.tick t
  let x := s.casOf c
  let ready (k : SillKind) : Bool := match k with
    | .add _ _ q => x.recOk && q == serialOf x.recd
    | _ => true
  let best := x.sillQ.foldl (fun (acc : Option SillKind) k =>
    if !ready k then acc
    else match acc with
      | none => some k
      | some b => if k.rank < b.rank then some k else some b) none
  match x.sill, best with
  | none, some k =>
    .next ((s.setCasement c { x with sill := some ⟨k, 0, 0, none⟩, sillQ := x.sillQ.erase k }).send (.sill c (sillWave (sillRequest k))))
  | _, _ => .next s

/-- A transaction has succeeded with its data. -/
def State.sillOk (s : State) (c : Nat) (k : SillKind) (d : Bytes) : State :=
  match k with
  | .poll =>
    if s.casState c = 0 ∨ leNat d ≠ s.knownCrc c ∨ s.str (oCas c 5 1) ≠ s.knownRecord c then s.sillAsk c .record
    else s.setCasement c { s.casOf c with polls := 0 }
  | .record => s.recordRead c d
  | .add _ _ _ => s
  | .svcRead _ _ => (s.setv (oCas c 5 6) (.str d)).setn (oCas c 5 8) 0
  | .svcWrite _ _ => s.setn (oCas c 5 8) 0
  | .sensor _ => (s.setn (oCas c 0x0F 4) (leNat d : Nat)).consumableStatus c

/-- A transaction has failed for good, after its last retry; a service transaction also ends so with an error status (R184). -/
def State.sillFailed (s : State) (c : Nat) (k : SillKind) (res : Nat) : State :=
  let failed := (s.bump (oCas c 5 3)).event c 7 c
  match k with
  | .poll | .record => failed.pollFailed c
  | .add i n q => failed.setCasement c { s.casOf c with usage := (s.casOf c).usage ++ [(i, n, q)] }
  | .svcRead _ _ | .svcWrite _ _ => (if res = 0x10 then failed else s).setn (oCas c 5 8) (res : Nat)
  | .sensor _ => failed

/-- A sill response, or its absence (R173, R174). -/
def execSillTransactionDone (t : Time) (c : Fin 48) (r : SillReply) (s : State) : Step :=
  let s := s.tick t
  let x := s.casOf c
  match x.sill with
  | none => .next s
  | some tr =>
    if tr.retry.isSome then .next s
    else
      let idle := s.setCasement c { x with sill := none }
      let again (f b us : Nat) : State := s.setCasement c { x with sill := some { tr with fails := f, busy := b, retry := some (t + usT us) } }
      let bad : Step := .next (if tr.fails < 2 then again (tr.fails + 1) tr.busy 100 else idle.sillFailed c tr.kind 0x10)
      match sillHear r with
      | some (st, d) =>
        if st = 0 then
          if d.length = tr.kind.answerLen then .next (idle.sillOk c tr.kind d) else bad
        else if st = 1 then
          .next (if tr.busy < 20 then again tr.fails (tr.busy + 1) 1000 else idle.sillFailed c tr.kind 0x10)
        else if tr.kind.isService then .next (idle.sillFailed c tr.kind st.toNat)
        else bad
      | none => bad

/-- The retry of a transaction: 100 us after a failure, 1 ms after BUSY (R174). -/
def execSillRetry (t : Time) (c : Fin 48) (s : State) : Step :=
  let s := s.tick t
  let x := s.casOf c
  match x.sill with
  | some tr =>
    if tr.retry.any (· ≤ t) then .next ((s.setCasement c { x with sill := some { tr with retry := none } }).send (.sill c (sillWave (sillRequest tr.kind))))
    else .next s
  | none => .next s

/-- The 100 ms presence poll of a configured casement (R175). -/
def execHeadPoll (t : Time) (c : Fin 48) (s : State) : Step :=
  let s := s.tick t
  let x := s.casOf c
  let busy := x.sillQ.contains .poll || x.sillQ.contains .record || (match x.sill with
    | some tr => tr.kind == .poll || tr.kind == .record
    | none => false)
  if s.running && s.configured c && !busy && elapsed x.pollT (msT 100) t then
    .next ((s.setCasement c { x with pollT := some t }).sillAsk c .poll)
  else .next s

/-! ## Service requests (R184) -/

/-- The refusal of a service execute of 1 READ or 2 WRITE. -/
def State.svcCheck (s : State) (c v : Nat) : Option Refuse :=
  let a := s.nat (oCas c 5 4)
  let n := s.nat (oCas c 5 5)
  if s.nat (oCas c 5 8) = 0xFF then some .state
  else if v = 2 ∧ ((s.str (oCas c 5 6)).length < n ∨ a < 0x80 ∨ 0x100 < a + n) then some .range
  else none

/-- A service execute accepted. -/
def State.svcAct (s : State) (c v : Nat) : State :=
  let a := s.nat (oCas c 5 4)
  let n := s.nat (oCas c 5 5)
  (s.setn (oCas c 5 8) 0xFF).sillAsk c (if v = 1 then .svcRead a n else .svcWrite a ((s.str (oCas c 5 6)).take n))

/-! ## Analog inputs (R178 to R182) -/

/-- A conversion of shared ADC 16 + `j`, corrected (R179). -/
def State.adcCode (s : State) (j code : Nat) : Nat := s.adcFix (0x2610 + j) code

/-- VDDA18 as shared ADC 16 + `j` last derived it. -/
def State.vddaOf (s : State) (j : Nat) : Nat := tget (fun _ => 1800) s.vdda j

/-- Set or clear bit `i` of the analog status, with event cause `ev` on entry into the condition (R182). -/
def State.analogBit (s : State) (c i ev : Nat) (on : Bool) : State :=
  let k := oCas c 6 7
  let was := s.obit k i
  let s := s.setbit k i on
  if on && !was then s.event c ev c else s

/-- Is a window known: configured, or of a loaded record? -/
def State.windowKnown (s : State) (c : Nat) : Bool :=
  (s.decN (oCas c 5 9) s.now) == 1 || !(s.casOf c).recd.isEmpty

/-- The place of a pin in the round of its ADC: CTH, CVS, CMS by ascending casement (R178). -/
def adcPlace (c : Nat) (pin : AdcPin) : Nat :=
  3 * (c % 6) + (match pin with
    | .cth => 0
    | .cvs => 1
    | .cms => 2)

/-- Is the pin at place `i` of shared ADC 16 + `j` enabled: CTH and CVS of a configured casement that is not ABSENT, CMS while the Ledger
measures an element (R178)? -/
def State.adcOn (s : State) (j i : Nat) : Bool :=
  let c := 6 * j + i / 3
  s.running && s.configured c && s.casState c != 0 && (i % 3 != 2 || (s.casOf c).meas.isSome)

/-- Shared ADC 16 + `j`: the place of the round at which it looks next, and when its slot is free. -/
def State.adcAt (s : State) (j : Nat) : Nat × Time := tget (fun _ => (0, 0)) s.adc j

/-- Does the slot that is free at `t` convert place `i`: the next enabled pin of the round (R178)? -/
def State.adcTurn (s : State) (j i : Nat) (t : Time) : Bool :=
  let (n, u) := s.adcAt j
  decide (u ≤ t) && ((List.range 18).map (fun k => (n + k) % 18)).find? (s.adcOn j) == some i

/-- A sense-ADC slot of 200 ns converts the pin of casement `c` whose turn it is (R178 to R182). -/
def execAdcConversion (t : Time) (c : Fin 48) (pin : AdcPin) (code : Nat) (s : State) : Step :=
  let s := s.tick t
  let j := c.val / 6
  let i := adcPlace c pin
  if !s.adcTurn j i t then .next s
  else
    let s := { s with adc := tset (fun _ => (0, 0)) s.adc j ((i + 1) % 18, t + nsT 200) }
    let k := s.adcCode j code
    let x := s.casOf c
    match pin with
    | .cth =>
      match x.table with
      | none => .next s
      | some (rpu, rt, b) =>
        if k ≤ 15 then .next (((s.setCasement c { x with cthBad := true }).analogBit c 0 0xD false).analogBit c 1 0xE true)
        else if 4080 ≤ k then
          .next (((s.setCasement c { x with cthBad := true }).analogBit c 1 0xE false).analogBit c 0 0xD true)
        else
          let s := (s.analogBit c 0 0xD false).analogBit c 1 0xE false
          let s := s.setCasement c { x with cthBad := false, cthT := some t }
          let s := (s.setn (oCas c 6 3) (thermTemp rpu rt b k)).setn (oCas c 6 5) (wrapU 64 s.dev)
          .next (if s.windowKnown c then s.analogBit c 2 0xB (!s.tempIn c s.calNow) else s)
    | .cvs =>
      let mv := k * s.vddaOf j * s.nat (oCas c 6 2) / (4096 * 65536)
      let s := s.setCasement c { x with cvsT := some t }
      let s := (s.setn (oCas c 6 4) (mv : Nat)).setn (oCas c 6 6) (wrapU 64 s.dev)
      .next (if s.windowKnown c then s.analogBit c 3 0xC (!s.supplyIn c s.calNow) else s)
    | .cms => .next s

/-- Each shared ADC converts the 1.200 V reference and derives VDDA18 (R179). -/
def execVddaReferenceConversion (t : Time) (j : Fin 8) (code : Nat) (s : State) : Step :=
  let s := s.tick t
  let k := s.adcCode j code
  if !s.running ∨ k = 0 then .next s
  else .next { s with vdda := tset (fun _ => 1800) s.vdda j (1200 * 4096 / k) }

/-! ## Service measurement -/

/-- A service measurement whose head is powered and trained measures (R229). -/
def State.svcMeasure (s : State) (c : Nat) : State :=
  let x := s.casOf c
  match x.svc with
  | some v =>
    let e := if v.kind = 1 then 0 else v.elem
    if e < s.ne c then
      (s.setCasement c { x with svc := some { v with phase := 2 } }).measLoad c ⟨v.kind, e, false, 0, 0⟩ none
    else s.svcEnd c v 0
  | none => s

/-! ## Training and strobe supervision (R159, R163, R170) -/

/-- The TABLE frame: the slice-mask table in force, entries 0 to 15 (R159). -/
def State.tableFrame (s : State) (c : Nat) : Bytes :=
  packBits 64 (frameBits 2 0 0 false false 0 15 ((List.range 16).flatMap (fun i => msbBits 8 (s.mask c i))))

/-- Bit `n` of the PRBS-7 sequence x^7 + x^6 + 1, seed all ones (R163): the register's last stage, then its shift with the sum of the
last two stages. -/
def prbs7 (n : Nat) : Bool :=
  bit ((List.range n).foldl (fun r _ => (2 * r) % 128 + b2n (bit r 6 != bit r 5)) 127) 6

/-- Start training a sash link for arming (1) or a service measurement (2): CCLKc runs and every sash carries PRBS-7 for the training
time (R163). A classic port needs none. -/
def State.startTraining (s : State) (c why : Nat) : State :=
  let x := s.casOf c
  if s.portKind c = 1 then
    (s.setCasement c { x with train := some why, trained := false, trainT := s.now }).send (.train c s.now (s.frcN (oCas c 4 0x0A)))
  else s.setCasement c { x with trained := true, train := none }

/-- A casement in ARMING trains as soon as its head rails are power-good (R163). -/
def State.tryTraining (s : State) (c : Nat) : State :=
  let x := s.casOf c
  if s.casState c = 2 ∧ x.after = none ∧ !x.trained ∧ x.train = none ∧ s.headPower c then s.startTraining c 1 else s

/-- CCLKc runs: on a sash link from the start of training (R163), on a classic port never between planes (R166). -/
def State.clockRuns (s : State) (c : Nat) : Bool :=
  s.portKind c == 1 && s.pinsDriven c && ((s.casOf c).train.isSome || (s.casOf c).trained)

/-- The training time ends: 64 idle bits and the TABLE frame on every sash (R159, R163). Where the rails are no longer good, the pins
are high-impedance and arming trains again once they are. -/
def execTrainingEnd (t : Time) (c : Fin 48) (s : State) : Step :=
  let s := s.tick t
  let x := s.casOf c
  match x.train with
  | some w =>
    if t < x.trainT + usT (s.frcN (oCas c 4 0x0A)) then .next s
    else if !s.pinsDriven c then .next (s.setCasement c { x with train := none })
    else
      let s := s.setCasement c { x with train := none, trained := true, linkT := t + s.longT 64 }
      let s := s.sendSashes c 2 224 (fun _ => s.tableFrame c)
      .next (if w = 2 then s.svcMeasure c else s)
  | none => .next s

/-- The strobe pulse of casement `c` that runs at `t`: its start, of a firing line or of a measurement cycle. A pulse counted in casement
clocks lasts up to (1 + sigma) times its width (R204). -/
def State.strobing (s : State) (c : Nat) (t : Time) : Option Time :=
  let x := s.casOf c
  let pulses (l : Line) : List (Time × Time) := if l.st = .firing then (l.offs.zip l.w).map (fun (o, w) =>
    (l.tT + unitT o, if w = 0 then 0 else l.tT + unitT o + s.longT w)) else []
  let meas : List (Time × Time) := match x.meas with
    | some m => [(m.start c, m.stop c)]
    | none => []
  ((meas ++ x.opened.flatMap (fun m => m.lns.flatMap (fun p => pulses p.2))).find? (fun p => decide (p.1 ≤ t ∧ t < p.2))).map Prod.fst

/-- The strobe checker acts on a pulse that runs, once it has lasted the maximum strobe width or where the latch is active with it (R170):
the strobe is ended, the bit set, the event raised, and committed marks blank from here (R195). -/
def execStrobeLimit (t : Time) (c : Fin 48) (overlap : Bool) (s : State) : Step :=
  let s := s.tick t
  let acts : Bool := match s.strobing c t with
    | some u => overlap || decide (u + usT (s.nat (oCas c 4 0x0B)) ≤ t)
    | none => false
  if !acts then .next s
  else
    let x := s.casOf c
    let s := match x.meas with
      | some m => if m.start c ≤ t ∧ t < m.stop c then (s.measPulse c m).send (.strobeEnd c t) else s
      | none => s
    let s := s.setCasement c { s.casOf c with meas := none,
                                              opened := x.opened.map (fun m => { m with strobeActed := true }) }
    let s := s.stopPulses c
    let s := (s.bump (oCas c 4 0x10)).event c 6 c
    .next (s.fault (28 + c.val / 12) (if overlap then 2 else 1) c 0)

end Sys2Proof.Machine
end

