-- ==== Sys2Proof/Machine/Casements.lean ====
section
/-! DEFINITION. The states of a casement (R81): arming, disarming, service and faults, with the power programs and the training they
wait for, and the service measurement's power-up (R229). -/

namespace Sys2Proof.Machine

/-! ## What an arming brings into force -/

/-- The objects of casement `c` whose writes take effect at the next mode entry (ARMING). -/
def armKeys (c : Nat) : List Nat :=
  [oCas c 0 0x0E] ++ [4, 5, 6, 9, 0x0A, 0x0D].map (oCas c 4 ·) ++ [oCas c 6 1, oCas c 7 1, oCas c 7 6]
    ++ (List.range 16).map (fun i => oCas c 8 (9 + i)) ++ [oCas c 9 1, oCas c 0x0D 2, oCas c 0x0D 3, oCas c 0x0D 6, oCas c 0x0E 0x14]
    ++ (List.range 16).map (fun i => oStitch c (1 + i))

/-- Casement `c`'s written arming settings come into force, with the delay trims of its sashes (R164). -/
def State.armEnforce (s : State) (c : Nat) : State :=
  let b := s.frcN (oCas c 4 2)
  let s := (armKeys c).foldl State.enforce s
  ((List.range (s.frcN (oCas c 4 3))).map (fun j => oSash (b + j) 0x20)).foldl State.enforce s

/-- Every code of an energy map is at most 2^b - 1 (R198). -/
def mapFits (m : Bytes) (b : Nat) : Bool := m.all (fun x => decide (x.toNat % 16 < 2 ^ b ∧ x.toNat / 16 < 2 ^ b))

/-- Bits per element that bound the codes: a classic port uses 4 (R198). -/
def State.codeBits (s : State) (c : Nat) : Nat := if s.portKind c = 2 then 4 else s.bpe c

/-- The capacity rule at the configured maximum line rate (R169). -/
def State.capacityOk (s : State) (c : Nat) : Bool :=
  let f := s.frcN (oCas c 4 0x0D)
  if s.portKind c = 1 then decide (s.laneLen c * s.bpe c * f ≤ 600000000)
  else
    let ds := ((List.range (s.slices c)).map (fun j => s.dsUnits c (s.nat (oCas c 8 (j + 1))))).sum
    decide (ds * 25 * f ≤ 16000000000)

/-- The measurement code fires slice 0 and the port can carry it (R223). -/
def State.measCodeOk (s : State) (c : Nat) : Bool :=
  let cm := s.frcN (oCas c 0x0D 3)
  bit (s.mask c cm) 0 && decide (cm < 2 ^ s.codeBits c)

/-- dr of R232, rounded to nearest. -/
def State.rowOffsetOf (s : State) (c : Nat) : Nat :=
  let p := s.nat (oCas c 0 5)
  (2 * s.recF c 0x0F 1 * 65536 + 100 * p) / (200 * max 1 p)

/-- Redundant-row mode fits the head and the buffer (R232). -/
def State.rowsOk (s : State) (c : Nat) : Bool :=
  s.frcN (oCas c 0x0E 0x14) != 1 ||
    decide (1 ≤ s.rowOffsetOf c ∧ s.rowOffsetOf c ≤ 255 ∧ s.recF c 0x0E 1 = 2 ∧ s.ne c % 2 = 0 ∧
      s.rowOffsetOf c + 8 ≤ s.bufferLines c)

/-! ## Power programs -/

/-- Some rail of the head group is on. -/
def State.railsOn (s : State) (c : Nat) : Bool := (s.headGroup c).any (fun n => decide (1 ≤ s.railState n ∧ s.railState n ≤ 3))

/-- Pending usage additions are issued: the lines in units of 1,024 to counter 0, and those whose ADD has failed (R241). -/
def State.usageFlush (s : State) (c : Nat) : State :=
  let x := s.casOf c
  let k := x.lines / 1024
  let s := s.setCasement c { x with lines := x.lines % 1024, usage := [] }
  let s := x.usage.foldl (fun s u => s.sillAsk c (.add u.1 u.2.1 u.2.2)) s
  if k = 0 then s else s.sillAsk c (.add 0 k (serialOf x.recd))

/-- The power-down program of a casement starts, and what follows it (R81). -/
def State.beginPowerDown (s : State) (c target : Nat) : State :=
  let s := s.usageFlush c
  let x := s.casOf c
  let running := x.after.isSome
  let s := s.setCasement c { x with after := some target, meas := none, pass := x.pass, train := none, hourT := none }
  if running then s else s.startProgram c 4

/-- SERVICE is entered: a held record is taken, the Ledger is set and the entry is counted (R81, R175, R220, R241). -/
def State.toService (s : State) (c : Nat) : State :=
  let x := s.casOf c
  let s := s.setCasement c { x with after := none, disarm := none, service := none, svc := none }
  let s := ((s.setn (oCas c 2 3) (s.nat (oCas c 2 3) % 2 : Nat)).setCas c 5).takeHeld c
  let s := if (s.casOf c).recOk then s.ledgerInit c else s
  s.sillAsk c (.add 2 1 (serialOf (s.casOf c).recd))

/-- COLD is entered from another state than ABSENT: a held record is taken. -/
def State.toCold (s : State) (c : Nat) : State :=
  let x := s.casOf c
  let s := s.setCasement c { x with after := none, disarm := none, service := none }
  ((s.setn (oCas c 2 3) (s.nat (oCas c 2 3) % 2 : Nat)).setCas c 1).takeHeld c

/-- Has the cause of a FAULTED casement ended (R81)? -/
def State.faultEnded (s : State) (c : Nat) : Bool :=
  let x := s.casOf c
  if s.nat (oCas c 2 0x0A) ≤ 1 then s.flt.concern.all (fun p => p.2 != c)
  else x.polls == 0 && s.idValid c

/-- FAULTED to COLD (R81). -/
def State.faultToCold (s : State) (c : Nat) : State := (s.toCold c).setn (oCas c 2 0x0A) 0

/-- The service measurement fails on its rails (R229), its power-down running already. -/
def State.svcRails (s : State) (c : Nat) : State :=
  let x := s.casOf c
  match x.svc with
  | some v =>
    if v.phase = 3 then s
    else s.setCasement c { x with meas := none, train := none, svc := some { v with phase := 3, res := 1 } }
  | none => s

/-- CASEMENT_DOWN has ended on casement `c`'s executor. -/
def State.casDownDone (s : State) (c : Nat) : State :=
  let x := s.casOf c
  let s := match x.svc with
    | some v => (s.setCasement c { x with svc := none, meas := none }).setn (oCas c 0x0D 0x0E) (v.res : Nat)
    | none => s
  let x := s.casOf c
  let st := s.casState c
  match x.after with
  | some 6 => if st = 6 ∧ s.faultEnded c then s.faultToCold c else s.setCasement c { x with after := none }
  | some v =>
    if st = 0 ∨ st = 6 ∨ x.opened ≠ [] then s.setCasement c { x with after := none }
    else if v = 5 then s.toService c
    else s.toCold c
  | none => s

/-- An arming failure: as an expired arming timeout (R81, R388). -/
def State.armFail (s : State) (c : Nat) : State :=
  if s.casState c = 2 ∧ (s.casOf c).after = none then (s.event c 0xA c).beginPowerDown c 1 else s

/-- CASEMENT_UP or CASEMENT_MEASURE has ended on casement `c`'s executor with a status. -/
def State.casUpDone (s : State) (c status : Nat) : State :=
  let x := s.casOf c
  match x.svc with
  | some v =>
    if v.phase ≠ 0 then s
    else if status ≠ 0 ∨ !s.headPower c then s.svcEnd c v 1
    else
      let s := (s.setCasement c { x with svc := some { v with phase := 1 } }).startTraining c 2
      if (s.casOf c).train.isSome then s else s.svcMeasure c
  | none =>
    if s.casState c ≠ 2 ∨ x.after.isSome then s
    else if status ≠ 0 then s.armFail c
    else s.tryTraining c

/-! ## Commands of R81 -/

/-- The refusal of an arm command and whether it raises HEAD_MISMATCH (R55, R77, R81, R169, R177, R198, R223, R232). -/
def State.armCheck (s : State) (c : Nat) : Option (Refuse × Bool) :=
  let x := s.casOf c
  if s.casState c ≠ 1 ∨ !(s.modeN == 4 || s.modeN == 5) ∨ x.after.isSome ∨ s.exBusy c ∨ !s.configured c ∨ !x.recOk then
    some (.state, false)
  else
    let s := s.armEnforce c
    let k := s.casAxis c
    let r := s.nat (oCas c 0 0x0B)
    if !s.recordFits c x.recd (fun k => s.frcN k) ∨ !s.rowsOk c then some (.range, true)
    else if s.nat (oCas c 0 1) = 1 ∧ s.nat (oGin (s.nat (oCas c 0 2)) 3) ≠ k then some (.range, false)
    else if r ≠ 0xFF ∧ s.nat (oRej r 2) ≠ k then some (.range, false)
    else if !s.capacityOk c ∨ !mapFits (s.str (oCas c 0x0C 1)) (s.codeBits c) ∨ !s.measCodeOk c then some (.range, false)
    else none

/-- Entry to ARMING (R81, R163, R206, R216, R220, R232). -/
def State.armAct (s : State) (c : Nat) : State :=
  let s := s.armEnforce c
  let x := s.casOf c
  let s := s.setCasement c { x with armT := s.now, trained := false, train := none, win := [], hb := 32768, disarm := none,
                                    service := none, meas := none, svc := none }
  let s := (((s.setn (oCas c 9 5) 32768).setn (oCas c 5 2) 1).setCas c 2).fillTable c
  let lat : Int := if s.frcN (oCas c 7 1) = 1 then s.num (oCas c 7 2) else wrapS 32 (s.recF c 0x24 4)
  let s := s.setn (oCas c 7 3) lat
  let s := s.setn (oCas c 0x0E 0x15) (if s.frcN (oCas c 0x0E 0x14) = 1 then (s.rowOffsetOf c : Int) else 0)
  ((s.ledgerInit c).startProgram c 3).tryTraining c

/-- The refusal of a casement command (R81), with whether HEAD_MISMATCH is raised. -/
def State.casCheck (s : State) (c cmd : Nat) : Option (Refuse × Bool) :=
  let x := s.casOf c
  let st := s.casState c
  let ok : Bool := match cmd with
    | 2 => st == 2 || st == 3 || st == 4
    | 3 => st == 1 || st == 3 || st == 4
    | 4 => st == 5
    | 5 => st == 6 && x.opened.isEmpty && x.after.isNone && s.faultEnded c
    | _ => false
  if cmd = 1 then s.armCheck c else if ok then none else some (.state, false)

/-- Status bits 1 and 2 of a casement: disarm and service pending (R83). -/
def State.casPending (s : State) (c : Nat) : State :=
  let x := s.casOf c
  (s.setbit (oCas c 2 3) 1 x.disarm.isSome).setbit (oCas c 2 3) 2 x.service.isSome

/-- A disarm or service command of an ARMED casement acts once no mark decided before its ts + 2 us can still commit (R11, R65): the
power-down program runs. Where both wait, the later command decides between COLD and SERVICE (log 101). -/
def State.takeCommand (s : State) (c : Nat) : State :=
  let x := s.casOf c
  let due (o : Option Time) : Bool := match o with
    | some u => decide (u + usT 2 ≤ s.now)
    | none => true
  let yes := x.pend.any (fun m => m.vote == some true)
  if s.casState c ≠ 3 ∨ x.opened ≠ [] ∨ yes ∨ !due x.disarm ∨ !due x.service then s
  else
    let target := match x.disarm, x.service with
      | none, none => none
      | some _, none => some 1
      | none, some _ => some 5
      | some d, some v => some (if d ≤ v then 5 else 1)
    match target with
    | some v => if x.after = some v then s else s.beginPowerDown c v
    | none => s

/-- The same for every casement. -/
def State.takeCommands (s : State) : State := (List.range 48).foldl State.takeCommand s

/-- A casement command accepted (R65, R81); from ARMED and OPEN it acts under `takeCommand`. -/
def State.casAct (s : State) (c cmd : Nat) : State :=
  let x := s.casOf c
  let st := s.casState c
  match cmd with
  | 1 => s.armAct c
  | 2 =>
    let s := (s.setCasement c { x with disarm := some s.now }).casPending c
    if st = 2 then s.beginPowerDown c 1 else s
  | 3 =>
    if st = 1 then s.toService c
    else
      (s.setCasement c { x with service := some s.now }).casPending c
  | 4 =>
    let s := match x.svc with
      | some v => if v.phase = 3 then s else s.svcEnd c v 1
      | none => s
    s.toCold c
  | 5 =>
    if s.railsOn c then
      let s := s.setCasement c { x with after := some 6 }
      if s.exBusy c ∧ (s.exOf c).entry = 4 then s else s.startProgram c 4
    else s.faultToCold c
  | _ => s

/-- The last committed mark of a casement has closed: OPEN to ARMED, or on to a deferred command (R81). -/
def State.afterClose (s : State) (c : Nat) : State :=
  let x := s.casOf c
  if s.casState c ≠ 4 ∨ x.opened ≠ [] then s
  else
    (s.setCas c 3).takeCommand c

def execChangeApply (t : Time) (s : State) : Step :=
  .next ((s.tick t).applyChanges t).takeCommands

/-- ARMING to ARMED (R81): program ended with 0, rails good, records loaded, CTH and CVS within their windows. -/
def execArmingComplete (t : Time) (c : Fin 48) (s : State) : Step :=
  let s := s.tick t
  let x := s.casOf c
  if s.casState c = 2 ∧ x.after = none ∧ !s.exBusy c ∧ x.trained ∧ x.train = none ∧ s.headOk c t (fun k => s.dec k t) then
    .next (((s.setCasement c { x with hourT := some t }).setCas c 3).sillAsk c (.add 1 1 (serialOf x.recd)))
  else .next s

def execArmingTimeout (t : Time) (c : Fin 48) (s : State) : Step :=
  let s := s.tick t
  if (s.casOf c).armT + msT (s.frcN (oCas c 0 0x0E)) ≤ t then .next (s.armFail c) else .next s

/-! ## Usage counters (R241) -/

def execUsageLinesFlush (t : Time) (c : Fin 48) (s : State) : Step :=
  let s := s.tick t
  if s.casState c = 3 ∨ s.casState c = 4 then .next (s.usageFlush c) else .next s

def execUsageHour (t : Time) (c : Fin 48) (s : State) : Step :=
  let s := s.tick t
  let x := s.casOf c
  match x.hourT with
  | some h =>
    if (s.casState c = 3 ∨ s.casState c = 4) ∧ h + secT 3600 ≤ t then
      .next ((s.setCasement c { x with hourT := some (h + secT 3600) }).sillAsk c (.add 3 1 (serialOf x.recd)))
    else .next s
  | none => .next s

end Sys2Proof.Machine
end

