-- ==== Sys2Proof/Machine/Ledger.lean ====
section
/-! DEFINITION. The Ledger and head service: measurement (R221 to R229), scrubbing (R233 to R235), sensor estimates (R237, R238) and the
transfers of records (R245). -/

namespace Sys2Proof.Machine

/-! ## Measuring (R223 to R229) -/

/-- A signed coefficient of the identity record. -/
def State.coef (s : State) (c i : Nat) : Int := wrapS 16 (s.recF c (0x28 + 2 * i) 2)

/-- The code of a measurement from its three conversions in mV (R225). Where a division by zero leaves it unstated, it is a free
value. -/
def State.measCode (s : State) (c vb vh von : Nat) : Nat × State :=
  let rt := s.frcN (oCas c 0x0D 6)
  let rnom := s.recF c 0x10 2
  let i := (von - vb) * 1000000 / max 1 rt
  let c0 : Int := if s.coef c 0 = 0 then 16384 else s.coef c 0
  if von ≤ vb then (1023, s)
  else if i = 0 ∨ rnom = 0 then
    let (v, s) := s.free 10
    (max 1 v, s)
  else
    let rl := tdiv ((rnom : Int) * s.coef c 1) 16384
    let r := max 0 ((vh * 10000 / i : Nat) - rl)
    ((max 1 (min 1023 (tdiv (512 * r * c0 + rnom * 8192) (rnom * 16384)))).toNat, s)

/-- The defect kind a code meets (R230), 0 for none. -/
def State.defectOf (s : State) (c code : Nat) : Nat :=
  if code = 1023 then 1
  else if code < s.nat (oCas c 0x0E 0x0F) then 2
  else if code < s.nat (oCas c 0x0E 0x10) then 3
  else if s.nat (oCas c 0x0E 0x11) < code then 4
  else 0

/-- The listed kind of an element, 0 for none. -/
def State.listedKind (s : State) (c e : Nat) : Nat := (((s.casOf c).defects.find? (fun d => d.elem = e)).map Defect.kind).getD 0

/-- A result within limits (R226, R229): RCODE and RCLASS are written; a dead element keeps its class unless its kind lets it revive. -/
def State.measWrite (s : State) (c e code : Nat) (service : Bool) : State :=
  let (d, _, s) := s.useRec c e
  let k := s.listedKind c e
  let revive := k == 6 || (service && (k == 3 || k == 4))
  let cls := if recClass d = 15 ∧ !revive then 15 else s.classOf c code
  let s := s.putRec c e (mkRec (recDuty d) code cls (recHist d))
  if revive then
    let x := s.casOf c
    (s.setCasement c { x with defects := x.defects.filter (fun y => y.elem != e) }).defectsChanged c
  else s

/-- In-gap measurement may run (R227). -/
def State.gapOk (s : State) (c : Nat) : Bool :=
  let x := s.casOf c
  s.casState c == 3 && x.opened.isEmpty && x.after.isNone && s.nat (oCas c 0x0D 1) == 1 && s.frcN (oCas c 0x0D 2) == 0 &&
    s.headOk c s.now (fun k => s.dec k s.now)

/-- The next element of an in-gap pass (R227): kind ECC ahead of the cursor, each once a pass; then live elements from the cursor. -/
def State.gapNext (s : State) (c : Nat) : Option Nat :=
  let x := s.casOf c
  match x.defects.find? (fun d => d.kind = 6 ∧ !x.seen.contains d.elem) with
  | some d => some d.elem
  | none => ((List.range (s.ne c)).drop x.cursor).find? (fun e => !s.dead c e)

/-- Start the cycle of the next element, or end the pass (R227); an interval of 0 starts the next pass at once. -/
def State.gapGo (s : State) (c : Nat) (base : Option Time) : State :=
  match s.gapNext c with
  | some e => s.measLoad c ⟨0, e, false, 0, 0⟩ base
  | none =>
    let again := s.nat (oCas c 0x0D 7) = 0
    let s := s.setCasement c { s.casOf c with meas := none, cursor := 0, seen := [], pass := decide again,
                                              passT := if again then some s.now else (s.casOf c).passT }
    (((s.setn (oCas c 0x0D 8) 0).bump (oCas c 0x0D 9)).event c 0x12 c)

/-- The element taken counts: the cursor passes it, or it has been taken ahead of the cursor. -/
def State.gapTaken (s : State) (c e : Nat) : State :=
  let x := s.casOf c
  if s.listedKind c e = 6 ∧ !x.seen.contains e then s.setCasement c { x with seen := e :: x.seen }
  else (s.setCasement c { x with cursor := e + 1 }).setn (oCas c 0x0D 8) (e + 1 : Nat)

/-- A cycle has its code (R226): confirm, declare or write, and go on. -/
def State.measResult (s : State) (c code : Nat) (m : Meas) : State :=
  let k := s.defectOf c code
  let next := some (m.t0 + s.measRounds c * roundT)
  if k ≠ 0 ∧ !m.confirm then s.measLoad c { m with confirm := true } next
  else
    let s0 := if m.kind = 0 then s.gapTaken c m.elem else s
    let s1 := if k ≠ 0 then s0.declare c m.elem k else s0.measWrite c m.elem code (decide (m.kind ≠ 0))
    let s1 := if k = 0 ∧ m.confirm then s1.bump (oCas c 0x0D 0x0B) else s1
    match m.kind with
    | 0 => s1.gapGo c next
    | 1 =>
      if m.elem + 1 < s1.ne c then
        s1.measLoad c ⟨1, m.elem + 1, false, 0, 0⟩ next
      else match (s1.casOf c).svc with
        | some v => s1.svcEnd c v 0
        | none => s1
    | _ =>
      match (s1.casOf c).svc with
      | some v => s1.svcEnd c v 0
      | none => s1

/-- A measurement cycle with the conversions Vb, Vh and Von, at its step 6 (R224 to R226): the pulse has been sent, the code is computed
and used, and the next cycle starts. With no cycle in progress, after a mark has closed, the pass goes on with a new one. -/
def execMeasureCycle (t : Time) (c : Fin 48) (vb vh von : Nat) (s : State) : Step :=
  let s := s.tick t
  let x := s.casOf c
  let j := c.val / 6
  let mv (k : Nat) := s.adcCode j k * s.vddaOf j / 4096
  let supply := s.adcCode j vh * s.vddaOf j * s.nat (oCas c 6 2) / (4096 * 65536)
  let run (s : State) (m : Meas) : Step :=
    if t < m.stop c then .next s
    else
      let (code, s) := (s.measPulse c m).measCode c (mv vb) supply (mv von)
      .next (s.measResult c code m)
  match x.svc with
  | some v =>
    if v.phase ≠ 2 then .next s
    else if s.casState c ≠ 5 then .next (s.svcEnd c v 1)
    else match x.meas with
      | some m => run s m
      | none => .next s
  | none =>
    if !s.gapOk c ∨ !x.pass then .next s
    else match x.meas with
      | some m => run s m
      | none => .next (s.gapGo c none)

/-- A new in-gap pass starts once the interval has run (R227). -/
def execMeasurePassStart (t : Time) (c : Fin 48) (s : State) : Step :=
  let s := s.tick t
  let x := s.casOf c
  let due : Bool := match x.passT with
    | some u => decide (u + secT (s.nat (oCas c 0x0D 7)) ≤ t)
    | none => true
  if s.gapOk c ∧ !x.pass ∧ due then
    .next ((s.setCasement c { x with pass := true, passT := some t, seen := [] }).gapGo c none)
  else .next s

/-- The refusal of a service execute 1 or 2 (R229). -/
def State.measSvcCheck (s : State) (c v : Nat) : Option Refuse :=
  let x := s.casOf c
  if s.casState c ≠ 5 ∨ x.svc.isSome ∨ s.exBusy c ∨ !s.configured c ∨ !x.recOk then some .state
  else if v = 2 ∧ s.ne c ≤ s.nat (oCas c 0x0D 0x0C) then some .range
  else none

/-- A service execute accepted: the power-up program, or the measurement program with supply 1 (R229). -/
def State.measSvcAct (s : State) (c v : Nat) : State :=
  let x := s.casOf c
  let s := (s.setCasement c { x with svc := some ⟨v, s.nat (oCas c 0x0D 0x0C), 0, 0⟩ }).setn (oCas c 0x0D 0x0E) 0xFF
  s.startProgram c (if s.frcN (oCas c 0x0D 2) = 1 then 5 else 3)

/-- A measurement enable that R223 or R228 refuses. -/
def State.measEnableOk (s : State) (c : Nat) : Bool :=
  let units := if s.portKind c = 1 then s.frameUnits c + cdiv (s.headLatch c * 16) 25
    else s.laneLen c * s.shiftPeriod c + s.latchUnits c + s.nat (oCas c 4 7)
  s.measCodeOk c && decide (2 * units * 25 + 160000 ≤ s.nat (oCas c 0 7) * 16000)

/-! ## Scrubbing (R234, R235) -/

/-- The element a record of a bank holds, with its casement. -/
def State.ledElem (s : State) (bank q : Nat) : Option (Nat × Nat) :=
  let c := s.nat (oSash bank 1)
  if 48 ≤ c then none
  else
    let j := bank - s.frcN (oCas c 4 2)
    let (j, q) := if s.portKind c = 2 then (2 * j + q / 16384, q % 16384) else (j, q)
    let e := if bit (s.recF c 6 1) 1 then q * s.lanes c + j else j * s.laneLen c + q
    if e < s.ne c ∧ s.lanePos c e = (j, q) then some (c, e) else none

/-- The scrubber reads record `q` of bank `b`: a single error is corrected and counted, a double error is uncorrectable (R234, R235). -/
def State.scrubBank (q : Nat) (s : State) (b : Nat) : State :=
  let k := b * 32768 + q
  match readCheck (s.ledWord k) with
  | (_, 0) => s
  | (d, 1) =>
    let s := s.setLed k (withCheck d)
    (match s.ledElem b q with
      | some (c, _) => s.bump (oCas c 0x10 7)
      | none => s)
  | _ =>
    match s.ledElem b q with
    | some (c, e) => s.ledUncorrectable c e
    | none => (s.setLed k (withCheck (mkRec 0 0 15 0))).fault (b / 16) 1 b q

/-- The scrubber reads one record of every bank. -/
def execScrubStep (t : Time) (s : State) : Step :=
  let s := s.tick t
  if s.nat (ky 0x2020 1) = 0 ∨ !s.running ∨ !elapsed s.ledScrubT (usT (s.nat (ky 0x2020 1))) t then .next s
  else
    let q := s.ledScrub
    let s := (List.range 192).foldl (State.scrubBank q) s
    let s := { s with ledScrub := (q + 1) % 32768, ledScrubT := some t }
    .next (if q + 1 = 32768 then s.bump (ky 0x2020 2) else s)

/-! ## Sensor estimates (R237, R238) -/

/-- A span of counted ribbon ends: the supply spool's diameter, and from it the estimate (R237), in exact rationals truncated at the
end. -/
def execSpoolSpan (t : Time) (c : Fin 48) (s : State) : Step :=
  let s := s.tick t
  let x := s.casOf c
  let span := x.span
  match x.spool with
  | some p0 =>
    if s.nat (oCas c 1 1) ≠ 1 ∨ s.nat (oCas c 0x0F 5) ≠ 3 ∨ x.ribbon < span then .next s
    else
      let p := s.num (oAx (s.nat (oCas c 0x0F 6)) 1 8)
      let n := (sdiff p p0).natAbs
      let s := s.setCasement c { x with ribbon := x.ribbon - span, spool := some p, span := s.nat (oCas c 0x0F 0x0A) }
      if n = 0 then .next s
      else
        let pi := 3141592653589793238
        let one := 10 ^ 18
        let sc := span * s.nat (oCas c 0x0F 7)
        let dc := s.nat (oCas c 0x0F 8)
        let th := s.nat (oCas c 0x0F 9)
        let num := sc * sc * 250 * (one * one) - pi * pi * dc * dc * 250 * n * n
        .next ((s.setn (oCas c 0x0F 4) (num / (pi * n * n * max 1 th * one) : Nat)).consumableStatus c)
  | none => .next s

/-- Every 10 s an ink sensor in head memory is read (R238). -/
def execInkSensorPoll (t : Time) (c : Fin 48) (s : State) : Step :=
  let s := s.tick t
  if s.running ∧ s.configured c ∧ s.casState c ≠ 0 ∧ s.nat (oCas c 1 1) = 2 ∧ s.nat (oCas c 0x0F 5) = 1 ∧ elapsed (s.casOf c).inkT (secT 10) t then
    .next ((s.setCasement c { s.casOf c with inkT := some t }).sillAsk c (.sensor (s.nat (oCas c 0x0F 6))))
  else .next s

/-! ## Records by the host (R245) -/

/-- COLD or SERVICE, where port A is idle (R219). -/
def State.portAIdle (s : State) (c : Nat) : Bool := s.casState c == 1 || s.casState c == 5

/-- What the record object reads: the corrected word, or an uncorrectable one as read. -/
def State.recordRead32 (s : State) (c : Nat) : Nat :=
  let e := s.nat (oCas c 0x10 1)
  let w := s.ledWord (s.ledKey c e)
  if s.ne c ≤ e then 0
  else match readCheck w with
    | (_, 2) => w
    | (d, _) => withCheck d

/-- A host write of the record of the element named. -/
def State.recordPut (s : State) (c v : Nat) : State := s.putRec c (s.nat (oCas c 0x10 1)) (v % 2 ^ 26)

/-- The transfer's address is usable: ne words in installed DRAM. -/
def State.transferOk (s : State) (c : Nat) : Bool :=
  let a := s.nat (oCas c 0x10 3)
  a % 8 == 0 && s.inDram a (4 * s.ne c)

/-- Transfer execute 1: the records to DRAM; an uncorrectable record's word as read (R245). -/
def State.ledgerExport (s : State) (c : Nat) : State :=
  if !s.transferOk c then s.setn (oCas c 0x10 5) 2
  else
    let a := s.nat (oCas c 0x10 3)
    (List.range (s.ne c)).foldl (fun s e =>
      let w := s.ledWord (s.ledKey c e)
      match readCheck w with
      | (_, 2) => ((s.dramWrite (a + 4 * e) (leBytes 4 w)).ledUncorrectable c e).setn (oCas c 0x10 5) 3
      | (d, 1) => (s.dramWrite (a + 4 * e) (leBytes 4 (withCheck d))).bump (oCas c 0x10 7)
      | _ => s.dramWrite (a + 4 * e) (leBytes 4 w)) (s.setn (oCas c 0x10 5) 0)

/-- Transfer execute 2: the records from DRAM, CHECK computed afresh (R245). -/
def State.ledgerImport (s : State) (c : Nat) : State :=
  if !s.transferOk c then s.setn (oCas c 0x10 5) 2
  else
    let a := s.nat (oCas c 0x10 3)
    (List.range (s.ne c)).foldl (fun s e => s.putRec c e (leNat (s.dramRead (a + 4 * e) 4) % 2 ^ 26)) (s.setn (oCas c 0x10 5) 0)

end Sys2Proof.Machine
end

