-- ==== Sys2Proof/Machine/Firing.lean ====
section
/-! DEFINITION. The firing engine: where a line lands, its load, freeze, strobe and write-back, and the close of a mark (R114, R187 to
R213, R231, R232, R236). -/

namespace Sys2Proof.Machine

/-! ## Lines of the open marks -/

/-- Line `n` of a mark. -/
def Mark.line (m : Mark) (n : Nat) : Line := tget (fun _ => Line.init) m.lns n

/-- Replace line `n` of a mark. -/
def Mark.setLine (m : Mark) (n : Nat) (l : Line) : Mark := { m with lns := tset (fun _ => Line.init) m.lns n l }

/-- All lines of the open marks in trigger order (R14). -/
def Cas.lines_ (x : Cas) : List (Mark × Nat) := x.opened.flatMap (fun m => (List.range m.count).map (fun n => (m, n)))

/-- The first line in trigger order that `p` picks. -/
def Cas.findLine (x : Cas) (p : Line → Bool) : Option (Mark × Nat) := x.lines_.find? (fun q => p (q.1.line q.2))

/-- The lines ahead of line `n` of mark `m` that have not finished, in trigger order. -/
def Cas.ahead (x : Cas) (m : Mark) (n : Nat) : List Line :=
  ((x.lines_.takeWhile (fun q => !(q.1.order == m.order && q.2 == n))).map (fun q => q.1.line q.2)).filter (fun l => l.st != .fired)

/-- Is a state one of the three blank states? -/
def LSt.blank (st : LSt) : Bool := st == .late || st == .skip || st == .fault

/-- Frames that have been sent to the end are complete: LOADING to LOADED. -/
def State.settleLoads (s : State) (c : Nat) (t : Time) : State :=
  let x := s.casOf c
  s.setCasement c { x with opened := x.opened.map (fun m => { m with
    lns := m.lns.map (fun (n, l) => if l.st = .loading ∧ l.frameEnd ≤ t then (n, { l with st := .loaded }) else (n, l)) }) }

/-! ## Trigger prediction (R187, R188, R192) -/

/-- vnom of a mark, mV (R202, R216). -/
def State.vnom (s : State) (c : Nat) (m : Mark) : Nat :=
  if s.frcN (oCas c 9 1) = 1 then m.nat (oCas c 9 2) else s.recF c 0x12 2

/-- The latest start of a load ahead of its trigger (R192). -/
def State.leadT (s : State) (c : Nat) : Time :=
  if s.portKind c = 1 then nsT (s.headLatch c) + s.longT (s.frameUnits c)
  else
    let p := s.shiftPeriod c
    s.longT (2 * s.laneLen c * p + p + 2 * s.latchUnits c) / 2 + unitT (s.nat (oCas c 4 7))

/-! ## Load conditions (R191, R114, R232) -/

/-- A line of the overflow area whose refill is not complete (R114, R232). -/
def State.refillOwed (s : State) (c : Nat) (m : Mark) (n : Nat) : Bool :=
  let l := (m.tpl.map Template.lines).getD 0
  let lb := s.bufferLines c
  let dr := s.rowOffset c
  decide (n < l ∧ lb ≤ n ∧ lb ≠ 0) && (m.refills.contains n ||
    !(if dr = 0 then (m.line (n - lb)).st == .fired else (m.line (n - lb + dr)).st != .waiting))

/-- Condition 2: composed in the galley, or held in its overflow slot. -/
def State.lineReady (s : State) (c : Nat) (m : Mark) (n : Nat) : Bool :=
  !m.bad.contains n && !s.refillOwed c m n && decide (n < m.lines.length ∨ ((m.tpl.map Template.lines).getD 0) ≤ n)

/-- Conditions 3 and 4: every frame started, of a blanked line and of a CANCEL too, has been sent with its idle bits, and line n - 2 has
left FIRING or a blank state. On a classic port, that the shift register is free: no plane is being shifted, and the last plane of the line
ahead has been latched. -/
def State.linkFree (s : State) (c : Nat) (m : Mark) (n : Nat) (t : Time) : Bool :=
  let ahead := (s.casOf c).ahead m n
  decide ((s.casOf c).linkT ≤ t) &&
  if s.portKind c = 1 then decide (ahead.length ≤ 1)
  else
    ahead.all (fun l => l.st.blank ||
      (l.st == .firing && decide (l.tT + unitT ((l.offs.getLast?.getD 0)) ≤ t + unitT (s.nat (oCas c 4 7)))))

/-! ## Overspeed state and blank lines (R193 to R195, R209, R210) -/

/-- The outcome class of the latest line (R210). -/
def State.overspeed (s : State) (c v : Nat) : State :=
  let old := s.nat (oCas c 7 0x0B)
  let s := s.setn (oCas c 7 0x0B) (v : Nat)
  if old = 0 ∧ v ≠ 0 then s.event c 0x10 c else if old ≠ 0 ∧ v = 0 then s.event c 0x11 c else s

/-- A line goes to a blank state; a frame sent is cancelled (R160, R193). -/
def State.blankLine (s : State) (c : Nat) (m : Mark) (n : Nat) (why : LSt) : State :=
  let l := m.line n
  let owed := s.refillOwed c m n
  let s := if l.sent then s.sendCancel c l.seq else s
  let m := m.setLine n { l with st := why, w := [], offs := [], dline := 0, endT := 0 }
  match why with
  | .late =>
    let s := if m.late = 0 then s.event c 0xF c else s
    let s := if owed then (s.bump (oCas c 3 0x0D)).event 0xF3 0 c else s
    (s.setOpen c { m with late := m.late + 1 }).bump (oCas c 7 0x0C)
  | .skip => ((s.setOpen c { m with skipped := m.skipped + 1 }).bump (oCas c 7 0x0D)).overspeed c 2
  | _ => (s.setOpen c { m with blank := m.blank + 1 }).bump (oCas c 7 0x10)

/-- BLANK_FAULT (R195): the casement is FAULTED, a head rail is not good, the strobe checker has acted, or an earlier line of the
mark was blanked or ended so. -/
def State.lineFault (s : State) (c : Nat) (m : Mark) : Bool := s.casState c == 6 || !s.headPower c || m.strobeActed

/-! ## LINE_LOAD (R191, R197 to R199, R201) -/

/-- The planned history of element `e` (R199): the record's, then each unfinished line ahead. -/
def plannedHist (ahead : List Line) (h e : Nat) : Nat :=
  ahead.foldl (fun h l => (if !l.st.blank && ((l.codes[e]?).getD 0) != 0 then 2 else 0) + h / 2) h

/-- The history timeout has passed since the last pulse of the previous fired line. -/
def State.cooled (s : State) (c : Nat) (ahead : List Line) (t : Time) : Bool :=
  !ahead.any (fun l => l.st == .firing) && (match (s.casOf c).lastPulse with
    | some u => decide (u + usT (s.nat (oCas c 7 8)) < t)
    | none => false)

/-- The duty class of an accumulator under a mark's thresholds (R200). -/
def dutyClass (c : Nat) (m : Mark) (a : Nat) : Nat :=
  if a < m.nat (oCas c 0x0B 2) then 0 else if a < m.nat (oCas c 0x0B 3) then 1 else if a < m.nat (oCas c 0x0B 4) then 2 else 3

/-- The energy map's code at an index (R197). -/
def mapCode (map : Bytes) (i : Nat) : Nat :=
  let b := ((map[i / 2]?).getD 0).toNat
  if i % 2 = 0 then b % 16 else b / 16

/-- The codes of a line's elements, with the state after the reads of their records (R197, R235). -/
def State.lineCodes (s : State) (c : Nat) (m : Mark) (tones : List Nat) (ahead : List Line) (cool : Bool) : List Nat × State :=
  let map := (m.set_ (oCas c 0x0C 1)).bytes
  tones.zipIdx.foldl (fun (acc : List Nat × State) (tone, e) =>
    let (d, ok, s) := acc.2.useRec c e
    let rc := if m.hide.contains e then 15
      else if recClass d = 15 ∧ m.keep.contains e then s.classOf c (if recCode d = 0 then s.rankCode c else recCode d)
      else recClass d
    let h := if cool then 0 else plannedHist ahead (recHist d) e
    let code := if tone = 0 ∨ rc = 15 ∨ !ok then 0
      else mapCode map (tone * 256 + h * 64 + rc * 4 + dutyClass c m (recDuty d))
    (acc.1 ++ [code], s)) ([], s)

/-- Elements whose mask holds each slice (R201). -/
def State.sliceCounts (s : State) (c : Nat) (codes : List Nat) : List Nat :=
  (List.range (s.slices c)).map (fun j => (codes.filter (fun x => bit (s.mask c x) j)).length)

/-- Start the load of line `n`. -/
def State.loadLine (s : State) (c : Nat) (m : Mark) (n : Nat) (t : Time) : State :=
  let ahead := (s.casOf c).ahead m n
  let tones := s.subTones c m n (s.deadMask c m)
  let (codes, s) := s.lineCodes c m tones ahead (s.cooled c ahead t)
  let nj := s.sliceCounts c codes
  let seq := (s.casOf c).seqNo
  let code (e : Nat) : Nat := (codes[e]?).getD 0
  let s :=
    if s.portKind c = 1 then
      s.sendSashes c 1 (s.frameUnits c) (fun j => s.lineFrame c j (s.slices c) (n + 1 == m.count) (n == 0) seq code)
    else s.sendPlane c (fun e => bit (s.mask c (code e)) 0)
  let s := s.nextSeq c
  let units := if s.portKind c = 1 then s.frameUnits c else s.laneLen c * s.shiftPeriod c
  let l := { m.line n with st := .loading, seq := seq, sent := true, tones := tones, codes := codes, nj := nj,
                           frameEnd := t + s.longT units }
  let dr := s.rowOffset c
  let lb := s.bufferLines c
  let lt := (m.tpl.map Template.lines).getD 0
  let m := m.setLine n l
  s.setOpen c (if dr ≠ 0 ∧ dr ≤ n ∧ n - dr + lb < lt then { m with refills := m.refills ++ [n - dr + lb] } else m)

/-- LINE_LOAD: the first line not loaded starts to load where its conditions hold and its latest start has not passed. -/
def execLineLoad (t : Time) (c : Fin 48) (s : State) : Step :=
  let s := (s.tick t).settleLoads c t
  match (s.casOf c).findLine (fun l => l.st == .waiting) with
  | some (m, n) =>
    let inTime : Bool := match s.trigT c m n with
      | some u => decide ((t : Int) ≤ u - (s.leadT c : Int))
      | none => true
    if s.lineReady c m n && s.linkFree c m n t && inTime then .next (s.loadLine c m n t) else .next s
  | none => .next s

/-- LOAD_DEADLINE: the latest start of a line passes with its load not started (R193, R194). A first line whose latest start passed before
its mark was committed is late data (R189). -/
def execLoadDeadline (t : Time) (c : Fin 48) (s : State) : Step :=
  let s := (s.tick t).settleLoads c t
  match (s.casOf c).findLine (fun l => l.st == .waiting) with
  | some (m, n) =>
    match s.trigT c m n with
    | some u =>
      if (t : Int) < u - (s.leadT c : Int) then .next s
      else
        let early := n = 0 ∧ u - (s.leadT c : Int) < (m.tD : Int)
        .next (s.blankLine c m n (if ¬early ∧ s.lineReady c m n ∧ !s.linkFree c m n t then .skip else .late))
    | none => .next s
  | none => .next s

/-! ## Widths (R202 to R205) -/

/-- fv of R202. -/
def voltFactor (vnom v : Nat) : Nat :=
  if v = 0 then 32768 else min 32768 (max 8192 ((vnom * vnom * 16384 + v * v / 2) / (v * v)))

/-- ft of R203. -/
def tempFactor (tab : Nat → Nat) (t16 : Int) : Nat :=
  let x := (min 2480 (max 0 (t16 + 320))).toNat
  let i := x / 80
  let f := x - 80 * i
  (tab i * (80 - f) + tab (min (i + 1) 31) * f + 40) / 80

/-- The width of a slice before its limits (R205). -/
def rawWidth (wb fv ft hb kss c : Nat) : Nat :=
  let k := fv * ft * hb / 32768 * kss / 65536 * c / 32768
  (wb * k + 134217728) / 268435456

/-- Widths of a line's slices, and which of them were raised to 2 (R161, R205). -/
def State.widths (s : State) (c : Nat) (m : Mark) (fv ft hb cf : Nat) : List Nat × List Bool :=
  let wmax := min 65535 (s.nat (oCas c 4 0x0B) * 640)
  let kss := 65536 - 82 * s.dsp
  let raw := (List.range (s.slices c)).map (fun j => rawWidth (m.nat (oCas c 8 (j + 1))) fv ft hb kss cf)
  (raw.map (fun w => max 2 (min wmax w)), raw.map (fun w => decide (w < 2)))

/-- The start of each pulse after the trigger, in units: with the slice gap, or the spacing of R168 on a classic port. -/
def State.pulseOffs (s : State) (c g : Nat) (w : List Nat) : List Nat :=
  (w.foldl (fun (acc : List Nat × Nat) x =>
    (acc.1 ++ [acc.2], acc.2 + (if s.portKind c = 1 then x + g else s.dsUnits c x))) ([], 0)).1

/-- From the first pulse of a line to the end of the slice gap after its last, in units (R193). -/
def State.pulseSpan (s : State) (c g : Nat) (w : List Nat) : Nat :=
  match (s.pulseOffs c g w).getLast?, w.getLast? with
  | some o, some x => o + x + g
  | _, _ => 0

/-- treq in units (R207). -/
def State.need (s : State) (c g : Nat) (w : List Nat) : Nat :=
  if s.portKind c = 1 then w.sum + w.length * g else (w.map (s.dsUnits c)).sum

/-- treq * 1.5625 * (1 + sigma) <= d / vf, exactly (R207). -/
def State.fits (s : State) (need : Nat) (d vf : Int) : Bool :=
  decide (((need * 25 * (400 + s.dsp) : Nat) : Int) * vf ≤ d * 419430400000)

/-- The factor c of R208. -/
def State.compress (s : State) (c g : Nat) (w : List Nat) (floor : Nat) (d vf : Int) : Nat :=
  let n := w.length
  let fix := if s.portKind c = 1 then n * g + n else n * (s.latchUnits c + s.nat (oCas c 4 7) + s.nat (oCas c 4 8))
  let b : Int := vf * ((400 + s.dsp) * 25 : Nat)
  let cf := tdiv (32768 * (d * 419430400000 - fix * b)) (b * (w.sum : Nat))
  (max (floor : Int) (min 32767 cf)).toNat

/-- A need in units as ns with (1 + sigma), rounded up (R211). -/
def State.needNs (s : State) (need : Nat) : Nat := cdiv (need * 25 * (400 + s.dsp)) 6400

/-- Publish the two minimum line periods (R211) with the factors given. -/
def State.publish (s : State) (c : Nat) (m : Mark) (fv ft hb : Nat) : State :=
  let g := m.nat (oCas c 7 7)
  let link := if s.portKind c = 1 then s.needNs (frameLen (s.payload c)) else 0
  let period (cf : Nat) : Nat := max 10417 (max link (s.needNs (s.need c g (s.widths c m fv ft hb cf).1)))
  (s.setn (oCas c 7 9) (period 32768 : Nat)).setn (oCas c 7 0x0A) (period (m.nat (oCas c 7 5)) : Nat)

/-- fv and ft from the latest conversions, for a mark's settings. -/
def State.factors (s : State) (c : Nat) (m : Mark) : Nat × Nat :=
  (voltFactor (s.vnom c m) (s.nat (oCas c 6 4)), tempFactor (fun i => m.nat (oCas c 0x0A (i + 1))) (s.num (oCas c 6 3)))

/-- MIN_PERIOD_REFRESH: while no mark is open, from the latest conversions and the settings in force (R211). -/
def execMinPeriodRefresh (t : Time) (c : Fin 48) (s : State) : Step :=
  let s := s.tick t
  let x := s.casOf c
  if x.opened ≠ [] ∨ !s.configured c ∨ !s.running ∨ !elapsed x.refreshT (usT 100) t then .next s
  else
    let s := s.setCasement c { x with refreshT := some t }
    let m := { Mark.init with cfg := s.snapshot c t }
    let (fv, ft) := s.factors c m
    .next (s.publish c m fv ft x.hb)

/-! ## LINE_FREEZE (R193, R195, R202 to R211) -/

/-- The head budget factor moves (R206): the new hb from the window with this line's dline. -/
def State.budget (s : State) (c : Nat) (m : Mark) (ahead : List Line) (dline : Nat) : Nat :=
  let x := s.casOf c
  let hw := m.nat (oCas c 9 6)
  let prev := (ahead.reverse.map (fun l => if l.st.blank then 0 else l.dline)) ++ x.win
  let dw := dline + (prev.take (hw - 1)).sum
  let emax := s.nat (oCas c 9 7)
  let bt := if dw = 0 ∨ emax = 0 then 32768 else min 32768 (emax * 32768 / dw)
  let bt := max (s.nat (oCas c 9 8)) bt
  (max 0 ((x.hb : Int) + max (-512) (min 512 ((bt : Int) - (x.hb : Int))))).toNat

/-- The pulses of a cut line that end within tavail, each with its following gap (R209). -/
def State.cutPulses (s : State) (c g : Nat) (w : List Nat) (d vf : Int) : List Nat :=
  (w.zipIdx.takeWhile (fun (_, i) => s.fits (s.need c g (w.take (i + 1))) d vf)).map Prod.fst

/-- Distance to the landing position that follows line `n` (R207). -/
def State.nextGap (s : State) (c : Nat) (m : Mark) (n : Nat) : Int :=
  if n + 1 < m.count then (m.pitch : Int)
  else match ((s.casOf c).opened.dropWhile (fun y => y.order != m.order)).drop 1 with
    | o :: _ => sdiff o.s0 (wrapS 64 (m.lp n))
    | [] => (m.pitch : Int)

/-- A time rounded to the nearest 1.5625 ns edge (R187). -/
def nearEdge (t : Int) : Time := ((t + unitT 1 / 2) / (unitT 1 : Nat) * (unitT 1 : Nat)).toNat

/-- LINE_FREEZE: the first unfrozen line at its trigger less 200 ns. -/
def execLineFreeze (t : Time) (c : Fin 48) (s : State) : Step :=
  let s := (s.tick t).settleLoads c t
  match (s.casOf c).findLine (fun l => l.st == .loading || l.st == .loaded) with
  | none => .next s
  | some (m, n) =>
    match s.trigT c m n with
    | none => .next s
    | some u =>
      let l := m.line n
      let ahead := (s.casOf c).ahead m n
      if (t + nsT 200 : Nat) < u ∨ ahead.any (fun a => a.st == .loading || a.st == .loaded || a.st == .waiting) then .next s
      else
        let tT := nearEdge u
        let v := s.nat (oCas c 6 4)
        let m := { m with minV := min m.minV v, maxT := max m.maxT (s.num (oCas c 6 3)) }
        let (fv, ft) := s.factors c m
        let s := ((s.setOpen c m).setn (oCas c 9 3) (fv : Nat)).setn (oCas c 9 4) (ft : Nat)
        let setup := if s.portKind c = 1 then nsT (s.headLatch c)
          else s.longT (s.shiftPeriod c + 2 * s.latchUnits c) / 2 + unitT (s.nat (oCas c 4 7))
        let g := m.nat (oCas c 7 7)
        let wd := (s.widths c m fv ft 32768 32768).1
        let dline := ((l.nj.zip wd).map (fun (a, b) => a * b)).sum
        let hb := s.budget c m ahead dline
        let s := (s.setCasement c { s.casOf c with hb := hb }).setn (oCas c 9 5) (hb : Nat)
        let s := s.publish c m fv ft hb
        if s.lineFault c m then .next (s.blankLine c { m with strobeActed := true } n .fault)
        else if tT < t ∨ tT < l.frameEnd + setup ∨ tT < (s.casOf c).lastEnd ∨ ahead.any (fun a => decide (tT < a.endT)) then
          .next (s.blankLine c m n .skip)
        else
          let vf := s.laxVf 33 (s.casAxis c)
          let d := s.nextGap c m n
          let fire (m : Mark) (s : State) (cf : Nat) (cut : Bool) (cls : Nat) : State :=
            let (w, raised) := s.widths c m fv ft hb cf
            let w := if cut then s.cutPulses c g w d vf else w
            let short := ((raised.take w.length).filter id).length
            let s := if short = 0 then s else (s.bumpBy (oCas c 4 0x0E) short).event c 5 c
            let lack := (((List.range wd.length).map (fun j =>
              ((wd[j]?).getD 0 - (w[j]?).getD 0) * (l.nj[j]?).getD 0))).sum / max 1 (s.ne c)
            let s := if cls = 0 then s
              else (s.bumpBy (oCas c 7 0x11) lack).bump (if cut then oCas c 7 0x0F else oCas c 7 0x0E)
            let l := { l with st := .frozen, tT := tT, w := w, offs := s.pulseOffs c g w, dline := dline,
                              endT := tT + s.longT (s.pulseSpan c g w) }
            let m := { m with minC := min m.minC cf, minHb := min m.minHb hb, cut := m.cut + (if cls = 0 then 0 else 1) }
            (s.setOpen c (m.setLine n l)).overspeed c cls
          let full := (s.widths c m fv ft hb 32768).1
          let pol := m.nat (oCas c 7 4)
          let floor := m.nat (oCas c 7 5)
          let cf := s.compress c g full floor d vf
          let ok (k : Nat) : Bool := s.fits (s.need c g (s.widths c m fv ft hb k).1) d vf
          if s.fits (s.need c g full) d vf then .next (fire m s 32768 false 0)
          else if pol = 2 then .next (s.blankLine c m n .skip)
          else if ok cf then .next (fire m s cf false 1)
          else if ok floor then .next (fire m s floor false 1)
          else if pol = 0 then .next (s.blankLine c m n .skip)
          else .next (fire m s floor true 1)

/-! ## LINE_TRIGGER and LINE_FIRED (R187, R190, R195, R196, R199, R200) -/

/-- The pulses of a line on CSTBc1: on a sash link pulse 0 (R161); on a classic port, by its mode, those of CSTBc0 or none (R165). -/
def State.secondPulses (s : State) (c : Nat) (p : List (Nat × Nat)) : List (Nat × Nat) :=
  if s.portKind c = 1 then p.take 1 else if s.frcN (oCas c 4 9) = 0 then p else []

/-- What the pins of casement `c` carry for a line that fires (R161, R165, R168): on a classic port each plane's latch, a latch-to-strobe
gap ahead of its pulse, and the next plane shifted from the latch's end; the pulses on both strobes. -/
def State.emitLine (s : State) (c : Nat) (l : Line) : State :=
  let tls := unitT (s.nat (oCas c 4 7))
  let s := if s.portKind c = 1 then s
    else l.offs.zipIdx.foldl (fun s (o, j) =>
      let s := s.send (.latch c (l.tT + unitT o - tls - unitT (s.latchUnits c)) (s.latchUnits c))
      if j + 1 < l.offs.length then
        let s := s.setCasement c { s.casOf c with linkT := l.tT + unitT o - tls }
        s.sendPlane c (fun e => bit (s.mask c ((l.codes[e]?).getD 0)) (j + 1))
      else s) s
  let p := l.offs.zip l.w
  let p2 := s.secondPulses c p
  let s := s.send (.strobe c 0 l.tT p)
  if p2 = [] then s else s.send (.strobe c 1 l.tT p2)

/-- A frozen line at its trigger emits its pulses, unless R195 blanks it now. -/
def State.fireLine (s : State) (c : Nat) (m : Mark) (n : Nat) : State :=
  let l := m.line n
  if s.lineFault c m then s.blankLine c { m with strobeActed := true } n .fault
  else
    let flags := if bit (s.laxStatus (s.casAxis c)) 6 ∧ !bit m.flags 7 then m.flags + 128 else m.flags
    (s.setOpen c ({ m with flags := flags }.setLine n { l with st := .firing })).emitLine c l

/-- The frozen line whose trigger `due` picks fires. -/
def State.trigger (s : State) (c : Nat) (due : Time → Bool) : State :=
  match (s.casOf c).findLine (fun l => l.st == .frozen) with
  | some (m, n) => if due (m.line n).tT then s.fireLine c m n else s
  | none => s

def execLineTrigger (t : Time) (c : Fin 48) (s : State) : Step :=
  .next (((s.tick t).settleLoads c t).trigger c (fun u => decide (u ≤ t)))

/-- Slices of a line that had a pulse. -/
def Line.pulses (l : Line) : List Nat := (l.w.zipIdx.filter (fun (w, _) => w != 0)).map Prod.snd

/-- An element fires when at least one pulse of its mask entry is emitted (R199). -/
def State.elemFired (s : State) (c : Nat) (l : Line) (e : Nat) : Bool :=
  let code := (l.codes[e]?).getD 0
  l.st == .firing && code != 0 && l.pulses.any (fun j => bit (s.mask c code) j)

/-- Write the history and duty of every element back into the Ledger (R196, R199, R200). -/
def State.writeBack (s : State) (c : Nat) (m : Mark) (l : Line) : State :=
  let d := m.nat (oCas c 0x0B 1)
  let wts := (m.set_ (oCas c 0x0B 5)).bytes
  (List.range (s.ne c)).foldl (fun s e =>
    let (r, _, s) := s.useRec c e
    let f := s.elemFired c l e
    let x := if f then (l.codes[e]?).getD 0 else 0
    let a := recDuty r
    let a' := min 1023 (a - a / 2 ^ d + ((wts[x]?).getD 0).toNat)
    s.putRec c e (mkRec a' (recCode r) (recClass r) ((if f then 2 else 0) + recHist r / 2))) s

/-- Drops a line has used (R236): its fired elements by tone. -/
def State.lineDrops (s : State) (c : Nat) (m : Mark) (l : Line) : Nat :=
  ((List.range (s.ne c)).map (fun e =>
    let t := (l.tones[e]?).getD 0
    if s.elemFired c l e ∧ t ≠ 0 then m.nat (oCas c 1 (3 + t)) else 0)).sum

/-- The first unfinished line is written back if its pulses have ended or it is blank. -/
def State.finishLine (s : State) (c : Nat) (t : Time) : Option State :=
  match (s.casOf c).findLine (fun l => l.st != .fired) with
  | some (m, n) =>
    let l := m.line n
    let fired := l.st == .firing
    if !(fired && decide (l.pulseEnd ≤ t)) && !l.st.blank then none
    else
      let s := s.writeBack c m l
      let x := s.casOf c
      let x := { x with win := ((if fired then l.dline else 0) :: x.win).take 4096 }
      let x := if fired then { x with lastPulse := some l.pulseEnd, lastEnd := l.endT, lines := x.lines + 1 } else x
      let s := s.setCasement c x
      let energy := ((l.nj.zip l.w).map (fun (a, b) => a * b)).sum
      let m := if fired then { m with fired := m.fired + 1, energy := m.energy + energy, drops := m.drops + s.lineDrops c m l } else m
      let lt := (m.tpl.map Template.lines).getD 0
      let lb := s.bufferLines c
      let m := if s.rowOffset c = 0 ∧ lb ≠ 0 ∧ n + lb < lt then { m with refills := m.refills ++ [n + lb] } else m
      some (s.setOpen c (m.setLine n { Line.init with st := .fired }))
  | none => none

def execLineFired (t : Time) (c : Fin 48) (s : State) : Step :=
  let s := (s.tick t).settleLoads c t
  .next ((s.finishLine c t).getD s)

/-! ## MARK_CLOSE (R11, R71, R75, R76, R82, R196, R236) -/

/-- Consumption charged at the close (R236). -/
def State.consumption (s : State) (c : Nat) (m : Mark) : Nat :=
  match s.nat (oCas c 1 1) with
  | 1 => if m.fired = 0 then 0 else cdiv (m.fired * m.pitch * 1000) 65536 + m.nat (oCas c 1 3)
  | 2 => m.drops
  | _ => 0

/-- The flags that firing gives a mark (R82). -/
def Mark.fireFlags (m : Mark) : Nat :=
  2048 * b2n (m.blank != 0 || m.ended) + 1024 * b2n (m.late != 0) + 512 * b2n (m.skipped != 0) + 256 * b2n (m.cut != 0)

/-- A mark whose close tags its product (R76). -/
def Mark.rejects (m : Mark) (c : Nat) : Bool :=
  m.blank != 0 || m.ended || decide (m.nat (oCas c 0 0x0C) < m.late + m.skipped) || (bit m.flags 7 && m.nat (oCas c 0 0x0D) == 1)

/-- The least c, hb and supply and the highest temperature of a mark that used or saw none are free values (R212, log 117). -/
def State.unseen (s : State) (m : Mark) : Mark × State :=
  let (c, s) := if m.minC = 65535 then s.free 16 else (m.minC, s)
  let (h, s) := if m.minHb = 65535 then s.free 16 else (m.minHb, s)
  let (v, s) := if m.minV = 1048576 then s.free 16 else (m.minV, s)
  let (t, s) := if m.maxT = -32769 then (fun p : Nat × State => ((p.1 : Int), p.2)) (s.free 16) else (m.maxT, s)
  ({ m with minC := c, minHb := h, minV := v, maxT := t }, s)

/-- The line axis of casement `c` has passed the last line of a mark (R8), or has no further positions (R34). -/
def State.markPassed (s : State) (c : Nat) (m : Mark) : Bool :=
  let k := s.casAxis c
  bit (s.laxStatus k) 7 || decide (0 ≤ sdiff (s.laxPos k s.now) m.last)

/-- The oldest open mark closes once its last line is written back and the line axis has passed it (R8, R196). -/
def State.closeMark (s : State) (c : Nat) : State :=
  let x := s.casOf c
  match x.opened with
  | [] => s
  | m :: rest =>
    if !((List.range m.count).all (fun n => (m.line n).st == .fired) && s.markPassed c m) then s
    else
      let use := s.consumption c m
      let s := (s.setCasement c { x with opened := rest }).setn (oCas c 2 5) (rest.length : Nat)
      let s := s.setn (oCas c 1 8) (s.nat (oCas c 1 8) - m.reserve : Nat)
      let s := if s.nat (oCas c 1 1) = 0 then s else s.charge c use
      let (m, s) := s.unseen m
      let part := m.stitch.isSome && s.role c == 2
      let (f, s) := if m.rejects c && !part && !bit m.flags 14 then s.rejectTag c m.key m.a else (0, s)
      let m := { m with flags := m.flags ||| m.fireFlags ||| f, fin := s.dev, lns := [] }
      let s := match m.stitch with
        | some id =>
          if s.role c = 1 ∧ !s.allReported c id ∧ s.nat (oCas c 0 0x0B) ≠ 0xFF then
            s.setCasement c { s.casOf c with closing := (s.casOf c).closing ++ [m] }
          else if s.role c = 1 then s.leadFinish c m false
          else (s.complete c m (wrapU 64 m.tdDev).toNat (wrapU 64 m.fin).toNat).report c m
        | none => s.complete c m (wrapU 64 m.tdDev).toNat (wrapU 64 m.fin).toNat
      s.afterClose c

def execMarkClose (t : Time) (c : Fin 48) (s : State) : Step :=
  .next (((s.tick t).settleLoads c t).closeMark c)

/-! ## A line axis becomes LOST (R11, R33, R34, R61, R80) -/

/-- Write back blank lines at the front; `fuel` bounds their number. -/
def State.drainBlank (s : State) (c : Nat) (t : Time) : Nat → State
  | 0 => s
  | f + 1 =>
    match s.finishLine c t with
    | some s' => s'.drainBlank c t f
    | none => s

/-- Every line of the open marks that does not fire yet is passed and left blank, and the marks close (R34). -/
def State.passLines (s : State) (c : Nat) (t : Time) : State :=
  let x := s.casOf c
  let open_ (st : LSt) : Bool := st == .waiting || st == .loading || st == .loaded || st == .frozen
  let s := x.lines_.foldl (fun s q =>
    match (s.casOf c).opened.find? (fun y => y.order = q.1.order) with
    | some m => if open_ (m.line q.2).st then s.blankLine c m q.2 .fault else s
    | none => s) s
  let s := s.drainBlank c t x.lines_.length
  (s.closeMark c).closeMark c

/-- DEAD_RECKON_EXPIRY: the dead-reckon limit has passed and the axis becomes LOST. -/
def execDeadReckonExpiry (t : Time) (k : Fin 32) (s : State) : Step :=
  let s := s.tick t
  match (s.laxOf k).dr with
  | some t0 =>
    if t0 + usT (s.laxOf k).drLim ≤ t then
      let s := s.laxLost k t
      .next (((List.range 48).foldl (fun s c => if s.casAxis c = k.val then s.passLines c t else s) s).decideLost k)
    else .next s
  | none => .next s

end Sys2Proof.Machine
end

