-- ==== Sys2Proof/Machine/Pins.lean ====
section
/-! DEFINITION. The levels at an instant of a casement's head pins (R153, R161, R165 to R168, R223): what a head sees of the lines that fire and of a
measurement. Those of the axes are in Bridge.lean. -/

namespace Sys2Proof.Machine

/-- The slice whose pulse a firing line carries at `t`. -/
def Line.sliceAt (l : Line) (t : Time) : Option Nat :=
  if l.st = .firing then (l.offs.zip l.w).findIdx? (fun (o, w) => decide (l.tT + unitT o ≤ t ∧ t < l.tT + unitT (o + w))) else none

/-- The slice whose pulse casement `c` carries at `t`; the pulse of a measurement is slice 0 (R223). -/
def State.sliceAt (s : State) (c : Nat) (t : Time) : Option Nat :=
  let x := s.casOf c
  let meas : Bool := match x.meas with
    | some m => decide (m.start c ≤ t ∧ t < m.stop c)
    | none => false
  if meas then some 0 else x.opened.findSome? (fun m => m.lns.findSome? (fun p => p.2.sliceAt t))

/-- CSTBc0 or CSTBc1 at `t`, none for high impedance: CSTBc1 follows pulse 0 on a sash link (R161), CSTBc0 or nothing on a classic port
(R165). POLARITY bit 1 of the record says strobes are active low. -/
def State.strobePin (s : State) (c : Nat) (second : Bool) (t : Time) : Option Bool :=
  if !s.pinsDriven c then none
  else
    let on : Bool := match s.sliceAt c t with
      | none => false
      | some j => !second || (if s.portKind c = 1 then j == 0 else s.frcN (oCas c 4 9) == 0)
    some (on != bit (s.recF c 0x51 1) 1)

/-- A latch pulse of a frozen or firing line on a classic port runs at `t` (R168). -/
def State.latching (s : State) (c : Nat) (t : Time) : Bool :=
  let stop (l : Line) (o : Nat) : Time := l.tT + unitT o - unitT (s.nat (oCas c 4 7))
  s.portKind c == 2 && (s.casOf c).opened.any (fun m => m.lns.any (fun p =>
    (p.2.st == .frozen || p.2.st == .firing) && p.2.offs.any (fun o =>
      decide (stop p.2 o - unitT (s.latchUnits c) ≤ t ∧ t < stop p.2 o))))

/-- CFRMc at `t`, none for high impedance: the latch of a classic port, inactive on a sash link (R161). POLARITY bit 0: active low. -/
def State.latchPin (s : State) (c : Nat) (t : Time) : Option Bool :=
  if !s.pinsDriven c then none else some (s.latching c t != bit (s.recF c 0x51 1) 0)

/-- CCLKc_M where it does not follow CCLKc_P: low on a classic port (R165); on a sash link the pair is low before the clock runs. -/
def State.clockPinM (s : State) (c : Nat) : Option Bool :=
  if !s.pinsDriven c ∨ s.clockRuns c then none else some false

end Sys2Proof.Machine
end

