-- ==== Sys2Proof/Machine/Order.lean ====
section
/-! DEFINITION. Events of one casement on one 480 MHz clock (R14): line triggers, the close of a mark, a decision point, a capture; and the
commands that decide and capture. -/

namespace Sys2Proof.Machine

/-- The 480 MHz clock of a time: 25/12 ns each. -/
def clock480 (t : Time) : Nat := t * 12 / (25 * 4294967296)

/-- What R14 takes on casement `c` ahead of a decision point at `t`: the trigger of a frozen line, then lines that have finished and the
marks they close. -/
def State.closesFirst (s : State) (c : Nat) (t : Time) : State :=
  let s := (s.settleLoads c t).trigger c (fun u => decide (clock480 u ≤ clock480 t))
  let s := s.drainBlank c t (s.casOf c).lines_.length
  (s.closeMark c).closeMark c

/-- DECISION_POINT: the oldest undecided anchor, where the condition of R59 holds, behind the triggers and closes of the same clock; then a
command that only waited for a decided mark. -/
def execDecisionPoint (t : Time) (c : Fin 48) (s : State) : Step :=
  let s := ((s.tick t).applyChanges t).closesFirst c t
  match (s.casOf c).pend.find? (fun m => m.vote.isNone) with
  | some m => if s.reached c m then .next ((s.decide_ c m).takeCommand c) else .next s
  | none => .next s

/-- What R14 takes ahead of a capture at `t`: triggers and closes, then a decision point of the line-axis update on this clock. -/
def State.anchorFirst (s : State) (c : Nat) (t : Time) : State :=
  let s := s.closesFirst c t
  match (s.casOf c).pend.find? (fun m => m.vote.isNone) with
  | some m => if clock480 (s.laxOf (s.casAxis c)).upT = clock480 t ∧ s.reached c m then s.decide_ c m else s
  | none => s

/-- The same for a casement and, where it leads a stitched group, its participants on this device. -/
def State.anchorsFirst (s : State) (c : Nat) (t : Time) : State :=
  let own := if s.role c = 1 then ((s.participants c).filter (fun p => p.1 = s.node)).map Prod.snd else []
  (c :: own).foldl (fun s c => s.anchorFirst c t) s

/-- An active edge is accepted at the time of its first sample (R39 to R41). On the sample of the stuck timeout the edge is still captured,
whichever command comes first (R43). A line that runs in reverse does not re-arm the input: its position moves away from pa + D (log 281). -/
def execGinEdge (t : Time) (n : Fin 64) (s : State) : Step :=
  let s := s.tick t
  let x := s.ginOf n
  let same := s.ginOver n t || (x.ignored && x.ignoredT == t)
  if !s.running || (x.active && !same) then .next s
  else
    let k := s.nat (oGin n 3)
    let pa := s.laxAt k t
    let held := match x.rearm with
      | some r => decide (sdiff pa r < 0)
      | none => false
    let s := if same then s else s.setGin n { x with active := true, run := 0, runT := t, lim := s.nat (oGin n 5) }
    if x.ignored && !same then .next s
    else if held then .next (s.ginReject n)
    else
      let d := s.num (oGin n 4)
      let s := s.setGin n { s.ginOf n with rearm := if d = 0 then none else some (wrapS 64 (pa + d)) }
      let s := ((s.bump (oGin n 6)).setn (oGin n 8) pa).setn (oGin n 9) (wrapU 64 (s.devOf t))
      let s := s.talCount 1 n
      if s.captures then
        .next ((List.range 48).foldl (fun s c =>
          if s.takesGin c n then
            (s.anchorsFirst c t).leadAnchor c (.input n (s.nat (oGin n 6))) (s.laxAt (s.casAxis c) t) t none
          else s) s)
      else .next s


end Sys2Proof.Machine
end

