-- ==== Sys2Proof/Machine/Axes.lean ====
section
/-! DEFINITION. Axes: profiles, segment chains, steps, the chopper, commutation, the observer and catching (R246 to R276). Positions are
worked in 2^-32 counts and velocities in 1/1000 of a raw Q16.16 unit, so that an acceleration of one raw unit per ms is one velocity
unit per tick. -/

namespace Sys2Proof.Machine

/-! ## Units -/

/-- The distance covered in one tick between two velocities, in 2^-32 counts. -/
def tickCover (v0 v1 : Int) : Int := (v0 + v1) * 4096 / 125

/-- A distance in 2^-32 counts as velocity units times ticks. -/
def inTicks (d : Int) : Int := (d.natAbs : Int) * 125 / 8192

/-- The commanded position with its fraction. -/
def State.axPos (s : State) (a : Nat) : Int := s.num (oAx a 1 7) * step32 + ((s.axOf a).frac : Int)

/-- The velocity limit, accelerations and limits in force at a tick. -/
def State.axLim (s : State) (a sub : Nat) : Int := s.num (oAx a 1 sub)

/-- Does axis `a` have a feedback encoder? -/
def State.axEnc (s : State) (a : Nat) : Bool := Nat.blt (s.nat (oAx a 0 2)) 16

/-- A BRUSHLESS axis without encoder, or one that has fallen back to its observer (R270). -/
def State.onObserver (s : State) (a : Nat) : Bool :=
  decide (s.axKind a = 2) && (!s.axEnc a || s.obit (oAx a 2 6) 3)

/-- An axis event (R276). -/
def State.axEvent (s : State) (a cause : Nat) (d : Bytes := []) : State := s.event (0x40 + a) cause a d

/-! ## Segments and chains (R250 to R252) -/

/-- A segment of the pool. -/
structure Seg where
  T : Nat
  dp : Int
  v1 : Int
  link : Nat
  last : Bool
  ev : Bool
  ok : Bool                     -- its fields are in range
  deriving DecidableEq, Repr

/-- Segment `n` (R250). -/
def State.seg (s : State) (n : Nat) : Seg :=
  let b := tget zeroSeg s.segs n
  let T := fieldLE b 0 4
  let l := fieldLE b 12 2
  { T := T, dp := wrapS 32 (fieldLE b 4 4), v1 := wrapS 32 (fieldLE b 8 4), link := l % 8192, last := bit l 13, ev := bit l 14,
    ok := decide (1 ≤ T ∧ T ≤ 10000000) && !bit l 15 && decide (fieldLE b 14 2 = 0) }

/-- The segments of the chain from `n`, each once (R252); `seen` newest first. -/
def State.chainFrom (s : State) : Nat → Nat → List Nat → List Nat
  | 0, _, seen => seen.reverse
  | f + 1, n, seen =>
    if seen.contains n then seen.reverse
    else if !(s.seg n).ok || (s.seg n).last then (n :: seen).reverse
    else s.chainFrom f (s.seg n).link (n :: seen)

/-- The chain a run from segment `n` follows. -/
def State.chainOf (s : State) (n : Nat) : List Nat := s.chainFrom 8192 n []

/-- Does a segment's velocity exceed `vmax` (raw) at u = 0, at u = 1 or at the interior extremum? `v0` is in velocity units. -/
def Seg.fast (g : Seg) (v0 vmax : Int) : Bool :=
  let T : Int := g.T
  let v1 := g.v1 * 1000
  let lim := vmax * 1000
  let dp := g.dp * 65536000
  let A := 3 * T * (v0 + v1) - 6 * dp
  let B := 6 * dp - 4 * T * v0 - 2 * T * v1
  let inside := decide (A ≠ 0) && (if 0 < A then decide (B < 0 ∧ -B < 2 * A) else decide (0 < B ∧ B < -2 * A))
  decide (lim < (v0.natAbs : Int)) || decide (lim < (v1.natAbs : Int))
    || (inside && decide (4 * (A.natAbs : Int) * T * lim < ((4 * A * T * v0 - B * B).natAbs : Int)))

/-- The end position and end velocity along a chain: the first segment whose velocity is too high, and the first whose end lies outside
the software limits. -/
def State.chainScan (s : State) (a : Nat) : List Nat → Int → Int → Bool × Bool
  | [], _, _ => (false, false)
  | n :: r, p, v =>
    let g := s.seg n
    let p' := p + g.dp
    let (x, y) := s.chainScan a r p' (g.v1 * 1000)
    let out := s.nat (oAx a 4 4) = 1 ∧ (p' < s.num (oAx a 4 5) ∨ s.num (oAx a 4 6) < p')
    (g.fast v (s.axLim a 1) || x, decide out || y)

/-- The result of the run check (R252). -/
def State.runCheck (s : State) (a n : Nat) : Nat :=
  let l := s.chainOf n
  let x := s.axOf a
  if s.axState a ≠ 1 ∧ s.axState a ≠ 2 then 1
  else if l.any (fun k => !(s.seg k).ok) then 2
  else
    let (fast, out) := s.chainScan a l (s.num (oAx a 1 7)) x.vm
    if fast then 3
    else if out then 4
    else if (List.range 48).any (fun b => b != a && (s.axOf b).chain.any l.contains) then 5
    else 0

/-! ## Stops and faults -/

/-- Is the velocity of axis `a` toward the limit of one side? -/
def toward (positive : Bool) (v : Int) : Bool := if positive then decide (0 < v) else decide (v < 0)

/-- An axis goes to DISABLED: gates and EN inactive (R248). What R274 keeps of a disable stays where it is DISABLED already. -/
def State.axDisable (s : State) (a : Nat) : State :=
  let x := s.axOf a
  let was : Bool := s.axState a == 0
  (s.putAx a { x with plan := .rest, vm := 0, gates := false, braking := false, chop := [], chain := [], owed := [], armed := none,
                      catchT := none, catchBrake := false, alignT := none, startT := none, followT := none, disagreeT := none, brk := [],
                      disT := if was then x.disT else some s.now, disV := if was then x.disV else x.vm }).setAxState a 0

/-- A device mode change to CONFIGURE or STANDBY (R248). -/
def State.axLeave (s : State) (a : Nat) : State :=
  match s.axState a with
  | 1 => s.axDisable a
  | 2 | 3 => s.axStop a 4
  | _ => if (s.axOf a).catchT.isSome then s.axDisable a else s

/-- The end of a stop (R248, R255, R272). -/
def State.stopEnd (s : State) (a why : Nat) : State :=
  let s := s.setAx a { s.axOf a with vm := 0, plan := .rest, chain := [] }
  match why with
  | 4 => s.axDisable a
  | 5 => s.rampFaulted a
  | _ => s.setAxState a 1

/-- A limit acts (R256). A hard limit ends at once a stop that already runs, as that stop would end (R248). -/
def State.axLimit (s : State) (a : Nat) (positive : Bool) : State :=
  let b := if positive then 0 else 1
  let s := (s.setbit (oAx a 2 6) b true).axEvent a 0x0202
  if s.obit (oAx a 4 3) b then
    let why := match (s.axOf a).plan with
      | .stop w => max w 1
      | _ => 1
    (s.setAx a { s.axOf a with owed := [] }).stopEnd a why
  else s.axStop a 1

/-! ## Enabling and catching (R248, R270 to R274) -/

/-- The objects that an enable brings into force. -/
def enableKeys (a : Nat) : List Nat :=
  [(3, 5), (5, 1), (5, 9), (5, 0x0A), (5, 0x0B), (6, 1), (6, 2), (6, 4), (6, 5), (6, 7), (7, 1), (7, 2), (7, 3), (7, 4), (7, 7),
   (7, 8), (7, 9), (7, 0x0A), (7, 0x0B), (7, 0x0C)].map (fun (p, u) => oAx a p u)

/-- The loop slots whose target is axis `a` see an enable (R284). -/
def State.loopEnabled (s : State) (a : Nat) : State :=
  (List.range 64).foldl (fun s n =>
    if s.nat (oLoop n 0 8) ≠ 0 ∧ s.nat (oLoop n 0 9) = a then s.setLoop n { s.loopOf n with enabled := true } else s) s

/-- The axis is enabled at velocity `v`: HOLDING, or MOVING in velocity mode (R273). -/
def State.axEnter (s : State) (a : Nat) (v : Int) : State :=
  let x := s.axOf a
  let s := s.putAx a { x with vm := v, frac := 0, gates := true, braking := false, catchT := none, catchBrake := false, brk := [],
                              enT := if x.gates then x.enT else s.now,
                              zeroT := if v = 0 then some s.now else none, holdCur := false,
                              plan := if v = 0 then .rest else .vel (tdiv v 1000) }
  ((s.setAxState a (if v = 0 then 1 else 2)).setn (oAx a 1 9) (tdiv v 1000)).loopEnabled a

/-- The enable command applied (R248, R273, R274): all gates are off until the axis enters HOLDING or MOVING. -/
def State.axEnable (s : State) (a : Nat) : State :=
  let s := if s.axState a = 0 then s else s.axDisable a
  let s := (enableKeys a).foldl (fun s k => s.enforce k) s
  let clean := !s.axEnc a || (s.encOf (s.nat (oAx a 0 2))).st &&& 0xFC == 0
  let s := if clean then s.setbit (oAx a 2 6) 3 false else s
  let x := s.axOf a
  let s := (s.putAx a { x with braking := false, chop := [], cmds := [], catchT := none, catchBrake := false, startT := none,
                               armed := none }).setn (oAx a 5 0x0C) 0
  if s.frcN (oAx a 7 0x0A) = 1 then
    if s.axEnc a || s.onObserver a then s.setAx a { s.axOf a with catchT := some s.now }
    else if s.axKind a = 1 ∨ s.axKind a = 4 then
      let held := match x.disT with
        | some d => decide (s.now < d + msT (s.frcN (oAx a 7 0x0C)))
        | none => false
      let v := if held then x.disV else 0
      let s := (s.axEnter a v).axEvent a 0x0206 (leBytes 4 (wrapU 32 (tdiv v 1000)).toNat)
      if v = 0 then s else s.setAx a { s.axOf a with plan := .stop 6 }
    else s.axEnter a 0
  else s.axEnter a 0

/-- A catch that measured velocity `raw` (R273): position and velocity as measured. -/
def State.axCaught (s : State) (a : Nat) (raw : Int) : State :=
  ((s.setn (oAx a 1 7) (s.num (oAx a 1 8))).axEnter a (raw * 1000)).axEvent a 0x0206 (leBytes 4 (wrapU 32 raw).toNat)

/-! ## Angles, set-points and the chopper (R262 to R269) -/

/-- The open-loop angle of a sensorless start (R271): from rest at the start acceleration. -/
def State.startAngle (s : State) (a : Nat) (t0 : Time) : Nat :=
  let acc := s.frcN (oAx a 7 8) / 65536
  let us := (s.now - t0) / usT 1
  acc * us * us * 512 / 1000000000000 % 1024

/-- The electrical angle (R265). -/
def State.axTheta (s : State) (a : Nat) : Nat :=
  let x := s.axOf a
  if s.axKind a = 1 then (s.num (oAx a 1 7) % 1024).toNat
  else match x.startT with
    | some t0 => s.startAngle a t0
    | none =>
      if s.onObserver a then x.obs.theta
      else
        (tdiv ((s.num (oAx a 1 8) - s.frcI (oAx a 6 4)) * (s.nat (oAx a 0 4) : Int) * 1024) (max 1 (s.num (oAx a 0 3))) % 1024).toNat

/-- The sector of six-step mode (R266). -/
def sectorOf (tc : Nat) : Nat :=
  if tc < 171 then 0 else if tc < 341 then 1 else if tc < 512 then 2 else if tc < 683 then 3 else if tc < 853 then 4 else 5

/-- A column of a rotor-angle table at an angle (R267, R268). -/
def State.rotorAt (s : State) (tab col th : Nat) : Int :=
  if tab = 0 then rotorEntry col th
  else
    match tget (fun _ => []) s.comp.rotors tab with
    | cols :: n :: data =>
      let at_ (i : Nat) : Int := wrapS 16 ((data[i * cols + col]?).getD 0 : Nat)
      if n = 1024 then at_ th
      else
        let v0 := at_ (th / 4)
        v0 + asr ((at_ ((th / 4 + 1) % 256) - v0) * ((th % 4 : Nat) : Int)) 2
    | _ => 0

/-- Sinusoidal mode governs the axis (R267). -/
def State.sinusoidal (s : State) (a : Nat) : Bool :=
  decide (s.axKind a = 1) || (decide (s.axKind a = 2) && decide (s.frcN (oAx a 6 1) = 1))

/-- The current amplitude in mA (R254, R265, R271, R272, R283). A slot that does not target the axis's current gives it none (log 296). -/
def State.axAmp (s : State) (a : Nat) : Int :=
  let x := s.axOf a
  let slot := s.frcN (oAx a 6 7)
  if x.alignT.isSome then ((s.nat (oAx a 6 6) % 65536 : Nat) : Int)
  else if x.startT.isSome then ((s.frcN (oAx a 7 8) % 65536 : Nat) : Int)
  else if s.axKind a = 1 then (if x.holdCur || decide (s.axState a = 4) then s.num (oAx a 5 3) else s.num (oAx a 5 2))
  else if slot < 64 then (if s.nat (oLoop slot 0 8) = 1 ∧ s.nat (oLoop slot 0 9) = a then s.num (oLoop slot 4 1) else 0)
  else if s.axState a = 1 then s.num (oAx a 5 3) else s.num (oAx a 5 2)

/-- mA as ADC LSB (R261, R267); `gi = 0` states no result: `f` stands for it. -/
def State.toLsb (s : State) (a : Nat) (f ma : Int) : Int :=
  let gi := s.frcI (oAx a 5 1)
  if gi = 0 then f else tdiv (ma * 65536) gi

/-- The phases that regulate at present (R246, R265 to R267): both windings of a STEPPER, one of a BRUSHED axis, of a BRUSHLESS axis one
in six-step mode and under the align command, all three in sinusoidal mode. -/
def State.phases (s : State) (a : Nat) : Nat :=
  match s.axKind a with
  | 1 => 2
  | 2 => if s.sinusoidal a ∧ (s.axOf a).alignT = none then 3 else 1
  | 3 => 1
  | _ => 0

/-- The set-point of a regulated phase in ADC LSB, signed (R265 to R267). -/
def State.phaseSet (s : State) (a phase : Nat) (f : Int) : Int :=
  let amp := s.toLsb a f (s.axAmp a)
  if s.sinusoidal a ∧ (s.axOf a).alignT = none then
    asr (amp * s.rotorAt (s.frcN (oAx a 6 2)) phase ((s.axTheta a + s.nat (oAx a 6 3)) % 1024)) 15
  else amp

/-- Does a regulated phase's sense input read the current of its driven direction with its sign changed: a negative set-point, or the low
phase of six-step mode (R246, R262, R266)? -/
def State.senseFlips (s : State) (a phase : Nat) : Bool :=
  if s.axKind a = 2 ∧ !s.sinusoidal a then decide ((s.axOf a).alignT = none) else (tget (fun _ => Chop.init) (s.axOf a).chop phase).neg

/-- A conversion of sense ADC `a`, corrected and with the code of zero current removed (R261). -/
def State.senseLsb (s : State) (a code : Nat) : Int := (s.adcFix (0x2600 + a) code : Int) - 2048

/-- The current a conversion of sense ADC `a` shows, mA (R261). -/
def State.senseMa (s : State) (a code : Nat) : Int := tdiv (s.senseLsb a code * s.frcI (oAx a 5 1)) 65536

/-- The line voltage a conversion of sense ADC `a` shows, in uV, VDDA18 at its nominal 1.8 V (R269, log 297). -/
def State.senseUv (s : State) (a code : Nat) : Int :=
  asr ((s.adcFix (0x2600 + a) code : Int) * 1800000 / 4096 * s.frcI (oAx a 7 7)) 16

/-- Is the axis a power port whose bridge regulates at present? -/
def State.regulates (s : State) (a : Nat) : Bool :=
  let x := s.axOf a
  decide (1 ≤ s.axKind a ∧ s.axKind a ≤ 3) && x.gates && !x.braking

/-- The thresholds of R263, as comparator codes. -/
def chopCode (x : Int) : Nat := (max 0 (min 255 (asr x 4))).toNat

/-- A phase's low side is opened by the brake current limit (R272). -/
def State.brakeOpen (s : State) (a phase : Nat) (i : Int) : State :=
  let x := s.axOf a
  let (f, s) := if s.frcI (oAx a 5 1) = 0 then s.free 16 else (0, s)
  if phase < brakePhases (s.axKind a) ∧ tget (fun _ => 0) x.brk phase ≤ s.now
      ∧ (chopCode (s.toLsb a (f : Int) (s.num (oAx a 7 0x0E))) : Int) < i then
    s.putAx a { x with brk := tset (fun _ => 0) x.brk phase (s.now + s.toffMin a) }
  else s

/-- A phase current reaches a comparator threshold: `i` is the current in comparator steps, in the driven direction, or while the axis
brakes the magnitude of the short current. -/
def execChopOff (t : Time) (a : Fin 16) (phase : Fin 3) (i : Int) (s : State) : Step :=
  let s := s.tick t
  let x := s.axOf a
  let c := tget (fun _ => Chop.init) x.chop phase
  let cfg := s.frcN (oAx a 5 9)
  let wait := max (bits cfg 15 0) (bits cfg 31 16)
  if x.braking then .next (s.brakeOpen a phase i)
  else if s.regulates a ∧ phase.val < s.phases a ∧ c.on ∧ c.t0 + chopT wait ≤ t ∧ (c.hi : Int) ≤ i then
    .next (s.putAx a { x with chop := tset (fun _ => Chop.init) x.chop phase { c with on := false, offT := t } })
  else .next s

/-- Step 5 of R262: is the cycle of a phase in OFF over at `t`, its current `i` in comparator steps? -/
def State.cycleOver (s : State) (a : Nat) (c : Chop) (i : Int) (t : Time) : Bool :=
  let fmax := s.frcN (oAx a 5 0x0A)
  !c.on && ((decide (c.offT + s.toffMin a ≤ t) && decide (i ≤ (c.lo : Int)))
      || decide (c.offT + chopT (bits (s.frcN (oAx a 5 9)) 63 48) ≤ t))
    && decide (c.t0 * fmax + msT 1 ≤ t * fmax)

/-- The offset after a cycle of mean `imean` (R263): 0 in the first cycle and where the decay mode changes. -/
def State.chopOffset (s : State) (a : Nat) (c : Chop) (first : Bool) (imean : Int) : Int :=
  if first ∨ s.nat (oAx a 5 8) % 4 ≠ c.decay % 4 then 0
  else if s.nat (oAx a 5 6) = 15 then c.off
  else clampI (s.num (oAx a 5 7)) (c.off + asr (c.iset - imean) (s.nat (oAx a 5 6)))

/-- The cycle of a phase that starts now with set-point `v` and offset `off` (R262, R263). -/
def State.newCycle (s : State) (a : Nat) (v off imean : Int) : Chop :=
  let iset : Int := v.natAbs
  let h := s.num (oAx a 5 5) / 2
  { on := true, neg := decide (v < 0), t0 := s.now, offT := s.now, hi := chopCode (iset + off + h), lo := chopCode (iset - off - h),
    off := off, iset := iset, decay := s.nat (oAx a 5 8), mean := imean }

/-- The six-step sector at present (R266). -/
def State.sectorNow (s : State) (a : Nat) : Nat := sectorOf ((s.axTheta a + 85 + s.nat (oAx a 6 3)) % 1024)

/-- A chop cycle ends, or the first one starts: `sense` is the current in comparator steps in the driven direction and the mean code of the
phase's sense input over the cycle. -/
def execChopCycleEnd (t : Time) (a : Fin 16) (phase : Fin 3) (sense : Int × Fin 4096) (s : State) : Step :=
  let s := s.tick t
  let x := s.axOf a
  let c := tget (fun _ => Chop.init) x.chop phase
  let first : Bool := c == Chop.init
  if !s.regulates a || !decide (phase.val < s.phases a) || !(s.cycleOver a c sense.1 t || first) then .next s
  else
    let (f, s) := if s.frcI (oAx a 5 1) = 0 then s.free 16 else (0, s)
    let m := s.senseLsb a sense.2
    let imean := if first then 0 else if s.senseFlips a phase then -m else m
    let off := s.chopOffset a c first imean
    let c' := s.newCycle a (s.phaseSet a phase (f : Int)) off imean
    let s := s.putAx a { x with chop := tset (fun _ => Chop.init) x.chop phase c', sector := s.sectorNow a }
    .next (if phase.val = 0 then s.setn (oAx a 5 0x0C) off else s)

/-- An IS input `is.1` reads comparator code `is.2`: at the overcurrent threshold or above (R264), all gates off at once and no fault action. An axis
that is DISABLED stays so. -/
def execOvercurrent (t : Time) (a : Fin 16) (is : Fin 4 × Fin 256) (s : State) : Step :=
  let s := s.tick t
  if s.axKind a = 0 ∨ 3 < s.axKind a ∨ is.2.val < s.nat (oAx a 5 4) then .next s
  else
    let s' := match s.axState a with
      | 0 => (s.axDisable a).setbit (oAx a 2 6) 4 true
      | 4 => (s.putAx a { s.axOf a with gates := false, braking := false, chop := [] }).setbit (oAx a 2 6) 4 true
      | _ => s.axFault a 4 false
    .next (s'.axisFault a 1 is.1)

/-! ## The observer (R269 to R271) -/

/-- The signed difference of two angles. -/
def angDiff (x y : Nat) : Int := ((x : Int) - (y : Int) + 512) % 1024 - 512

/-- VALID of R269: the speed at or above the minimum, the flux within 25 % of the motor's. -/
def State.obsValid (s : State) (a : Nat) (o : Obs) (x y : Int) : Bool :=
  let fmin := s.nat (oAx a 7 5)
  let F := s.frcN (oAx a 7 3) * 1000000
  let m2 := (x * x + y * y).toNat
  let span := max o.per (s.now - o.chgT)
  decide (0 < o.per) && Nat.ble (fmin * 1024 * span) (o.dth.natAbs * secT 1)
    && Nat.ble (9 * F * F) (16 * m2) && Nat.ble (16 * m2) (25 * F * F)

/-- One flux integration step of R269, in pV s: `v` in uV, `i` in mA, over 1.4 us. -/
def State.fluxStep (s : State) (a : Nat) (psi v i : Int) : Int :=
  psi + (v - s.frcI (oAx a 7 1) * i) * 14 / 10 - asr psi (s.frcN (oAx a 7 4))

/-- The observer after a round with two-axis voltages and currents (R269). -/
def State.observe (s : State) (a : Nat) (t : Time) (va vb ia ib : Int) : Obs :=
  let o := (s.axOf a).obs
  let psiA := s.fluxStep a o.psiA va ia
  let psiB := s.fluxStep a o.psiB vb ib
  let fa := psiA - s.frcI (oAx a 7 2) * ia * 1000
  let fb := psiB - s.frcI (oAx a 7 2) * ib * 1000
  let th := obsAngle fb fa
  let d := angDiff th o.theta
  let o := { o with psiA := psiA, psiB := psiB, theta := th }
  let o := if d = 0 then o else { o with per := t - o.chgT, chgT := t, dth := d }
  let valid := s.obsValid a o fa fb
  { o with valid := valid, rounds := if valid then min (o.rounds + 1) 64 else 0 }

/-- Counts of axis `a` per turn of its observer's angle, as numerator and denominator: 1 count each where it is sensorless (R246, R265). -/
def State.obsScale (s : State) (a : Nat) : Nat × Nat :=
  if s.axEnc a then (s.nat (oAx a 0 3), max 1 (s.nat (oAx a 0 4)) * 1024) else (1, 1)

/-- The observer's part of an ADC round (R269 to R271): VALID, the angle, the disagreement timer, and the position of an axis on it. -/
def State.obsRound (s : State) (a : Nat) (t : Time) (va vb ia ib : Int) : State :=
  let x := s.axOf a
  let o := s.observe a t va vb ia ib
  let on := s.onObserver a
  let (num, den) := s.obsScale a
  let tot := x.obsRem + angDiff o.theta x.obs.theta * (num : Int)
  let far := s.axEnc a && !on && o.valid && decide ((s.nat (oAx a 7 6) % 65536 : Nat) < (angDiff (s.axTheta a) o.theta).natAbs)
  let s := s.setAx a { x with
    obs := o, obsRem := if on then tot % (den : Int) else 0
    startT := if o.rounds = 64 then none else x.startT
    disagreeT := if far then some (x.disagreeT.getD t) else none }
  if on then s.setn (oAx a 1 8) (wrapS 64 (s.num (oAx a 1 8) + tot / (den : Int))) else s

/-- A round of sense ADC `a` (R261): codes of IS0 and IS1, of IS2 and IS3, of VP0 and VP1, and of VP2. The two-axis quantities are those of `Config.alphaBeta`. -/
def execObserverUpdate (t : Time) (a : Fin 16) (is01 is23 vp01 : Fin 4096 × Fin 4096) (vp2 : Fin 4096) (s : State) : Step :=
  let s := s.tick t
  if s.axKind a = 0 ∨ 3 < s.axKind a ∨ !elapsed (s.axOf a).roundT (nsT 1400) t then .next s
  else
    let i := [is01.1, is01.2, is23.1, is23.2].map (fun c => s.senseMa a c)
    let s := s.setAx a { s.axOf a with round := i, roundT := some t }
    if s.axKind a ≠ 2 then .next s
    else
      let v := [vp01.1, vp01.2, vp2].map (fun c => s.senseUv a c)
      let (va, vb) := Config.alphaBeta v
      let (ia, ib) := Config.alphaBeta (i.take 3)
      .next (s.obsRound a t va vb ia ib)

def execObserverDisagreement (t : Time) (a : Fin 16) (s : State) : Step :=
  let s := s.tick t
  let x := s.axOf a
  match x.disagreeT with
  | some d =>
    if x.obs.valid ∧ d + msT (s.nat (oAx a 7 6) / 65536) < t ∧ s.axState a ≠ 0 ∧ s.axState a ≠ 4 ∧ !s.obit (oAx a 2 6) 3 then
      .next (((s.setAx a { x with disagreeT := none }).setbit (oAx a 2 6) 3 true).axEvent a 0x0205)
    else .next s
  | none => .next s

def execStartTimeout (t : Time) (a : Fin 16) (s : State) : Step :=
  let s := s.tick t
  let x := s.axOf a
  match x.startT with
  | some b =>
    if b + msT (s.frcN (oAx a 7 9)) ≤ t ∧ !x.obs.valid then .next ((s.setAx a { x with startT := none }).positionLost a)
    else .next s
  | none => .next s

/-! ## Commands (R248 to R254) -/

/-- A command that starts motion. -/
def AxCmd.motion : AxCmd → Bool
  | .move _ | .vel _ | .runStart _ => true
  | _ => false

/-- Has axis `a` stopped by a stop command alone, so that a move may follow (R248)? -/
def State.stopByCommand (s : State) (a : Nat) : Bool := decide (s.axState a = 3) && decide ((s.axOf a).plan = .stop 0)

/-- Is limit input of one side active (R256)? -/
def State.limitOn (s : State) (a : Nat) (positive : Bool) : Bool :=
  let n := s.nat (oAx a 4 (if positive then 1 else 2))
  Nat.blt n 64 && (s.ginOf n).active

/-- A position outside the software limits in use. -/
def State.outside (s : State) (a : Nat) (p : Int) : Bool :=
  decide (s.nat (oAx a 4 4) = 1 ∧ (p < s.num (oAx a 4 5) ∨ s.num (oAx a 4 6) < p))

/-- Does the rotor-angle table axis `a` uses suit it at enable (R268)? Table 0, a sine and a cosine, has two columns. -/
def State.tableOk (s : State) (a : Nat) : Bool :=
  let n := s.nat (oAx a 6 2)
  if s.axKind a = 1 ∨ (s.axKind a = 2 ∧ s.nat (oAx a 6 1) = 1) then
    if n = 0 then decide (s.axKind a = 1)
    else
      let cols := (tget (fun _ => []) s.comp.rotors n).headD 0
      if s.axKind a = 2 then decide (cols = 3) else decide (2 ≤ cols)
  else true

/-- No loop slot of target kind 1 on axis `a` but the one it names (R283). -/
def State.slotsOk (s : State) (a : Nat) : Bool :=
  (List.range 64).all (fun n => !(decide (s.nat (oLoop n 0 8) = 1 ∧ s.nat (oLoop n 0 9) = a)) || decide (s.nat (oAx a 6 7) = n))

/-- Whether the axis command `v` is refused in the present state, and why (R248, R253, R256, R331). -/
def State.axCheck (s : State) (a v : Nat) : Option Refuse :=
  let st := s.axState a
  let x := s.axOf a
  let canMove := st == 1 || st == 2 || s.stopByCommand a
  let no : Option Refuse := some .state
  match v with
  | 1 =>
    if !((st == 0 && x.catchT.isNone) || (st == 1 && x.braking)) || s.axKind a == 0 then no
    else if !s.tableOk a || !s.slotsOk a then some .range else none
  | 2 => if st == 1 || (st == 0 && (x.braking || x.catchT.isSome)) then none else no
  | 3 =>
    let p := s.num (oAx a 1 5)
    if !canMove then no
    else if s.outside a p then some .range
    else if (s.limitOn a true && decide (s.num (oAx a 1 7) < p)) || (s.limitOn a false && decide (p < s.num (oAx a 1 7))) then no
    else none
  | 4 =>
    let w := s.num (oAx a 1 6)
    if !canMove then no
    else if (s.limitOn a true && decide (0 < w)) || (s.limitOn a false && decide (w < 0)) then no
    else none
  | 5 => if st == 1 || st == 2 then none else no
  | 6 => if st == 2 || x.cmds.any AxCmd.motion then none else no
  | 7 => if st == 1 && s.axKind a == 2 && s.axEnc a then none else no
  | 8 => if (st == 1 || st == 0) && decide (1 ≤ s.axKind a ∧ s.axKind a ≤ 3) then none else no
  | 9 => if st == 4 && !s.flt.fsw.getLsbD (32 + a / 12) then none else no
  | _ => some .range

/-- A command accepted: it waits for the next tick, and a run first has its chain checked (R249, R252). -/
def State.axAct (s : State) (a v : Nat) : State :=
  let x := s.axOf a
  let put (c : AxCmd) : State := s.setAx a { x with cmds := x.cmds ++ [c] }
  match v with
  | 1 => put .enable
  | 2 => put .disable
  | 3 => put (.move (s.num (oAx a 1 5)))
  | 4 => put (.vel (s.num (oAx a 1 6)))
  | 5 => (s.setAx a { x with checking := some (s.nat (oAx a 2 2)) }).setn (oAx a 2 4) 0xFF
  | 6 => put .stop
  | 7 => put .align
  | 8 => put .brake
  | 9 => put .clear
  | _ => s

/-- A run command refused for the axis's state still writes result 1 (R252). -/
def State.axRunRefused (s : State) (a : Nat) : State := s.setn (oAx a 2 4) 1

def execRunCheckDone (t : Time) (a : Fin 48) (s : State) : Step :=
  let s := s.tick t
  let x := s.axOf a
  match x.checking with
  | none => .next s
  | some n =>
    let r := s.runCheck a n
    let s := (s.setAx a { x with checking := none }).setn (oAx a 2 4) (r : Nat)
    if r ≠ 0 then .next s
    else
      let g := s.nat (oAx a 2 3)
      let x := s.axOf a
      .next (if g < 64 then s.setAx a { x with armed := some (n, g) }
        else s.setAx a { x with cmds := x.cmds ++ [.runStart n] })

def execRunTrigger (t : Time) (a : Fin 48) (s : State) : Step :=
  let s := s.tick t
  let x := s.axOf a
  match x.armed with
  | some (n, g) =>
    if (s.ginOf g).active then .next (s.setAx a { x with armed := none, cmds := x.cmds ++ [.runStart n] })
    else .next s
  | none => .next s

def execLimitInput (t : Time) (a : Fin 48) (positive : Bool) (s : State) : Step :=
  let s := s.tick t
  let x := s.axOf a
  if s.limitOn a positive then .next (s.setAx a { x with cmds := x.cmds ++ [.limit positive] }) else .next s

/-- A motion command begins: LIMIT and SOFT_LIMIT clear, and a sensorless axis starts open-loop (R271). -/
def State.motionStart (s : State) (a : Nat) (p : Plan) : State :=
  let st := s.nat (oAx a 2 6)
  let s := s.setn (oAx a 2 6) (st - st % 8 : Nat)
  let x := s.axOf a
  let open_ := s.onObserver a && !x.obs.valid && decide (x.vm = 0) && x.startT.isNone
  (s.setAx a { x with plan := p, chain := [], armed := none, startT := if open_ then some s.now else x.startT }).setAxState a 2

/-- One motion command applied (R249): discarded and counted where the axis cannot take it any more. -/
def State.applyMotion (s : State) (a : Nat) (c : AxCmd) : State :=
  let st := s.axState a
  let ok := (st == 1 || st == 2 || s.stopByCommand a) && decide (4 ≤ s.modeN ∧ s.modeN ≤ 6)
  if !ok then s.bump (oAx a 2 7)
  else match c with
    | .move p => s.motionStart a (.move (p * step32))
    | .vel v => if v = 0 ∧ (s.axOf a).vm = 0 ∧ st = 1 then s else s.motionStart a (.vel v)
    | .runStart n =>
      if st == 3 then s.bump (oAx a 2 7)
      else
        let p0 := s.axPos a
        let v0 := (s.axOf a).vm
        let s := s.motionStart a (.run n 0 p0 v0)
        s.setAx a { s.axOf a with chain := s.chainOf n }
    | _ => s

/-- The other commands applied (R248, R265, R272). -/
def State.applyOther (s : State) (a : Nat) (c : AxCmd) : State :=
  let x := s.axOf a
  match c with
  | .enable =>
    if !decide (4 ≤ s.modeN ∧ s.modeN ≤ 6) then s.bump (oAx a 2 7)
    else if s.axState a = 0 ∨ (s.axState a = 1 ∧ x.braking) then s.axEnable a
    else s
  | .disable => if s.axState a ≤ 1 then s.axDisable a else s
  | .brake => if s.axState a ≤ 1 then s.putAx a { x with braking := true, brk := [] } else s
  | .align => if s.axState a = 1 then s.putAx a { x with alignT := some s.now } else s
  | .clear =>
    if s.axState a = 4 then
      let st := s.nat (oAx a 2 6)
      ((s.putAx a { x with braking := false, gates := false, chop := [], brk := [], plan := .rest, disT := some s.now }).setn (oAx a 2 6) (st % 16 : Nat)).setAxState a 0
    else s
  | _ => s

/-- The waiting commands applied at a tick (R249, R274). -/
def State.applyCmds (s : State) (a : Nat) : State :=
  let x := s.axOf a
  let cs := x.cmds
  let s := s.setAx a { x with cmds := [] }
  let s := cs.foldl (fun s c => s.applyOther a c) s
  let lim := cs.filterMap (fun c => match c with
    | .limit p => if toward p (s.axOf a).vm then some p else none
    | _ => none)
  let stops := cs.any (fun c => decide (c = .stop)) || !lim.isEmpty
  let s := lim.foldl (fun s p => s.axLimit a p) s
  let s := if cs.any (fun c => decide (c = .stop)) then s.axStop a 0 else s
  let motion := cs.filter AxCmd.motion
  if motion.isEmpty then s
  else if stops then s.bumpBy (oAx a 2 7) motion.length
  else if (s.axOf a).plan = .stop 6 then s.setAx a { s.axOf a with cmds := motion }
  else match motion.getLast? with
    | some c => s.applyMotion a c
    | none => s

/-! ## The tick (R247, R251, R253 to R259) -/

/-- One tick of velocity toward a target through 0 (R254). -/
def stepVel (v target am dm : Int) : Int :=
  if v * target < 0 ∨ (target = 0 ∧ v ≠ 0) then
    if 0 < v then max 0 (v - dm) else min 0 (v + dm)
  else if v.natAbs < target.natAbs then
    if 0 < target then min target (v + am) else max target (v - am)
  else if 0 < v then max target (v - dm) else min target (v + dm)

/-- One tick toward 0. -/
def stepDown (v d : Int) : Int := if 0 < v then max 0 (v - d) else min 0 (v + d)

/-- One tick of a move (R253): the new position and velocity, and whether the target is reached. -/
def stepMove (p v target vmax am dm : Int) : Int × Int × Bool :=
  let dist := target - p
  let fwd := decide (0 ≤ dist)
  let u : Int := v.natAbs
  let d := inTicks dist
  if v * dist < 0 then
    let v' := stepDown v dm
    (p + tickCover v v', v', false)
  else if u ≤ dm ∧ d ≤ max u (min am vmax) then (target, 0, true)
  else
    let rest := 2 * d - u
    let root : Int := isqrt (dm * dm + 4 * dm * rest).toNat
    let cap := if rest ≤ 0 then 0 else (root - dm) / 2
    let u' :=
      if cap + 4 < u - dm then max 0 (u - dm)
      else if vmax < u then max 0 (min cap (max vmax (u - dm)))
      else min (min (u + am) vmax) cap
    let v' := if fwd then u' else -u'
    (p + tickCover v v', v', false)

/-- The position and velocity of a segment at tick `tau` (R251). -/
def Seg.at (g : Seg) (tau : Nat) (p0 v0 : Int) : Int × Int :=
  let T : Int := g.T
  let x : Int := tau
  let p1 := p0 + g.dp * step32
  let v1 := g.v1 * 1000
  if g.T ≤ tau then (p1, v1)
  else
    let vx (v : Int) : Int := v * 8192
    let num := ((2 * x * x * x - 3 * x * x * T + T * T * T) * p0 + (3 * x * x * T - 2 * x * x * x) * p1) * 125
      + ((x * x * x - 2 * x * x * T + x * T * T) * vx v0 + (x * x * x - x * x * T) * vx v1) * T
    let vel := (6 * x * x - 6 * x * T) * (p0 - p1) * 125
      + ((3 * x * x - 4 * x * T + T * T) * vx v0 + (3 * x * x - 2 * x * T) * vx v1) * T
    (num / (125 * T * T * T), tdiv vel (8192 * T * T * T))

/-- What one tick of the plan gives: position, velocity, and the state after. -/
def State.planStep (s : State) (a : Nat) : Int × Int × State :=
  let x := s.axOf a
  let p := s.axPos a
  let vmax := s.axLim a 1 * 1000
  let am := s.axLim a 2
  let dm := s.axLim a 3
  let hold (s : State) : State := (s.setAx a { s.axOf a with plan := .rest, chain := [] }).setAxState a 1
  match x.plan with
  | .rest => (p, x.vm, s)
  | .move target =>
    let (p', v', done) := stepMove p x.vm target vmax am dm
    (p', v', if done then hold s else s)
  | .vel target =>
    let v' := stepVel x.vm (clampI vmax (target * 1000)) am dm
    (p + tickCover x.vm v', v', if v' = 0 ∧ target = 0 then hold s else s)
  | .stop why =>
    let v' := stepDown x.vm (s.axLim a 4)
    (p + tickCover x.vm v', v', if v' = 0 then s.stopEnd a why else s)
  | .run n tau p0 v0 =>
    let g := s.seg n
    let (p', v') := g.at (tau + 1) p0 v0
    if tau + 1 < g.T then (p', v', s.setAx a { x with plan := .run n (tau + 1) p0 v0 })
    else
      let s := if g.ev then s.axEvent a 0x0201 (leBytes 2 n) else s
      if !g.last then (p', v', s.setAx a { x with plan := .run g.link 0 p' v' })
      else if v' = 0 then (p', v', hold s)
      else (p', v', s.setAx a { x with plan := .vel g.v1, chain := [] })

/-- The integer crossings between two positions in the tick that starts at `t0`: direction and instant on the 6.25 ns grid. -/
def crossings (p p' : Int) (t0 : Time) : List (Bool × Time) :=
  let i0 := p / step32
  let i1 := p' / step32
  let stamp (n : Int) : Time :=
    let f := ((n * step32 - p).natAbs * usT 1) / (p' - p).natAbs
    let t := t0 + f
    t - t % unitT 4
  if i0 < i1 then (List.range (i1 - i0).toNat).map (fun k => (true, stamp (i0 + 1 + k)))
  else (List.range (i0 - i1).toNat).map (fun k => (false, stamp (i0 - k)))

/-- One step or microstep of axis `a` at `ts`, into the line axes that take its step stream (R30). -/
def State.axInc (s : State) (a : Nat) (fwd : Bool) (ts : Time) : State :=
  (s.setAx a { s.axOf a with lastInc := some ts }).laxIncs 2 a (if fwd then 1 else -1) ts

/-- Issue a STEP_DIR axis's owed steps up to `t` (R259), `fuel` at least their number. -/
def State.issueSteps (s : State) (a : Nat) (t : Time) : Nat → State
  | 0 => s
  | f + 1 =>
    let x := s.axOf a
    match x.owed with
    | [] => s
    | (fwd, tc) :: r =>
      let w := unitT (4 * s.nat (oAx a 3 1))
      let ina := unitT (4 * s.nat (oAx a 3 2))
      let afterLast (d : Time) : Time := (x.lastStep.map (fun l => l + w + d)).getD 0
      let period : Time := (x.lastStep.map (fun l => l + nsT 500)).getD 0
      let turn := x.dir == fwd
      let dirT := if turn then max (tc - usT 1) (afterLast (unitT (4 * s.nat (oAx a 3 4)))) else x.dirT
      let due := max (max (max tc (afterLast ina)) period)
        (max (dirT + unitT (4 * s.nat (oAx a 3 3))) (x.enT + usT (s.frcN (oAx a 3 5))))
      if t < due then s
      else
        let s := s.setAx a { x with owed := r, dir := !fwd, dirT := dirT, lastStep := some due }
        let s := if tc < due then s.bump (oAx a 3 7) else s
        let s := s.send (.step a (fwd != (s.nat (oAx a 0 5) == 1)))
        (s.axInc a fwd due).issueSteps a t f

/-- The increments of a tick (R247, R259). -/
def State.axIncs (s : State) (a : Nat) (l : List (Bool × Time)) (t : Time) : State :=
  if s.axKind a = 4 then
    let x := s.axOf a
    let s := s.setAx a { x with owed := x.owed ++ l }
    let x := s.axOf a
    let late := !x.owed.isEmpty || decide (x.vm = 0) || x.dir == decide (x.vm < 0)
    let s := if late then s
      else s.setAx a { x with
        dir := decide (x.vm < 0)
        dirT := max (t - usT 1) ((x.lastStep.map (fun l => l + unitT (4 * (s.nat (oAx a 3 1) + s.nat (oAx a 3 4))))).getD 0) }
    s.issueSteps a t (s.axOf a).owed.length
  else l.foldl (fun s (f, ts) => s.axInc a f ts) s

/-- The soft limits of a velocity-mode axis or a running chain (R257): where the tick ahead would pass the point from which `ds` stops
the axis at its limit, the velocity at the end of the stop's first tick, taken from the distance that remains. -/
def State.softHit (s : State) (a : Nat) : Option Int :=
  let x := s.axOf a
  let applies : Bool := match x.plan with
    | .vel _ | .run _ _ _ _ => decide (s.nat (oAx a 4 4) = 1)
    | _ => false
  let ds := max 1 (s.axLim a 4)
  let (p', v', _) := s.planStep a
  let reach := v' * v' / (2 * ds) * 8192 / 125
  let p := s.axPos a
  let rem (d : Int) : Int := if 0 < d then inTicks d else 0
  let first (u d : Int) : Int :=
    let root : Int := isqrt (ds * ds - 4 * ds * u + 8 * ds * rem d).toNat
    max (max 0 (u - ds)) (min (max u v'.natAbs) ((root - ds) / 2))
  let hi := s.num (oAx a 4 6) * step32
  let lo := s.num (oAx a 4 5) * step32
  if applies ∧ 0 < v' ∧ hi < p' + reach then some (first (max 0 x.vm) (hi - p))
  else if applies ∧ v' < 0 ∧ p' - reach < lo then some (-(first (max 0 (-x.vm)) (p - lo)))
  else none

/-- One tick of the plan under the soft limits. -/
def State.limitedStep (s : State) (a : Nat) : Int × Int × State :=
  match s.softHit a with
  | some v =>
    let s := ((s.setbit (oAx a 2 6) 2 true).axEvent a 0x0203).axStop a 2
    (s.axPos a + tickCover (s.axOf a).vm v, v, if v = 0 then s.stopEnd a 2 else s)
  | none => s.planStep a

/-- The feedback position (R246, R258): the encoder's, the observer's, or the commanded one where there is none. -/
def State.axFeedback (s : State) (a : Nat) : State :=
  if s.onObserver a then s
  else if s.axEnc a then
    s.setn (oAx a 1 8) (wrapS 64 (s.num (oEnc (s.nat (oAx a 0 2)) 0x0A) + (s.axOf a).fbOff))
  else s.setn (oAx a 1 8) (s.num (oAx a 1 7))

/-- Since when the following error exceeds its limit (R258); the check rests while the encoder has failed (R270). -/
def State.followTimer (s : State) (a : Nat) (t : Time) : State :=
  let x := s.axOf a
  let st := s.axState a
  let failed := (s.encOf (s.nat (oAx a 0 2))).st &&& 0x7C != 0
  let far := s.axEnc a && !failed && !s.obit (oAx a 2 6) 3 && decide (1 ≤ st ∧ st ≤ 3)
    && decide (s.nat (oAx a 4 7) < (sdiff (s.num (oAx a 1 7)) (s.num (oAx a 1 8))).natAbs)
  s.setAx a { x with followT := if far then some (x.followT.getD t) else none }

/-- The velocity set-point a loop slot has published (R254): followed in velocity mode. -/
def State.takeVelSet (s : State) (a : Nat) : State :=
  let x := s.axOf a
  match x.velSet with
  | none => s
  | some v =>
    let s := s.setAx a { x with velSet := none }
    let st := s.axState a
    if (st = 1 ∨ st = 2) ∧ s.modeN ≠ 7 ∧ x.plan ≠ .stop 6 ∧ !x.braking then
      if v = 0 ∧ x.vm = 0 then s
      else if st = 2 ∧ x.chain = [] then s.setAx a { s.axOf a with plan := .vel v }
      else s.motionStart a (.vel v)
    else s

/-- Is `t` an interpolation tick of axis `a`: a multiple of 1 us of the monotonic count, each once (R247)? -/
def State.tickDue (s : State) (a : Nat) (t : Time) : Bool :=
  decide (t % usT 1 = 0) && (s.axOf a).tickT.all (fun l => decide (l < t))

def execAxisTick (t : Time) (a : Fin 48) (s : State) : Step :=
  let s := s.tick t
  if s.modeN ≤ 1 ∨ s.axKind a = 0 ∨ !s.tickDue a t then .next s
  else
    let s := s.setAx a { s.axOf a with tickT := some t }
    let s := (s.applyCmds a).takeVelSet a
    let p := s.axPos a
    let (p', v', s) := s.limitedStep a
    let x := s.axOf a
    let v' := if x.plan = .rest then 0 else v'
    let s := s.setAx a { x with vm := v', frac := (p' % step32).toNat,
                                zeroT := if v' = 0 then some (x.zeroT.getD t) else none,
                                holdCur := x.holdCur && decide (v' = 0) }
    let s := (s.setn (oAx a 1 7) (wrapS 64 (p' / step32))).setn (oAx a 1 9) (tdiv v' 1000)
    let s := s.axIncs a (crossings p p' (t - usT 1)) t
    .next ((s.axFeedback a).followTimer a t)

def execFollowingError (t : Time) (a : Fin 48) (s : State) : Step :=
  let s := s.tick t
  match (s.axOf a).followT with
  | some b =>
    if b + msT (s.nat (oAx a 4 8)) < t ∧ 1 ≤ s.axState a ∧ s.axState a ≤ 3 ∧ !s.obit (oAx a 2 6) 5 then
      .next (((s.setbit (oAx a 2 6) 5 true).axEvent a 0x0204).axisFault a 2 0)
    else .next s
  | none => .next s

def execHoldCurrentTimeout (t : Time) (a : Fin 48) (s : State) : Step :=
  let s := s.tick t
  let x := s.axOf a
  match x.zeroT with
  | some z =>
    if s.axKind a = 1 ∧ x.vm = 0 ∧ z + msT 100 ≤ t then .next (s.setAx a { x with holdCur := true }) else .next s
  | none => .next s

/-- The velocity an encoder's estimator gives over a window, Q16.16 counts per us (R35), within the bound of R36 between increments. -/
def State.encVel (s : State) (e : Nat) (w t : Time) : Int :=
  match (s.encOf e).recs with
  | (t1, p1) :: (t2, p2) :: r =>
    let v := rawVel w (((t1, p1) :: (t2, p2) :: r).map (fun q => (q.1, q.2 * step32)))
    if t1 - t2 < t - t1 then clampI (65536 * (usT 1 : Int) / ((t - t1 : Nat) : Int)) v else v
  | _ => 0

/-- The speed the observer gives, Q16.16 counts of the axis per us (R269, R273). -/
def State.obsVel (s : State) (a : Nat) : Int :=
  let o := (s.axOf a).obs
  let (num, den) := s.obsScale a
  if o.per = 0 then 0 else tdiv (o.dth * (num : Int) * 65536 * (usT 1 : Int)) ((o.per * den : Nat) : Int)

def execCatchDone (t : Time) (a : Fin 48) (s : State) : Step :=
  let s := s.tick t
  let x := s.axOf a
  match x.catchT with
  | none => .next s
  | some b =>
    let w := msT (s.frcN (oAx a 7 0x0B) % 65536)
    if x.catchBrake ∨ t < b + w then .next s
    else if s.onObserver a then
      if x.obs.valid then .next (s.axCaught a (s.obsVel a))
      else .next (s.putAx a { x with catchT := some t, catchBrake := true, braking := true })
    else
      let s := s.axFeedback a
      .next (s.axCaught a (s.encVel (s.nat (oAx a 0 2)) w t))

def execCatchBrakeExpiry (t : Time) (a : Fin 48) (s : State) : Step :=
  let s := s.tick t
  let x := s.axOf a
  match x.catchT with
  | none => .next s
  | some b =>
    if x.catchBrake ∧ b + msT (s.frcN (oAx a 7 0x0B) / 65536) ≤ t then .next (s.axCaught a 0) else .next s

def execAlignTimeExpiry (t : Time) (a : Fin 48) (s : State) : Step :=
  let s := s.tick t
  let x := s.axOf a
  match x.alignT with
  | none => .next s
  | some b =>
    if b + msT (s.nat (oAx a 6 6) / 65536) ≤ t then
      let s := (s.putAx a { x with alignT := none }).setn (oAx a 6 4) (wrapS 32 (s.num (oAx a 1 8)))
      .next (s.enforce (oAx a 6 4))
    else .next s

/-! ## Dictionary effects of other objects -/

/-- A preset of the position (R275): commanded and feedback positions read `v`. -/
def State.axPreset (s : State) (a : Nat) (v : Int) : State :=
  let x := s.axOf a
  let off := if s.axEnc a then v - s.num (oEnc (s.nat (oAx a 0 2)) 0x0A) else 0
  ((s.setAx a { x with frac := 0, fbOff := off }).setn (oAx a 1 7) v).setn (oAx a 1 8) v

/-- Is a segment in a running chain (R252)? -/
def State.segBusy (s : State) (n : Nat) : Bool := (List.range 48).any (fun a => (s.axOf a).chain.contains n)

/-- A segment write (R252, R276). -/
def State.segWrite (s : State) (b : Bytes) : State :=
  { s with segs := tset zeroSeg s.segs (s.nat (ky 0x2040 1)) b }

/-- The step-rate limit of a STEP_DIR axis, in force or as written, as a raw velocity limit (R259): the lower of 2 MHz and
1 / (width + inactive time). -/
def State.stepRateMax (s : State) (a : Nat) : Int :=
  if s.axKind a = 4 ∨ s.nat (oAx a 0 1) = 4 then
    min (2 * 65536) (65536 * 160 / max 1 (s.num (oAx a 3 1) + s.num (oAx a 3 2)))
  else 2147483647

end Sys2Proof.Machine
end

