-- ==== Sys2Proof/Machine/Loop.lean ====
section
/-! DEFINITION. The loop engine (R277 to R291). -/

namespace Sys2Proof.Machine

/-- A selector names a source (R279). -/
def selectorOk (x : Nat) : Bool :=
  let i := x % 256
  match x / 256 with
  | 0x00 | 0xFF => true
  | 0x01 => Nat.blt i 64
  | 0x02 | 0x03 | 0x04 | 0x05 => Nat.blt i 48
  | 0x06 | 0x07 | 0x08 => Nat.blt i 16
  | 0x09 => Nat.blt i 32
  | _ => false

/-- The mean regulated current of a power port over the last ADC round, mA, signed in the driven sense (R279 kind 0x06): of a BRUSHED axis
the current from half-bridge 0 to 1; in six-step mode the low phase's, positive where the set-point is; for motors whose phases are
regulated together, see log 148. -/
def State.axCurrent (s : State) (a : Nat) : Int :=
  let x := s.axOf a
  let i (h : Nat) : Int := x.round.getD h 0
  match s.axKind a with
  | 3 => i 0
  | 2 => if s.sinusoidal a then Config.meanCurrent 2 (s.axTheta a) x.round
    else
      let (hi, lo) := sixStep x.sector
      if (tget (fun _ => Chop.init) x.chop 0).neg then i hi else -i lo
  | 1 => Config.meanCurrent 1 (s.axTheta a) x.round
  | _ => 0

/-- The window of an encoder's own estimate, 1,000 us (log 19). -/
def encWindow : Time := usT 1000

/-- The value of a source for slot `n` (R279). -/
def State.loopSource (s : State) (n x : Nat) : Int :=
  let i := x % 256
  match x / 256 with
  | 0x00 => s.num (oLoop n 0 7)
  | 0x01 => s.num (oLoop i 4 1)
  | 0x02 => s.num (oAx i 1 7)
  | 0x03 => s.num (oAx i 1 8)
  | 0x04 => s.num (oAx i 1 9)
  | 0x05 => if s.axEnc i then wrapS 32 (s.encVel (s.nat (oAx i 0 2)) encWindow s.now) else 0
  | 0x06 => s.axCurrent i
  | 0x07 => s.num (oEnc i 0x0A)
  | 0x08 => wrapS 32 (s.encVel i encWindow s.now)
  | 0x09 => wrapS 32 (s.laxVf 33 i)
  | _ => 0

/-- The cycles an input costs (R287). -/
def inputCost (x : Nat) : Nat := if x / 256 ≤ 1 then 2 else if x / 256 = 0xFF then 0 else 8

/-- The staged objects of slot `n` (R286). -/
def stagedKeys (n : Nat) : List Nat :=
  (List.range 10).map (fun i => oLoop n 1 (i + 1)) ++ (List.range 5).map (fun i => oLoop n 2 (i + 1))

/-- Slot `n` takes up the set that was staged when it was applied (R286). -/
def State.loopTakeUp (s : State) (n : Nat) : State :=
  match (s.loopOf n).applied with
  | some l => ((stagedKeys n).zip l).foldl (fun s (k, v) => { s with force := tset dfl s.force k v }) s
  | none => s

/-- The input selectors of slot `n`. -/
def State.loopSrcs (s : State) (n : Nat) : List Nat := [s.nat (oLoop n 0 4), s.nat (oLoop n 0 5), s.nat (oLoop n 0 6)]

/-- Does this evaluation make the AUTO entry of R285 (R284 to R286)? -/
def State.loopEntry (s : State) (n : Nat) : Bool :=
  let x := s.loopOf n
  decide (s.nat (oLoop n 0 1) = 2) &&
    (decide (x.mode ≠ 2) || x.enabled ||
      (s.obit (oLoop n 0 0x0A) 2 && (x.applied.isSome || decide (s.loopSrcs n ≠ x.srcs))))

/-- The cycles slot `n` costs in a mode with the set in force (R287). -/
def State.slotCost (s : State) (n : Nat) (ramp : Bool) : Nat :=
  let m := s.nat (oLoop n 0 1)
  if m = 2 then
    40 + ((s.loopSrcs n).map inputCost).sum + (if s.frcI (oLoop n 1 1) ≠ 0 then 6 else 0)
      + (if s.frcI (oLoop n 1 3) ≠ 0 then 10 else 0) + (if s.frcI (oLoop n 1 5) ≠ 0 then 14 else 0)
      + (if s.nat (oLoop n 0 6) / 256 ≠ 0xFF then 6 else 0) + (if s.frcI (oLoop n 2 5) ≠ 0 then 6 else 0)
      + (if ramp then 8 else 0)
  else 40 + (if m = 3 then inputCost (s.nat (oLoop n 3 2)) else 0)

/-- The terms of R280 for one evaluation. -/
structure Terms where
  e : Int
  p : Int
  x : Int
  df : Int
  di : Int
  f : Int
  deriving DecidableEq, Repr

/-- A product in 64 bits, shifted and saturated (R280). -/
def mulSat (k v : Int) (sh : Nat) : Int := sat32 (asr (wrapS 64 (k * v)) sh)

/-- The terms of slot `n`; `fresh` is the first evaluation after a mode entry. -/
def State.loopTerms (s : State) (n : Nat) (fresh : Bool) : Terms :=
  let x := s.loopOf n
  let sp := s.loopSource n (s.nat (oLoop n 0 4))
  let fb := s.loopSource n (s.nat (oLoop n 0 5))
  let ff := s.loopSource n (s.nat (oLoop n 0 6))
  let e := sat32 (wrapS 64 (sp - fb))
  let v := if s.obit (oLoop n 0 0x0A) 0 then wrapS 64 (-fb) else e
  let dr := if fresh then 0 else mulSat (s.frcI (oLoop n 1 5)) (wrapS 64 (v - x.xprev)) (s.frcN (oLoop n 1 6))
  { e := e
    p := mulSat (s.frcI (oLoop n 1 1)) e (s.frcN (oLoop n 1 2))
    x := v
    df := x.df + asr (dr - x.df) (s.frcN (oLoop n 1 7))
    di := mulSat (s.frcI (oLoop n 1 3)) e (s.frcN (oLoop n 1 4))
    f := mulSat (s.frcI (oLoop n 1 8)) (sat32 ff) (s.frcN (oLoop n 1 9)) }

/-- Clamp to [lo, hi]. -/
def clampLH (lo hi x : Int) : Int := min hi (max lo x)

/-- The rate limit of R280. -/
def rateLimit (r yprev y : Int) : Int := if 0 < r then yprev + min r (max (-r) (y - yprev)) else y

/-- The event of slot `n`'s group (R281, R285, R288, R289). -/
def State.loopEvent (s : State) (n cause : Nat) : State := s.event (0xB0 + n / 4) cause n

/-- Put the results of an evaluation into the objects: output, integrator, error, h, status bits. -/
def State.loopPut (s : State) (n : Nat) (y ia e h : Int) (satHi satLo clamped hand idle : Bool) : State :=
  let old := s.nat (oLoop n 4 5)
  let st := b2n satHi + 2 * b2n satLo + 4 * b2n clamped + 8 * b2n hand + 16 * b2n idle + (if bit old 5 then 32 else 0)
  let s := ((((s.setn (oLoop n 4 1) y).setn (oLoop n 4 2) ia).setn (oLoop n 4 3) e).setn (oLoop n 4 4) h).setn
    (oLoop n 4 5) (st : Nat)
  let s := if satHi && !bit old 0 then s.loopEvent n 0x0401 else s
  let s := if satLo && !bit old 1 then s.loopEvent n 0x0401 else s
  s.bump (oLoop n 4 7)

/-- Is the target axis of slot `n` DISABLED or FAULTED (R284)? -/
def State.loopIdle (s : State) (n : Nat) : Bool :=
  decide (s.nat (oLoop n 0 8) ≠ 0) &&
    (let st := s.axState (s.nat (oLoop n 0 9)); st == 0 || st == 4)

/-- The last output a hand-over goes out from: the last published one, or the axis's state where it has just been enabled (R284, R285). -/
def State.lastOut (s : State) (n : Nat) : Int :=
  let a := s.nat (oLoop n 0 9)
  match (s.loopOf n).enabled, s.nat (oLoop n 0 8) with
  | true, 1 => s.axCurrent a
  | true, 2 => s.num (oAx a 1 9)
  | _, _ => s.num (oLoop n 4 1)

/-- One step of a hand-over ramp (R285): the offset and whether it goes on. -/
def rampStep (h0 : Int) (rr k : Nat) : Int × Bool :=
  if k < rr then (tdiv (h0 * ((rr - k : Nat) : Int)) rr, true) else (0, false)

/-- The AUTO evaluation of R280 with R284 to R286. -/
def State.loopAuto (s : State) (n : Nat) (entry : Bool) : State :=
  let x := s.loopOf n
  let idle := s.loopIdle n
  let tm := s.loopTerms n entry
  let bias := s.frcI (oLoop n 1 0x0A)
  let imin := s.frcI (oLoop n 2 1)
  let imax := s.frcI (oLoop n 2 2)
  let ymin := s.frcI (oLoop n 2 3)
  let ymax := s.frcI (oLoop n 2 4)
  let yprev := s.num (oLoop n 4 1)
  let st := s.nat (oLoop n 4 5)
  let yl := s.lastOut n
  let s := if entry then s.enforce (oLoop n 3 3) else s
  let rr := s.frcN (oLoop n 3 3)
  let rest := tm.p + tm.df + tm.f + bias
  let ia0 := s.num (oLoop n 4 2)
  let cond := s.obit (oLoop n 0 0x0A) 1 && ((bit st 0 && decide (0 < tm.di)) || (bit st 1 && decide (tm.di < 0)))
  let ia := clampLH imin imax (if idle then ia0 else if entry then yl - rest else if cond then ia0 else sat32 (ia0 + tm.di))
  let h0 := if entry then yl - (rest + ia) else x.h0
  let k := if entry then 0 else x.k + 1
  let (h, going) := if entry || x.ramping then rampStep h0 rr k else (0, false)
  let u := sat32 (rest + ia + h)
  let y := rateLimit (s.frcI (oLoop n 2 5)) yprev (clampLH ymin ymax u)
  let s := s.setLoop n { x with mode := 2, df := tm.df, xprev := tm.x, h0 := h0, k := k, ramping := going, applied := none,
                                srcs := s.loopSrcs n, enabled := false }
  let s := s.loopPut n y ia tm.e h (decide (y = ymax)) (decide (y = ymin)) (decide (ia = imin ∨ ia = imax))
    (going || decide (h ≠ 0)) idle
  if x.ramping && !entry && !going then s.loopEvent n 0x0402 else s

/-- The evaluation of slot `n` (R280, R284 to R286). -/
def State.loopEval (s : State) (n : Nat) : State :=
  let entry := s.loopEntry n
  let s := s.loopTakeUp n
  let x := s.loopOf n
  let idle := s.loopIdle n
  let yprev := s.num (oLoop n 4 1)
  let imin := s.frcI (oLoop n 2 1)
  let imax := s.frcI (oLoop n 2 2)
  let ia0 := s.num (oLoop n 4 2)
  let onLimit (ia : Int) : Bool := decide (ia = imin ∨ ia = imax)
  let x' := { x with applied := none, srcs := s.loopSrcs n, enabled := false }
  match s.nat (oLoop n 0 1) with
  | 2 => s.loopAuto n entry
  | 1 =>
    let mv := s.num (oLoop n 3 1)
    let rr := s.frcN (oLoop n 3 3)
    let start := decide (x.mode = 2) && decide (0 < rr)
    let h0 := if start then yprev - mv else x.h0
    let k := if start then 0 else x.k + 1
    let on := start || (x.ramping && decide (x.mode = 1))
    let (h, going) := if on then rampStep h0 rr k else (0, false)
    let y := rateLimit (s.frcI (oLoop n 2 5)) yprev (sat32 (mv + h))
    let s := s.setLoop n { x' with mode := 1, h0 := h0, k := k, ramping := going }
    let ia := clampLH imin imax ia0
    let s := s.loopPut n y ia (s.num (oLoop n 4 3)) h false false (onLimit ia) (going || decide (h ≠ 0)) idle
    if on && !going then s.loopEvent n 0x0402 else s
  | 3 =>
    let tm := s.loopTerms n (decide (x.mode ≠ 3))
    let y := clampLH (s.frcI (oLoop n 2 3)) (s.frcI (oLoop n 2 4)) (sat32 (s.loopSource n (s.nat (oLoop n 3 2))))
    let ia := clampLH imin imax (if idle then ia0 else s.lastOut n - (tm.p + tm.df + tm.f + s.frcI (oLoop n 1 0x0A)))
    let s := s.setLoop n { x' with mode := 3, df := tm.df, xprev := tm.x, ramping := false, h0 := 0 }
    s.loopPut n y ia tm.e 0 false false (onLimit ia) false idle
  | _ =>
    let ia := clampLH imin imax 0
    (s.setLoop n { x' with mode := 0, df := 0, xprev := 0, h0 := 0, k := 0, ramping := false }).loopPut n 0 ia
      (s.num (oLoop n 4 3)) 0 false false (onLimit ia) false idle

/-- A pass in progress: the cycles spent, the slots evaluated and the first slot not reached. -/
structure Pass where
  used : Nat
  done : List Nat
  miss : Option Nat
  deriving DecidableEq, Repr

/-- Slot `n` in a pass (R278, R288). -/
def State.passSlot (bf : Nat) (s : State) (p : Pass) (n : Nat) : State × Pass :=
  let skip (s : State) (p : Pass) : State × Pass := (s.bump (oLoop n 4 6), { p with miss := some (p.miss.getD n) })
  if p.miss.isSome then skip s p
  else
    let entry := s.loopEntry n
    let cost := (s.loopTakeUp n).slotCost n
      ((s.loopOf n).ramping || (entry && decide (0 < s.nat (oLoop n 3 3))))
    if p.used + cost + 16 ≤ bf then (s.loopEval n, { p with used := p.used + cost, done := p.done ++ [n] })
    else skip s p

/-- The output of slot `n` goes to its target (R278, R283). -/
def State.loopPublish (s : State) (n : Nat) : State :=
  if s.nat (oLoop n 0 8) = 2 then
    let a := s.nat (oLoop n 0 9)
    s.setAx a { s.axOf a with velSet := some (s.num (oLoop n 4 1)) }
  else s

/-- The budget in force (R287). -/
def State.loopBudget (s : State) : Nat := 3200 - 8 * s.nat (ky 0x2010 2)

/-- Does a tick start at `t`: a multiple of 20,000 ns of the monotonic count, each once (R277)? -/
def State.loopDue (s : State) (t : Time) : Bool :=
  decide (t % nsT 20000 = 0) && s.clk.loopT.all (fun l => decide (l < t))

def execLoopTick (t : Time) (s : State) : Step :=
  let s := s.tick t
  if s.modeN < 3 ∨ !s.loopDue t then .next s
  else
    let s := { s with clk := { s.clk with loopT := some t } }
    let N := (s.nat (ky 0x2030 7) + 1) % 2 ^ 32
    let s := s.setn (ky 0x2030 7) (N : Nat)
    let due := (List.range 64).filter (fun n => decide (N % max 1 (s.nat (oLoop n 0 2)) = s.nat (oLoop n 0 3)))
    let (s, p) := due.foldl (fun (a : State × Pass) n => State.passSlot a.1.loopBudget a.1 a.2 n) (s, ⟨80, [], none⟩)
    let s := p.done.foldl (fun s n => s.loopPublish n) s
    let s := (s.setn (ky 0x2030 3) (p.used : Nat)).setn (ky 0x2030 4) (max (s.nat (ky 0x2030 4)) p.used : Nat)
    .next (match p.miss with
      | none => s
      | some n => (((s.bump (ky 0x2030 5)).setn (ky 0x2030 6) 1).loopEvent n 0x0403).fault 38 1 n p.used)

/-- The planned cost of slot `n` (R287). -/
def State.plannedCost (s : State) (n : Nat) : Nat :=
  s.slotCost n (decide (s.nat (oLoop n 0 1) = 2) && decide (0 < s.nat (oLoop n 3 3)))

/-- The planned worst pass over every tick residue (R287). -/
def State.plannedPass (s : State) : Nat :=
  let c := (List.range 64).map (fun n => (max 1 (s.nat (oLoop n 0 2)), s.nat (oLoop n 0 3), s.plannedCost n))
  let m := c.foldl (fun a d => Nat.lcm a d.1) 1
  (List.range m).foldl (fun w r => max w (80 + (c.map (fun d => if r % d.1 = d.2.1 then d.2.2 else 0)).sum)) 80

def execPlannedPassRefresh (t : Time) (s : State) : Step :=
  let s := s.tick t
  if s.modeN ≤ 1 then .next s else .next (s.setn (ky 0x2030 2) (s.plannedPass : Nat))

/-- A double-bit error in a slot's state (R289). -/
def State.loopEcc (s : State) (n : Nat) : State :=
  let s := s.setLoop n { Loop.init with srcs := s.loopSrcs n }
  let s := ((((s.setn (oLoop n 0 1) 0).setn (oLoop n 4 1) 0).setn (oLoop n 4 2) 0).setn (oLoop n 4 4) 0).setn (oLoop n 4 5) 32
  s.loopEvent n 0x0404

/-- A mode write (R285, R289): it takes effect at the next evaluation, and ends the ECC state. -/
def State.loopModeWrite (s : State) (n : Nat) : State := s.setbit (oLoop n 4 5) 5 false

/-- The apply object (R286): the set as it stands is what the next evaluation takes up. -/
def State.loopApply (s : State) (n : Nat) : State :=
  s.setLoop n { s.loopOf n with applied := some ((stagedKeys n).map (fun k => s.val k)) }

/-- Does another slot target the velocity of the axis slot `n` targets (R283)? -/
def State.loopClash (s : State) (n : Nat) : Bool :=
  decide (s.nat (oLoop n 0 8) = 2) &&
    (List.range 64).any (fun m => m != n && decide (s.nat (oLoop m 0 8) = 2 ∧ s.nat (oLoop m 0 9) = s.nat (oLoop n 0 9)))

end Sys2Proof.Machine
end

