-- ==== Sys2Proof/Machine/Queues.lean ====
section
/-! DEFINITION. The host interface's queues, the Porter, the writers and MSI-X (R292 to R316, R325, R326). -/

namespace Sys2Proof.Machine

/-! ## Accesses (R294, R331) -/

/-- The CAUSE code of HOST_ERR_STATUS (R294, R331); none where the refusal latches nothing. -/
def hostCause (r : Refuse) : Option Nat :=
  match r with
  | .reservedQueue => some 1
  | .queueState => some 2
  | .doorbellRange => some 3
  | .window => some 4
  | .range => some 5
  | .mode | .state => some 6
  | .channelBusy => some 7
  | _ => none

/-- The access-error response of the PCI Express path (R294). -/
def State.hostError (s : State) (off : Nat) (r : Refuse) (bar2 : Bool) : State :=
  match hostCause r with
  | none => s.answer (.refused r)
  | some c =>
    let h := s.host
    let h := if h.errValid then { h with errOverrun := true }
      else { h with errValid := true, errAddr := off % 2 ^ 32, errCause := c, errBar := bar2 }
    ((({ s with host := h }).bump (ky 0x2500 3)).event 0xE7 0 0).answer (.refused r)

def execBar2Access (t : Time) (off : Nat) (write : Option Bytes) (len : Nat) (bad : Bool) (s : State) : Step :=
  let s := s.tick t
  if s.modeN = 0 then .next (s.answer .none)
  else
    let a := s.host.bar2 * 1048576 + off
    let n := match write with
      | some b => b.length
      | none => len
    if 268435456 < off + n ∨ !s.inDram a n then
      let s := s.hostError off .window true
      .next (if write = none then s.answer (.data (List.replicate n 0)) else s)
    else match write with
      | some b => .next ((s.dramWrite a b).answer .ok)
      | none =>
        if bad then .next ((s.fault 16 1 3 (a / 1048576)).answer (.poisoned (s.dramRead a n)))
        else .next (s.answer (.data (s.dramRead a n)))

/-! ## MSI-X (R316) -/

/-- Signal a vector: sent when its entry is unmasked, otherwise pending. -/
def State.msix (s : State) (v : Nat) : State :=
  if tget (fun _ => 0) s.host.msixUnmasked v = 1 then s.send (.msix v)
  else { s with host := { s.host with msixPend := v :: s.host.msixPend.filter (· != v) } }

/-- `n` entries written to queue `q` without a signal (R316). -/
def State.queueIrq (s : State) (q n : Nat) : State :=
  let d := s.qOf q
  if !d.irqEn then s
  else
    let d := { d with unsigT := if d.unsig = 0 then s.now else d.unsigT, unsig := d.unsig + n }
    if d.irqCount ≤ d.unsig ∨ d.irqTime = 0 then (s.setQ q { d with unsig := 0 }).msix d.vector
    else s.setQ q d

def execIrqModerationTimeout (t : Time) (q : Nat) (s : State) : Step :=
  let s := s.tick t
  let d := s.qOf q
  if d.irqEn ∧ 0 < d.unsig ∧ d.unsigT + usT d.irqTime ≤ t then .next ((s.setQ q { d with unsig := 0 }).msix d.vector)
  else .next s

/-! ## Queues -/

/-- Host-produced types (R296). -/
def Queue.hostMade (d : Queue) : Bool := d.typ == 1 || d.typ == 2 || d.typ == 5

/-- Bytes of an entry (R296). -/
def Queue.width (d : Queue) : Nat := if d.typ = 3 then 32 else 64

/-- The address of slot `i` of a ring (R297). -/
def Queue.slot (d : Queue) (i : Nat) : Nat := d.base + i % 2 ^ d.z * d.width

/-- The index write-back (R301). -/
def State.idxBack (s : State) (q idx : Nat) : State :=
  let d := s.qOf q
  if d.wb = 0 then s else s.memWrite d.dram d.wb (leBytes 4 idx)

/-- The casement whose request queue is `q` (R299). -/
def State.requestCas (s : State) (q : Nat) : Option Nat := (List.range 48).find? (fun c => s.nat (oCas c 0 9) = q)

/-- Records the enabled pools hold room for (R299), but that of queue `q`. -/
def State.poolSum (s : State) (q : Nat) : Nat :=
  (s.host.queues.map (fun (i, d) => if i ≠ q ∧ d.enabled ∧ d.typ = 2 then d.param else 0)).foldl (· + ·) 0

/-- The enable result of a queue (R299): 0 OK, or the first failing check. -/
def State.enableCode (s : State) (q : Nat) : Nat :=
  let d := s.qOf q
  let align := if d.dram then 4096 else 64
  if d.typ = 0 ∨ 5 < d.typ then 1
  else if d.z < 4 ∨ 16 < d.z then 2
  else if d.base % align ≠ 0 ∨ d.wb % 4 ≠ 0 then 3
  else if d.dram ∧ !s.inDram d.base (2 ^ d.z * d.width) then 4
  else if ((s.requestCas q).isSome ∧ d.typ ≠ 1) ∨ ((List.range 48).any (fun c => s.nat (oCas c 0x11 1) = q) ∧ d.typ ≠ 3) then 5
  else if d.typ = 2 ∧ (d.param = 0 ∨ 65536 < d.param ∨ s.frcN (ky 0x2503 2) < 256 * (s.poolSum q + d.param)) then 6
  else 0

/-- Enable queue `q` with the descriptor it holds (R297, R299). -/
def State.queueEnable (s : State) (q : Nat) : State :=
  let d := s.qOf q
  let c := s.enableCode q
  if c ≠ 0 then (s.setQ q { d with ecode := c }).event 0xE1 0 q [BitVec.ofNat 8 c]
  else
    let s := s.setQ q { d with enabled := true, ecode := 0, prod := 0, cons := 0, fetched := 0, got := [], unsig := 0,
                               fullSince := false, agedAt := none, eff := d.cls }
    { s with host := { s.host with reqs := s.host.reqs.filter (fun r => r.queue != some q) } }

/-- Disable queue `q` (R300). -/
def State.queueDisable (s : State) (q : Nat) : State := s.setQ q { s.qOf q with enabled := false, agedAt := none }

/-- A queue number a user may name (R3, R296). -/
def queueRef (q : Nat) : Option Refuse := if q < 16 then some .reservedQueue else if 16384 ≤ q then some .range else none

def execQueueEnable (t : Time) (q : Nat) (s : State) : Step :=
  let s := s.tick t
  if s.modeN ≤ 1 ∨ 16384 ≤ q then .next (s.answer .none)
  else match queueRef q with
    | some r => .next (s.hostError (0x100000 + 64 * q) r false)
    | none => .next ((if (s.qOf q).enabled then s else s.queueEnable q).answer .ok)

def execQueueDisable (t : Time) (q : Nat) (s : State) : Step :=
  let s := s.tick t
  if s.modeN ≤ 1 ∨ 16384 ≤ q then .next (s.answer .none)
  else match queueRef q with
    | some r => .next (s.hostError (0x100000 + 64 * q) r false)
    | none => .next ((s.queueDisable q).answer .ok)

/-! ## Descriptor registers (R298) -/

/-- Not eligible for the Porter (R305 to R307, R53): its casement holds 64 entries or leaves them, its pool is full, or 16 requests are
outstanding. -/
def State.blocked (s : State) (q : Nat) : Bool :=
  let d := s.qOf q
  match d.typ with
  | 1 =>
    match s.requestCas q with
    | some c =>
      let x := s.casOf c
      !s.captures || Nat.ble 64 (x.reqs.length + (x.pend.filter (fun m => m.req.isSome)).length)
    | none => false
  | 2 => Nat.ble d.param d.pool.length
  | 5 => s.net.restarting || Nat.ble 16 s.host.reqs.length
  | _ => false

/-- Does a disabled queue have entries waiting for it (R298)? -/
def State.waitsFor (s : State) (q : Nat) : Bool :=
  s.host.buffer.any (fun x => x.queue = q) || s.host.events.any (fun p => s.routeOf p.1 = q)

/-- QSTATUS (R298). -/
def State.qStatus (s : State) (q : Nat) : Nat :=
  let d := s.qOf q
  let made := d.typ == 3 || d.typ == 4
  d.ecode * 256 + 16 * b2n d.malformed + 8 * b2n (d.enabled && s.blocked q)
    + 4 * b2n ((d.enabled && made && d.atEnd) || (!d.enabled && s.waitsFor q)) + 2 * b2n (Nat.blt d.eff d.cls) + b2n d.enabled

/-- A word of queue `q`'s descriptor. -/
def State.qWord (s : State) (q off : Nat) : Nat :=
  let d := s.qOf q
  match off with
  | 0x00 => b2n d.enabled * 2 ^ 31 + b2n d.dram * 2 ^ 30 + d.typ * 2 ^ 24 + d.z * 2 ^ 20
  | 0x04 => s.qStatus q
  | 0x08 => d.base % 2 ^ 32
  | 0x0C => d.base / 2 ^ 32
  | 0x10 => d.wb % 2 ^ 32
  | 0x14 => d.wb / 2 ^ 32
  | 0x18 => d.prod
  | 0x1C => d.cons
  | 0x20 => d.weight * 256 + d.cls
  | 0x24 => b2n d.irqEn * 2 ^ 31 + d.vector * 65536 + d.irqCount * 256 + d.irqTime
  | 0x28 => d.param
  | 0x2C => d.count
  | 0x30 => d.drop
  | 0x34 => d.errIndex
  | _ => 0

/-- A word written into a descriptor that is not enabled, or into QARB, QIRQ or QSTATUS; `ENABLE` of QCTRL is not acted on here. -/
def Queue.put (d : Queue) (off v : Nat) : Queue :=
  match off with
  | 0x00 => { d with dram := bit v 30, typ := bits v 27 24, z := bits v 23 20 }
  | 0x04 => if bit v 4 then { d with malformed := false } else d
  | 0x08 => { d with base := d.base / 2 ^ 32 * 2 ^ 32 + v }
  | 0x0C => { d with base := v * 2 ^ 32 + d.base % 2 ^ 32 }
  | 0x10 => { d with wb := d.wb / 2 ^ 32 * 2 ^ 32 + v }
  | 0x14 => { d with wb := v * 2 ^ 32 + d.wb % 2 ^ 32 }
  | 0x20 => { d with weight := bits v 15 8, cls := bits v 2 0, eff := if d.eff = d.cls then bits v 2 0 else d.eff }
  | 0x24 => { d with irqEn := bit v 31, vector := bits v 23 16, irqCount := bits v 15 8, irqTime := bits v 7 0 }
  | 0x28 => { d with param := bits v 16 0 }
  | _ => d

/-- Why a descriptor word write is refused (R3, R18, R298). `same` is a write of the value the word holds, which the whole-descriptor
object allows. -/
def State.qCheck (s : State) (q off v : Nat) (same : Bool) : Option Refuse :=
  let d := s.qOf q
  let held := match off with
    | 0x08 | 0x0C | 0x10 | 0x14 | 0x28 => !(same && decide (s.qWord q off = v))
    | 0x00 => decide (bits v 30 30 ≠ b2n d.dram ∨ bits v 27 24 ≠ d.typ ∨ bits v 23 20 ≠ d.z)
    | _ => false
  match queueRef q with
  | some r => some r
  | none =>
    if d.enabled && held then some .queueState
    else if off = 0x20 ∧ bits v 15 8 = 0 then some .range
    else if off = 0x24 ∧ bits v 15 8 = 0 then some .range
    else none

/-- A descriptor word write (R298 to R300). -/
def State.qWrite (s : State) (q off v : Nat) : State :=
  let d := s.qOf q
  if off = 0 then
    if d.enabled then (if bit v 31 then s else s.queueDisable q)
    else
      let s := s.setQ q (d.put 0 v)
      if bit v 31 then s.queueEnable q else s
  else s.setQ q (d.put off v)

/-- The words of a descriptor that a whole write sets, QCTRL last. -/
def qWords : List Nat := [0x04, 0x08, 0x0C, 0x10, 0x14, 0x20, 0x24, 0x28, 0x00]

/-- The whole descriptor (0x2504:04, R327). -/
def State.qBytes (s : State) (q : Nat) : Bytes := (List.range 16).flatMap (fun i => leBytes 4 (s.qWord q (4 * i)))

/-- A write of the whole descriptor. -/
def State.qBytesCheck (s : State) (q : Nat) (b : Bytes) : Option Refuse :=
  qWords.findSome? (fun o => s.qCheck q o (fieldLE b o 4) true)

/-- The effect of a write of the whole descriptor. -/
def State.qBytesWrite (s : State) (q : Nat) (b : Bytes) : State :=
  qWords.foldl (fun s o => s.qWrite q o (fieldLE b o 4)) s

/-- An uncorrectable error in a descriptor (R300). -/
def State.queueEcc (s : State) (q : Nat) : State :=
  (s.setQ q { s.qOf q with enabled := false, ecode := 7, agedAt := none }).event 0xE5 0 q

/-! ## Doorbells (R301) -/

/-- Why a doorbell value is refused. -/
def State.doorbellCheck (s : State) (q v : Nat) : Option Refuse :=
  let d := s.qOf q
  match queueRef q with
  | some r => some r
  | none =>
    if !d.enabled then some .queueState
    else if d.hostMade then (if (v + 2 ^ 32 - d.cons) % 2 ^ 32 ≤ 2 ^ d.z then none else some .doorbellRange)
    else if (d.prod + 2 ^ 32 - v) % 2 ^ 32 ≤ d.level then none else some .doorbellRange

/-- A doorbell accepted. -/
def State.doorbell (s : State) (q v : Nat) : State :=
  let d := s.qOf q
  if d.hostMade then s.setQ q { d with prod := v }
  else
    let d := { d with cons := v }
    s.setQ q { d with fullSince := d.fullSince && d.atEnd }

/-! ## The Porter (R303 to R309) -/

/-- The byte of an entry. -/
def byteAt (b : Bytes) (i : Nat) : Nat := fieldLE b i 1

/-- The offset of the first failing field of a fetched entry (R303, R304, R306, R307). -/
def State.entryFault (s : State) (q : Nat) (b : Bytes) : Option Nat :=
  let d := s.qOf q
  let fl := byteAt b 1
  if byteAt b 0 ≠ d.typ then some 0
  else match d.typ with
    | 1 =>
      match s.requestCas q with
      | none => some 2
      | some c =>
        if fl / 32 ≠ 0 ∨ (bit fl 1 ∧ bit fl 2) ∨ (s.nat (oCas c 0 1) = 2 ∧ !bit fl 0) then some 1
        else if byteAt b 2 ≠ c then some 2
        else if 63 < byteAt b 3 then some 3
        else if 4095 < fieldLE b 4 2 then some 4
        else if bit fl 1 ∧ 40 < byteAt b 6 then some 6
        else if byteAt b 7 ≠ 0 then some 7
        else if bit fl 2 ∧ leNat (sliceB b 0x20 32) ≠ 0 then some 0x20
        else none
    | 2 =>
      if fl / 4 ≠ 0 then some 1
      else if !bit fl 0 ∧ 48 < byteAt b 2 then some 2
      else if fieldLE b 3 5 ≠ 0 then some 3
      else if bit fl 0 ∧ leNat (sliceB b 0x18 40) ≠ 0 then some 0x18
      else none
    | _ =>
      if byteAt b 5 / 4 ≠ 0 then some 5
      else if fieldLE b 0x0C 4 ≠ 0 then some 0x0C
      else none

/-- C advances over entries already discarded. -/
def skipDiscarded : List Bytes → Nat → List Bytes × Nat
  | [] :: r, c => skipDiscarded r ((c + 1) % 2 ^ 32)
  | l, c => (l, c)

/-- The oldest fetched entry of queue `q` is done with: C advances past it and past discarded ones behind it. -/
def State.popEntry (s : State) (q : Nat) : State :=
  let d := s.qOf q
  let (got, c) := skipDiscarded (d.got.drop 1) ((d.cons + 1) % 2 ^ 32)
  (s.setQ q { d with got := got, cons := c }).idxBack q c

/-- A malformed entry (R303), at index `i`. -/
def State.malformed (s : State) (q i off : Nat) : State :=
  let d := s.qOf q
  (s.setQ q { d with malformed := true, drop := (d.drop + 1) % 2 ^ 32, errIndex := i }).event 0xE0 0 q [BitVec.ofNat 8 off]

/-- Fetches in flight (R308); requests served by the firmware are no longer. -/
def State.inFlight (s : State) : Nat :=
  (s.host.queues.map (fun (_, d) => if d.typ = 5 then 0 else d.got.length)).foldl (· + ·) 0

/-- Eligible for a grant (R308). -/
def State.eligible (s : State) (q : Nat) : Bool :=
  let d := s.qOf q
  d.enabled && d.hostMade && d.fetched != d.prod && !s.blocked q

/-- Aging timers start with eligibility and end with it, and so does the turn of a queue at the pointer of a class (R309). -/
def State.porterScan (s : State) : State :=
  let s := s.host.queues.foldl (fun s (q, _) =>
    let d := s.qOf q
    if s.eligible q then (if d.agedAt = none then s.setQ q { d with agedAt := some s.now } else s)
    else if d.agedAt.isSome ∨ d.eff ≠ d.cls then s.setQ q { d with agedAt := none, eff := d.cls }
    else s) s
  { s with host := { s.host with grants := (s.host.grants.zip s.host.pointer).map (fun (g, p) => if s.eligible p then g else 255) } }

/-- The queue the next grant goes to (R309): lowest effective class, then the pointer of that class. -/
def State.porterPick (s : State) : Option (Nat × Nat × Bool) :=
  let el := (s.host.queues.map Prod.fst).filter s.eligible
  match (List.range 8).find? (fun k => el.any (fun q => (s.qOf q).eff = k)) with
  | none => none
  | some k =>
    let l := el.filter (fun q => (s.qOf q).eff = k)
    let p := (s.host.pointer[k]?).getD 0
    if l.contains p ∧ (s.host.grants[k]?).getD 0 < (s.qOf p).weight then some (p, k, false)
    else match l.find? (fun q => p < q) with
      | some q => some (q, k, true)
      | none => l.head?.map (fun q => (q, k, true))

/-- Raise event 0xE4 where queue `q` has become BLOCKED (the list after R315). -/
def State.blockEvent (s : State) (q : Nat) : State := if s.blocked q then s.event 0xE4 0 q else s

/-- `n` clocks of 480 MHz, without spread. -/
def clocks480 (n : Nat) : Time := nsT (25 * n) / 12

/-- One fetched entry (R303): kept for acceptance, discarded, or handed to the firmware. -/
def State.fetched (s : State) (q : Nat) (ok : Bool) : State :=
  let d := s.qOf q
  let i := d.fetched
  let b := s.memRead d.dram (d.slot i) 64
  let bad := if ok then s.entryFault q b else some 0
  let s := s.setQ q { d with fetched := (i + 1) % 2 ^ 32, got := d.got ++ [if bad.isSome then [] else b] }
  match bad with
  | some off =>
    let s := s.malformed q i off
    if d.got = [] then
      let (got, c) := skipDiscarded (s.qOf q).got (s.qOf q).cons
      (s.setQ q { s.qOf q with got := got, cons := c }).idxBack q c
    else s
  | none =>
    if d.typ = 5 then
      ({ s with host := { s.host with reqs := s.host.reqs ++ [({ queue := some q, index := i, entry := b } : DReq)] } }).blockEvent q
    else s

def execPorterGrant (t : Time) (ok : Bool) (s : State) : Step :=
  let s := (s.tick t).porterScan
  if s.modeN ≤ 1 ∨ 32 ≤ s.inFlight ∨ t < s.host.grantT then .next s
  else match s.porterPick with
    | none => .next s
    | some (q, k, fresh) =>
      let n := if fresh then 1 else (s.host.grants[k]?).getD 0 + 1
      let s := { s with host := { s.host with
        pointer := s.host.pointer.set k q, grants := s.host.grants.set k n, grantT := t + clocks480 8 } }
      let d := s.qOf q
      let s := (s.setQ q { d with eff := d.cls, agedAt := none }).bump (ky 0x2502 1)
      .next ((s.fetched q ok).porterScan)

def execAgingPromotion (t : Time) (q : Nat) (s : State) : Step :=
  let s := (s.tick t).porterScan
  let d := s.qOf q
  match d.agedAt with
  | some a =>
    if 0 < d.eff ∧ a + usT (s.nat (ky 0x2502 (d.eff + 1))) ≤ t then
      .next (s.setQ q { d with eff := d.eff - 1, agedAt := some t })
    else .next s
  | none => .next s

/-- The override of a mark-request entry (R304); none where its data cannot be read. -/
def State.override (s : State) (b : Bytes) (ok : Bool) : Option (Option (Nat × Bytes)) :=
  let fl := byteAt b 1
  let n := byteAt b 6
  if bit fl 1 then some (some (byteAt b 3, sliceB b 0x18 n))
  else if bit fl 2 then
    let a := fieldLE b 0x18 8
    if ok && (!bit fl 3 || s.inDram a n) then some (some (byteAt b 3, s.memRead (bit fl 3) a n)) else none
  else some none

def execMarkRequestAccept (t : Time) (q : Nat) (ok : Bool) (s : State) : Step :=
  let s := s.tick t
  let d := s.qOf q
  match d.got, s.requestCas q with
  | b :: _, some c =>
    if d.typ ≠ 1 ∨ s.blocked q then .next s
    else
      let i := d.cons
      match s.override b ok with
      | none => .next ((s.malformed q i 0x18).popEntry q)
      | some ovr =>
        let fl := byteAt b 1
        let e : ReqEntry :=
          { queue := q, index := i, template := if bit fl 4 then some (fieldLE b 4 2) else none, tag := fieldLE b 8 4,
            cookie := fieldLE b 0x0C 4, anchor := wrapS 64 (fieldLE b 0x10 8), ovr := ovr, t := t }
        let s := s.setQ q { d with count := (d.count + 1) % 2 ^ 32 }
        let s := s.popEntry q
        let s := if s.nat (oCas c 0 1) = 2 then (s.anchorsFirst c t).leadAnchor c (.request q i) e.anchor t (some e)
          else
            let x := s.casOf c
            (s.setCasement c { x with reqs := x.reqs ++ [e] }).pair c
        .next (s.blockEvent q)
  | _, _ => .next s

def execRecordAccept (t : Time) (q : Nat) (ok : Bool) (s : State) : Step :=
  let s := s.tick t
  let d := s.qOf q
  match d.got with
  | b :: _ =>
    if d.typ ≠ 2 ∨ s.blocked q then .next s
    else
      let fl := byteAt b 1
      let n := byteAt b 2
      let a := fieldLE b 0x10 8
      if bit fl 0 ∧ (!ok ∨ (bit fl 1 ∧ !s.inDram a n)) then .next ((s.malformed q d.cons 0x10).popEntry q)
      else
        let data := if bit fl 0 then s.memRead (bit fl 1) a n else sliceB b 0x10 n
        let s := s.setQ q { d with count := (d.count + 1) % 2 ^ 32, pool := d.pool ++ [(data, fieldLE b 8 8, t)] }
        let s := { s with comp := { s.comp with changes := s.comp.changes ++ [(t, Change.record q)] } }
        .next ((s.popEntry q).blockEvent q)
  | [] => .next s

/-! ## The completion writer and the event writer (R302, R311 to R315) -/

/-- An entry with its phase bit (R302) at index `p` of a ring of 2^z. -/
def phased (z p : Nat) (b : Bytes) : Bytes :=
  match b with
  | k :: r => (k ||| (if p / 2 ^ z % 2 = 0 then 0x80 else 0)) :: r
  | [] => []

/-- Device-produced entries written at P (R301, R302, R316). -/
def State.produce (s : State) (q : Nat) (es : List Bytes) : State :=
  let s := es.foldl (fun s e =>
    let d := s.qOf q
    let s := s.memWrite d.dram (d.slot d.prod) (phased d.z d.prod e)
    s.setQ q { d with prod := (d.prod + 1) % 2 ^ 32, count := (d.count + 1) % 2 ^ 32 }) s
  (s.idxBack q (s.qOf q).prod).queueIrq q es.length

/-- Take up to `n` entries of queue `q` out of the writer's buffer. -/
def takeEntries (q : Nat) : Nat → List Compl → List Bytes × List Compl
  | _, [] => ([], [])
  | n, x :: r =>
    if x.queue = q then
      let k := min n x.entries.length
      let (es, r') := takeEntries q (n - k) r
      let rest := x.entries.drop k
      (x.entries.take k ++ es, if rest = [] then r' else { x with entries := rest } :: r')
    else
      let (es, r') := takeEntries q n r
      (es, x :: r')

def execCompletionDrain (t : Time) (q : Nat) (s : State) : Step :=
  let s := s.tick t
  let d := s.qOf q
  if !d.enabled ∨ d.typ ≠ 3 ∨ d.atEnd ∨ t < s.host.drainT then .next s
  else
    let n := min 8 (min (2 ^ d.z - d.level) (2 ^ d.z - d.prod % 2 ^ d.z))
    let (es, rest) := takeEntries q n s.host.buffer
    if es = [] then .next s
    else
      let s := { s with host := { s.host with buffer := rest, drainT := t + usT es.length / 64 } }
      .next ((s.setn (ky 0x2501 1) (s.occupancy : Nat)).produce q es)

/-- The event entry of a source (R314). -/
def eventEntry (e : Nat) (r : EvRec) : Bytes :=
  leBytes 1 4 ++ leBytes 1 e ++ leBytes 2 r.cause ++ leBytes 2 r.inst ++ leBytes 1 (b2n r.loss) ++ leBytes 1 0 ++ leBytes 8 r.time
    ++ leBytes 4 r.repeats ++ leBytes 4 0 ++ sliceB r.data 0 40

/-- Sources held by a full or disabled queue raise event 0xE3 once per entry of the queue into that state (R314). -/
def State.holdEvents (s : State) (l : List Nat) : State :=
  l.foldl (fun s e =>
    let q := s.routeOf e
    let d := s.qOf q
    if s.eventHeld e ∧ !d.fullSince then (s.setQ q { d with fullSince := true }).event 0xE3 0 q else s) s

def execEventWrite (t : Time) (s : State) : Step :=
  let s := s.tick t
  let s := s.holdEvents (s.host.events.map Prod.fst)
  match s.host.events.find? (fun p => s.routeOf p.1 != 0 && !s.eventHeld p.1) with
  | none => .next s
  | some (e, r) =>
    if t < s.host.eventT then .next s else
    let q := s.routeOf e
    let s := { s with host := { s.host with events := tdel s.host.events e, eventT := t + clocks480 1 } }
    let s := s.produce q [eventEntry e r]
    let w := tget (fun _ => 0) s.host.routes e
    .next (if bit w 24 then s.msix (bits w 23 16) else s)

/-! ## The mailbox (R307) -/

/-- A mailbox submission accepted. -/
def State.mboxSubmit (s : State) : State :=
  let r : DReq := { queue := none, index := 0, entry := sliceB s.host.mbox 0 64 }
  { s with host := { s.host with mboxBusy := true, reqs := s.host.reqs ++ [r] } }

def execMailboxSubmit (t : Time) (v : BitVec 32) (s : State) : Step :=
  let s := s.tick t
  if s.modeN ≤ 1 then .next (s.answer .none)
  else if !v.getLsbD 0 then .next (s.answer .ok)
  else if s.host.mboxBusy then .next (s.hostError 0x01000040 .queueState false)
  else .next (s.mboxSubmit.answer .ok)

end Sys2Proof.Machine
end

