-- ==== Sys2Proof/Machine/Dma.lean ====
section
/-! DEFINITION. The DMA channels, resets of the link and the link itself (R317 to R326). -/

namespace Sys2Proof.Machine

/-- Bytes of a width code (R317). -/
def dmaW (w : Nat) : Nat := 2 ^ w

/-- Source bytes of a transfer (R318). -/
def Dma.total (d : Dma) : Nat := if d.gather then d.count * d.block else d.count * dmaW d.ws

/-- A source length as a destination length (R318). -/
def Dma.scaled (d : Dma) (n : Nat) : Nat := if d.pack = 1 then n / dmaW d.ws * dmaW d.wd else n

/-- Source bytes done, from the bytes written. -/
def Dma.doneBytes (d : Dma) : Nat := if d.pack = 1 then d.bytes / dmaW d.wd * dmaW d.ws else d.bytes

/-- Do [a, a + n) and [b, b + m) share a byte? -/
def overlap (a n b m : Nat) : Bool := Nat.blt 0 n && Nat.blt 0 m && Nat.blt a (b + m) && Nat.blt b (a + n)

/-- Does a channel have an end in device DRAM, an end in host memory? -/
def Dma.dramEnd (d : Dma) : Bool := d.srcDram || d.dstDram
def Dma.hostEnd (d : Dma) : Bool := !d.srcDram || !d.dstDram || (d.gather && !d.idxDram)

/-- SHARE in use (R320). -/
def Dma.share256 (d : Dma) : Nat := if d.share = 0 then 256 else d.share

/-- The DRAM rate of a channel, in 1/256 MB/s (R320). -/
def Dma.dramRate (d : Dma) : Nat := if d.dramEnd then d.share256 * 12800 else 0

/-- Does a range lie outside installed DRAM? -/
def State.offDram (s : State) (dram : Bool) (a n : Nat) : Bool := dram && !s.inDram a n

/-- The ECODE of a START (R318 to R320), 0 where the transfer begins. The COUNT check on COUNT x ws is taken without gather alone (log
321). -/
def State.dmaCheck (s : State) (n : Nat) : Nat :=
  let d := s.dmaOf n
  let ws := dmaW d.ws
  let wd := dmaW d.wd
  let src := d.total
  let dst := d.scaled src
  if d.src % ws ≠ 0 ∨ d.dst % wd ≠ 0 ∨ (d.gather ∧ (d.block % ws ≠ 0 ∨ (d.pack = 0 ∧ d.block % wd ≠ 0))) then 1
  else if d.count = 0 ∨ (d.gather ∧ d.block = 0) ∨ (d.pack = 0 ∧ !d.gather ∧ d.count * ws % wd ≠ 0) then 4
  else if (!d.gather && s.offDram d.srcDram d.src src) || s.offDram d.dstDram d.dst dst
      || (d.gather && s.offDram d.idxDram d.idx (4 * d.count)) then 3
  else if (!d.gather && d.srcDram == d.dstDram && overlap d.src src d.dst dst && ws != wd)
      || (d.gather && d.idxDram == d.dstDram && overlap d.idx (4 * d.count) d.dst dst) then 2
  else if 256 * s.nat (ky 0x2500 4) <
      d.dramRate + (s.host.dma.map (fun (i, e) => if i ≠ n ∧ e.busy then e.dramRate else 0)).foldl (· + ·) 0 then 9
  else 0

/-- A channel ends with an error (R318, R324). -/
def State.dmaError (s : State) (n code : Nat) : State :=
  (s.setDma n { s.dmaOf n with busy := false, error := true, ecode := code, preempted := false }).event (0x70 + n) 0x0302 n
    [BitVec.ofNat 8 code]

/-- Is channel `n` ready: busy and not held by rate spacing (R323)? -/
def State.dmaReady (s : State) (n : Nat) : Bool := (s.dmaOf n).busy && Nat.ble (s.dmaOf n).tnext s.now

/-- Four ready channels of higher priority hold the data paths (R323). -/
def State.dmaHeld (s : State) (n : Nat) : Bool :=
  Nat.ble 4 ((s.host.dma.filter (fun (i, e) => i != n && s.dmaReady i && Nat.blt e.prio (s.dmaOf n).prio)).length)

/-- Does channel `n` wait for its turn: four ready channels go before it, those of higher priority and of equal priority served longer ago
(R323)? -/
def State.dmaWaits (s : State) (n : Nat) : Bool :=
  let d := s.dmaOf n
  Nat.ble 4 ((s.host.dma.filter (fun (i, e) => i != n && s.dmaReady i &&
    (Nat.blt e.prio d.prio || (e.prio == d.prio && (Nat.blt e.served d.served || (e.served == d.served && Nat.blt i n)))))).length)

/-- Pre-emption shown and counted (R323). -/
def State.dmaSettle (s : State) : State :=
  s.host.dma.foldl (fun s (n, _) =>
    let d := s.dmaOf n
    let held := d.busy && Nat.blt 0 d.bytes && s.dmaReady n && s.dmaHeld n
    if held = d.preempted then s
    else s.setDma n { d with preempted := held, preempts := if held then (d.preempts + 1) % 2 ^ 32 else d.preempts }) s

/-- START (R318). -/
def State.dmaStart (s : State) (n : Nat) : State :=
  let d := s.dmaOf n
  if d.busy then s
  else
    let d := { d with done := false, error := false, ecode := 0 }
    let s := s.setDma n d
    let c := s.dmaCheck n
    if c ≠ 0 then s.dmaError n c
    else (s.setDma n { d with busy := true, remain := d.count, bytes := 0, tnext := s.now }).dmaSettle

/-- ABORT (R324). -/
def State.dmaAbort (s : State) (n : Nat) : State :=
  if (s.dmaOf n).busy then (s.dmaError n 7).dmaSettle else s

def execDmaStart (t : Time) (n : Fin 64) (s : State) : Step :=
  let s := s.tick t
  if s.modeN = 0 then .next (s.answer .none) else .next ((s.dmaStart n).answer .ok)

def execDmaAbort (t : Time) (n : Fin 64) (s : State) : Step :=
  let s := s.tick t
  if s.modeN = 0 then .next (s.answer .none) else .next ((s.dmaAbort n).answer .ok)

/-- One source element converted (R322). -/
def dmaElem (ws wd : Nat) (sign : Bool) (b : Bytes) : Bytes :=
  let v := leNat b
  let top := sign && bit v (8 * ws - 1)
  (leBytes ws v ++ List.replicate (wd - ws) (if top then 255 else 0)).take wd

/-- The elements of a source burst converted; `fuel` at least their number. -/
def dmaConvert (ws wd : Nat) (sign : Bool) : Nat → Bytes → Bytes
  | 0, _ => []
  | f + 1, b => if b = [] then [] else dmaElem ws wd sign (b.take ws) ++ dmaConvert ws wd sign f (b.drop ws)

/-- What a burst moves: source address, source bytes, destination offset in source bytes; or the ECODE that ends the transfer. -/
def State.dmaPlan (s : State) (n : Nat) : Except Nat (Nat × Nat × Nat) :=
  let d := s.dmaOf n
  let b := 64 * 2 ^ d.burst
  let done := d.doneBytes
  let total := d.total
  if d.gather then
    let i := done / d.block
    let off := done % d.block
    let ix := leNat (s.memRead d.idxDram (d.idx + 4 * i) 4)
    let a := d.src + ix * d.block
    if s.offDram d.srcDram a d.block || (!d.srcDram && Nat.blt (2 ^ 64) (a + d.block)) then .error 5
    else if d.srcDram == d.dstDram && overlap a d.block d.dst (d.scaled total) then .error 2
    else .ok (a + off, min b (d.block - off), done)
  else
    let k := min b (total - done)
    let down := d.srcDram == d.dstDram && overlap d.src total d.dst (d.scaled total) && Nat.blt d.src d.dst
    let off := if down then total - done - k else done
    .ok (d.src + off, k, off)

/-- One burst of channel `n` (R320 to R324). -/
def State.dmaMove (s : State) (n : Nat) (ok : Bool) : State :=
  let d := s.dmaOf n
  match s.dmaPlan n with
  | .error c => s.dmaError n c
  | .ok (a, k, off) =>
    if !ok then
      let s := if d.srcDram then s.fault 16 1 2 (a / 1048576) else s
      s.dmaError n 6
    else
      let ws := dmaW d.ws
      let data := s.memRead d.srcDram a k
      let data := if d.pack = 1 then dmaConvert ws (dmaW d.wd) d.sign data.length data else data
      let s := s.memWrite d.dstDram (d.dst + d.scaled off) data
      let rb := if d.srcDram && d.dstDram then 12800 else 3938
      let s := { s with host := { s.host with dmaSeq := s.host.dmaSeq + 1 } }
      let d := { d with bytes := d.bytes + data.length, served := s.host.dmaSeq, tnext := s.now + k * 256 * usT 1 / (d.share256 * rb) }
      let unit := if d.gather then d.block else ws
      let d := { d with remain := d.count - d.doneBytes / max 1 unit }
      if d.remain = 0 then
        let s := s.setDma n { d with busy := false, done := true, preempted := false }
        if d.eventEn then s.event (0x70 + n) 0x0301 n else s
      else s.setDma n d

def execDmaBurst (t : Time) (n : Fin 64) (ok : Bool) (s : State) : Step :=
  let s := (s.tick t).dmaSettle
  if s.modeN = 0 ∨ !s.dmaReady n ∨ s.dmaWaits n then .next s else .next ((s.dmaMove n ok).dmaSettle)

/-! ## Channel registers (R317) -/

/-- DMAn_CTRL as it reads. -/
def Dma.ctrl (d : Dma) : Nat :=
  d.prio * 2 ^ 24 + b2n d.eventEn * 2 ^ 23 + b2n d.sign * 2 ^ 22 + d.pack * 2 ^ 20 + d.ws * 2 ^ 18 + d.wd * 2 ^ 16
    + b2n d.srcDram * 2 ^ 15 + b2n d.dstDram * 2 ^ 14 + b2n d.idxDram * 2 ^ 13 + b2n d.gather * 2 ^ 12

/-- A word of channel `n`. -/
def State.dmaWord (s : State) (n off : Nat) : Nat :=
  let d := s.dmaOf n
  match off with
  | 0x00 => d.ctrl
  | 0x04 => d.ecode * 256 + 16 * b2n d.preempted + 8 * b2n (d.busy && Nat.blt s.now d.tnext) + 4 * b2n d.error + 2 * b2n d.done + b2n d.busy
  | 0x08 => d.src % 2 ^ 32
  | 0x0C => d.src / 2 ^ 32
  | 0x10 => d.dst % 2 ^ 32
  | 0x14 => d.dst / 2 ^ 32
  | 0x18 => d.count
  | 0x1C => d.remain
  | 0x20 => d.idx % 2 ^ 32
  | 0x24 => d.idx / 2 ^ 32
  | 0x28 => d.block
  | 0x2C => d.share * 256 + d.burst
  | 0x30 => d.preempts
  | 0x34 => d.bytes % 2 ^ 32
  | _ => 0

/-- Why a channel register write is refused (R18, R317). -/
def State.dmaRegCheck (s : State) (n off v : Nat) : Option Refuse :=
  let d := s.dmaOf n
  let act := off == 0 && (bit v 29 || bit v 30)
  if d.busy ∧ !act ∧ off ≤ 0x34 then some .channelBusy
  else if off = 0 ∧ 2 ≤ bits v 21 20 then some .range
  else if off = 0x28 ∧ (v = 0 ∨ 65536 < v) then some .range
  else if off = 0x18 ∧ v = 0 then some .range
  else if off = 0x20 ∧ v % 4 ≠ 0 then some .range
  else if off = 0x2C ∧ bits v 2 0 = 7 then some .range
  else none

/-- A word written to channel `n` (R317, R318, R324). -/
def State.dmaRegWrite (s : State) (n off v : Nat) : State :=
  let d := s.dmaOf n
  match off with
  | 0x00 =>
    let s := if d.busy then s else s.setDma n { d with
      prio := bits v 26 24, eventEn := bit v 23, sign := bit v 22, pack := bits v 21 20, ws := bits v 19 18, wd := bits v 17 16
      srcDram := bit v 15, dstDram := bit v 14, idxDram := bit v 13, gather := bit v 12 }
    let s := if bit v 30 then s.dmaAbort n else s
    if bit v 29 then s.dmaStart n else s
  | 0x04 => s.setDma n { d with error := d.error && !bit v 2, done := d.done && !bit v 1 }
  | 0x08 => s.setDma n { d with src := d.src / 2 ^ 32 * 2 ^ 32 + v }
  | 0x0C => s.setDma n { d with src := v * 2 ^ 32 + d.src % 2 ^ 32 }
  | 0x10 => s.setDma n { d with dst := d.dst / 2 ^ 32 * 2 ^ 32 + v }
  | 0x14 => s.setDma n { d with dst := v * 2 ^ 32 + d.dst % 2 ^ 32 }
  | 0x18 => s.setDma n { d with count := v }
  | 0x20 => s.setDma n { d with idx := d.idx / 2 ^ 32 * 2 ^ 32 + v }
  | 0x24 => s.setDma n { d with idx := v * 2 ^ 32 + d.idx % 2 ^ 32 }
  | 0x28 => s.setDma n { d with block := v }
  | 0x2C => s.setDma n { d with share := bits v 15 8, burst := bits v 2 0 }
  | _ => s

/-! ## Link and host resets (R326) -/

/-- What a Function Level Reset, a hot reset and a loss of link share. -/
def State.hostResetAll (s : State) : State :=
  let s := s.host.queues.foldl (fun s (q, d) => if d.enabled ∧ !d.dram then s.queueDisable q else s) s
  let s := s.host.dma.foldl (fun s (n, d) => if d.busy && d.hostEnd then s.dmaError n 8 else s) s
  { s with host := { s.host with bar2 := 0, msixAddr := [], msixData := [], msixUnmasked := [], msixPend := [] } }

def execHostReset (t : Time) (kind : HostResetKind) (s : State) : Step :=
  let s := s.tick t
  if s.modeN = 0 then .next s
  else
    let s := s.hostResetAll.setn (ky 0x2101 2) 6
    match kind with
    | .linkLoss =>
      let s := { s with host := { s.host with linkUp := false } }
      let s := (s.setn (ky 0x2500 1) 0).setn (ky 0x2500 2) 0
      .next (((s.event 0xE8 0 0).setLive 20 true).fault 20 1 0 0)
    | _ => .next (s.event 0xE9 0 0)

def execPcieLinkUp (t : Time) (speed width : Nat) (s : State) : Step :=
  let s := s.tick t
  if s.modeN = 0 then .next s
  else
    let s := { s with host := { s.host with linkUp := true } }
    let s := (s.setn (ky 0x2500 1) 1).setn (ky 0x2500 2) (speed % 256 * 256 + width % 256 : Nat)
    .next ((s.event 0xE8 0 0).setLive 20 false)

end Sys2Proof.Machine
end

