-- ==== Sys2Proof/Machine/Fabric.lean ====
section
/-! DEFINITION. Azrov: links, discovery, the tree, failover, fabric time, shared line axes and stitched marks (R356 to R382). A received
frame is a command once its link has checked it and passed it on (R359, R361). -/

namespace Sys2Proof.Machine

/-! ## Ports and the view -/

/-- Fabric enable in force. -/
def State.fabricOn (s : State) : Bool := s.frcN (ky 0x2400 1) == 1 && Nat.ble 2 s.modeN

/-- Port `p` is enabled. -/
def State.portOn (s : State) (p : Nat) : Bool := s.fabricOn && bit (s.frcN (ky 0x2400 5)) p

/-- Objects of port `p`. -/
abbrev oPort (p sub : Nat) : Nat := ky (0x2401 + p) sub

/-- Ports that carry control traffic (R363). -/
def State.usable (s : State) (p : Nat) : Bool := (s.portOf p).up && !(s.portOf p).mismatch

/-- The link of port `p`: its own end and the neighbour's, as (node × 4 + port). -/
def State.linkOf (s : State) (p : Nat) : Option (Nat × Nat) :=
  (s.portOf p).nb.map (fun (n, q) => (s.node * 4 + p, n * 4 + q))

/-- The state a port shows (R381): 0 DOWN, 1 UP tree, 2 UP standby, 3 UP isolated. -/
def State.portStateOf (s : State) (p : Nat) : Nat :=
  let x := s.portOf p
  if !x.up then 0
  else match s.linkOf p with
    | none => 3
    | some l =>
      if x.mismatch ∨ s.fab.failed.contains (linkId l) then 3
      else if s.fab.tree.any (fun e => linkId e = linkId l) then 1
      else 2

/-- Port states, neighbours and nodes present as their objects show them. -/
def State.showPorts (s : State) : State :=
  let s := (List.range 4).foldl (fun s p =>
    let s := s.setn (oPort p 1) (s.portStateOf p : Nat)
    s.setn (oPort p 2) (match (s.portOf p).nb with
      | some (n, q) => if (s.portOf p).up then ((n * 256 + q : Nat) : Int) else 0xFFFF
      | none => 0xFFFF)) s
  let nodes := (s.node :: s.fab.tree.flatMap (fun (a, b) => [a / 4, b / 4])).eraseDups
  s.setn (ky 0x2400 9) ((nodes.map (fun n => 2 ^ n)).foldl (· + ·) 0 : Nat)

/-- The port list as TOPOLOGY carries it (R360). -/
def State.portList (s : State) : List TopoEntry :=
  (List.range 4).filterMap (fun p =>
    match (s.portOf p).nb with
    | some (n, q) => if (s.portOf p).up ∧ !(s.portOf p).mismatch then some ⟨p, n, q, s.portStateOf p⟩ else none
    | none => none)

/-- The payload of a TOPOLOGY frame. -/
def topoBytes (v : Nat) (l : List TopoEntry) : Bytes :=
  leBytes 4 v ++ l.flatMap (fun e => leBytes 1 e.port ++ leBytes 1 e.nbNode ++ leBytes 1 e.nbPort ++ leBytes 1 e.state)

/-- Send a control frame on every usable port but one. -/
def State.flood (s : State) (typ : Nat) (payload : Bytes) (from_ : Option Nat) (src : Nat) : State :=
  (List.range 4).foldl (fun s p => if some p = from_ ∨ !s.usable p then s else s.sendCtl p typ 0 0xFF payload (some src)) s

/-- Put a node's port list into the view; the view has changed (R364). -/
def State.setView (s : State) (x : Topo) : State :=
  { s with fab := { s.fab with view := sortOn Topo.node (x :: s.fab.view.filter (fun y => y.node != x.node)), viewT := s.now } }

/-- The view changes: the node is DISCOVERING until it has been stable for 1 ms. -/
def State.discovering (s : State) : State :=
  if s.fab.conflict then s
  else s.setn (ky 0x2400 6) (if (List.range 4).any (fun p => (s.portOf p).up) then 1 else 0)

/-- The own port list has changed: a new version is flooded (R364). -/
def State.portsChanged (s : State) : State :=
  let s := s.showPorts
  let v := s.fab.version + 1
  let l := s.portList
  let s := { s with fab := { s.fab with version := v } }
  ((s.setView ⟨s.node, v, l⟩).flood 4 (topoBytes v l) none s.node).discovering

/-! ## The tree (R364) -/

/-- The root (R364): the lowest node known to have the time-root flag, or the lowest of the view. -/
def State.rootOf (s : State) (nodes : List Nat) : Nat :=
  let own := if s.frcN (ky 0x2400 4) = 1 then [s.node] else []
  let flagged := (own ++ s.fab.roots).filter (fun n => nodes.contains n)
  (if flagged = [] then nodes else flagged).foldl min 31

/-- One level of the breadth-first tree: the link of each node not yet reached to the lowest node, then port, of the level. -/
def treeLevel (links : List (Nat × Nat)) (seen level : List Nat) (nodes : List Nat) : List (Nat × Nat) :=
  nodes.filterMap (fun n =>
    if seen.contains n then none
    else
      let c := links.flatMap (fun (a, b) =>
        (if a / 4 = n ∧ level.contains (b / 4) then [(b, a)] else []) ++ (if b / 4 = n ∧ level.contains (a / 4) then [(a, b)] else []))
      (sortOn Prod.fst c).head?)

/-- The breadth-first tree from a level on; each link as parent's end and child's end. -/
def treeFrom (links : List (Nat × Nat)) (nodes : List Nat) : Nat → List Nat → List Nat → List (Nat × Nat)
  | 0, _, _ => []
  | f + 1, seen, level =>
    let l := treeLevel links seen level nodes
    if l = [] then []
    else
      let next := l.map (fun e => e.2 / 4)
      l ++ treeFrom links nodes f (seen ++ next) next

/-- Nodes that links join to `n`. -/
def joined (links : List (Nat × Nat)) : Nat → List Nat → List Nat
  | 0, l => l
  | f + 1, l =>
    let more := links.flatMap (fun (a, b) =>
      (if l.contains (a / 4) then [b / 4] else []) ++ (if l.contains (b / 4) then [a / 4] else []))
    joined links f (l ++ more).eraseDups

/-- The root and the tree of the present view (R364). -/
def State.newTree (s : State) : Nat × List (Nat × Nat) :=
  let links := s.links
  let nodes := joined links 32 [s.node]
  let r := s.rootOf nodes
  (r, treeFrom links (sortOn id nodes) 32 [r] [r])

/-- The failover entry of a tree link (R364): the STANDBY link with the lowest lower end that joins the two parts. -/
def State.failoverEntry (s : State) (l : Nat × Nat) : Option (Nat × Nat) :=
  let rest := s.fab.tree.filter (fun e => linkId e != linkId l)
  let side := joined rest 32 [l.1 / 4]
  let stand := s.links.filter (fun e => !s.fab.tree.any (fun x => linkId x = linkId e))
  let fits := stand.filter (fun e => linkId e != linkId l && (side.contains (e.1 / 4) != side.contains (e.2 / 4)))
  (sortOn linkId fits).head?

/-! ## Stitched marks again (R376) -/

/-- After a failover or a tree change the lead sends its decisions and its pending anchors again. -/
def State.stitchResend (s : State) : State :=
  s.fab.stitches.foldl (fun s x =>
    match x.decided with
    | some go =>
      if s.count + s.goTravel x.id.casement ≤ x.deadline.getD 0 then
        s.multicast (if go then 0x12 else 0x13) (idBytes x.id) none s.node
      else s
    | none =>
      let missing := (s.participants x.id.casement).filter (fun p => !x.votes.any (fun v => v.1 = p.1 ∧ v.2.1 = p.2))
      x.anchorFrame.foldl (fun s (n, b) => if missing.any (fun p => p.1 = n) then s.unicast 0x10 n b else s) s) s

/-! ## Failover (R366) -/

/-- The ordered set FAILOVER (R357). -/
def failoverSet (l : Nat) : Bytes := 0x3C#8 :: (leBytes 2 l ++ leBytes 1 (crc8 (leBytes 2 l)))

/-- Apply a failed tree link: its failover entry joins the tree, or the fabric is partitioned. -/
def State.failLink (s : State) (id : Nat) : State :=
  match s.fab.tree.find? (fun e => linkId e = id) with
  | none => s
  | some l =>
    let again := !s.fab.failed.isEmpty || s.fab.redisc
    let e := s.failoverEntry l
    let before := (s.fab.tree.flatMap (fun (a, b) => [a / 4, b / 4])).eraseDups
    let rest := s.fab.tree.filter (fun x => linkId x != id)
    let tree := match e with
      | some x => rest ++ [x]
      | none => rest
    let s := { s with fab := { s.fab with tree := tree, failed := id :: s.fab.failed } }
    let s := (s.bump (ky 0x2400 0x0A)).event 0xD5 0x0721 id
    let lost := before.filter (fun n => !(joined tree 32 [s.node]).contains n)
    let s := if e.isNone then s.event 0xD5 0x0722 id else s
    let s := if e.isNone ∨ again then
        (s.event 0xD4 0x0715 id (leBytes 4 ((lost.map (fun n => 2 ^ n)).foldl (· + ·) 0))).discovering
      else s
    let s := if e.isNone ∨ again then { s with fab := { s.fab with viewT := s.now } } else s
    s.showPorts.stitchResend

/-- FAILOVER on every UP port but one, once per identity. -/
def State.passFailover (s : State) (id : Nat) (from_ : Option Nat) : State :=
  if s.fab.failSeen.contains id then s
  else
    let s := { s with fab := { s.fab with failSeen := id :: s.fab.failSeen } }
    let s := (List.range 4).foldl (fun s p =>
      if some p = from_ ∨ !s.usable p then s else s.send (.fabric p (failoverSet id))) s
    s.failLink id

/-- Cause code of bits 48 to 51 (R432). -/
def downCode : DownCause → Nat
  | .lock => 1
  | .codeErrors => 2
  | .noIdle => 3
  | .replay => 4

/-- A port goes DOWN (R358, R366). -/
def State.portDown (s : State) (p : Nat) (cause : DownCause) : State :=
  let x := s.portOf p
  if !x.up then s
  else
    let l := s.linkOf p
    let inTree := match l with
      | some l => s.fab.tree.any (fun e => linkId e = linkId l)
      | none => false
    let was := s.nodeState
    let s := s.setPort p { x with up := false, replay := [], since := s.now }
    let s := s.event (0xD0 + p) 0x0702 p
    let s := if cause = .replay then s.event (0xD0 + p) 0x0703 p else s
    let s := if was = 2 then (s.setLive (48 + p) true).fault (48 + p) (downCode cause) p 0 else s
    let s := match l with
      | some l => if inTree then s.passFailover (linkId l) (some p) else s
      | none => s
    s.portsChanged

def execPortUp (t : Time) (p : Fin 4) (s : State) : Step :=
  let s := s.tick t
  let x := s.portOf p
  if !s.portOn p ∨ x.up then .next s
  else
    let s := s.setPort p { FPort.init with up := true, since := t, nb := x.nb }
    .next (((s.setLive (48 + p) false).event (0xD0 + p) 0x0701 p).portsChanged)

def execPortDown (t : Time) (p : Fin 4) (cause : DownCause) (s : State) : Step :=
  .next ((s.tick t).portDown p cause)

def execFailover (t : Time) (p : Fin 4) (link : Nat) (s : State) : Step :=
  let s := s.tick t
  if !s.usable p then .next s else .next (s.passFailover link (some p.val))

def execRediscoveryStart (t : Time) (link : Nat) (s : State) : Step :=
  let s := s.tick t
  let here := (List.range 4).any (fun p =>
    (s.portOf p).up && decide ((s.portOf p).since + msT 100 ≤ t) && decide (s.linkOf p |>.any (fun l => linkId l = link)))
  if s.fab.failed.contains link ∧ here then
    let s := { s with fab := { s.fab with failed := s.fab.failed.filter (· != link), failSeen := s.fab.failSeen.filter (· != link),
                                           redisc := true } }
    .next ((s.event 0xD4 0x0714 link).portsChanged)
  else .next s

/-! ## Discovery (R363, R364) -/

/-- A second device answers to the own node ID (R363). -/
def State.enterConflict (s : State) : State :=
  if s.fab.conflict then s
  else (({ s with fab := { s.fab with conflict := true } }).setn (ky 0x2400 6) 3).event 0xD4 0x0712 s.node

/-- May a frame sent at intervals of `n` ns be sent at `t`: has the interval run since the last one of its kind? -/
def State.sendDue (s : State) (i n : Nat) (t : Time) : Bool := elapsed (s.fab.sentT.lookup i) (nsT n) t

/-- Note the sending of a frame of kind `i` at `t`. -/
def State.sentAt (s : State) (i : Nat) (t : Time) : State := { s with fab := { s.fab with sentT := tset (fun _ => 0) s.fab.sentT i t } }

/-- HELLO on every UP port, every 10 us (R363). -/
def execHelloSend (t : Time) (s : State) : Step :=
  let s := s.tick t
  if !s.fabricOn ∨ !s.sendDue 0 10000 t then .next s
  else
    let s := s.sentAt 0 t
    .next ((List.range 4).foldl (fun s p =>
      if (s.portOf p).up then
        s.sendCtl p 3 0 0xFF (leBytes 2 (s.frcN (ky 0x2400 3)) ++ leBytes 1 p ++ leBytes 1 (s.frcN (ky 0x2400 4))
          ++ leBytes 8 (s.nat (ky 0x2000 5)))
      else s) s)

/-- What HELLO says of the neighbour of port `p` (R363). -/
def State.hello (s : State) (p src fabric nbPort : Nat) (root : Bool) (serial : Nat) : State :=
  let x := s.portOf p
  if fabric ≠ s.frcN (ky 0x2400 3) then
    if x.mismatch then s
    else ((s.setPort p { x with mismatch := true, nb := some (src, nbPort) }).event (0xD0 + p) 0x0704 p).portsChanged
  else
    let s := if src = s.node ∧ serial ≠ s.nat (ky 0x2000 5) then s.enterConflict else s
    let roots := (if root then [src] else []) ++ s.fab.roots.filter (· != src)
    let s := { s with fab := { s.fab with roots := roots } }
    if x.nb = some (src, nbPort) ∧ !x.mismatch ∧ s.fab.view.any (fun v => v.node = s.node ∧
        v.entries.any (fun e => e.port = p ∧ e.nbNode = src ∧ e.nbPort = nbPort)) then s
    else (s.setPort p { x with nb := some (src, nbPort), mismatch := false }).portsChanged

def execHello (t : Time) (p : Fin 4) (seq : Nat) (src : Nat) (fabric : Nat) (nbPort : Nat) (root : Bool) (serial : Nat) (s : State) : Step :=
  .next ((s.tick t).linkIn p seq (fun s => s.hello p src fabric nbPort root serial))

/-- TOPOLOGY of another node: a newer one enters the view and is flooded (R364). -/
def State.topology (s : State) (p src version : Nat) (entries : List TopoEntry) : State :=
  if !s.usable p then s
  else if src = s.node then (if s.fab.version < version then s.enterConflict else s)
  else if s.fab.view.any (fun v => v.node = src ∧ version ≤ v.version) then s
  else
    let s := s.setView ⟨src, version, entries⟩
    let back := entries.filterMap (fun e =>
      if e.state = 1 ∨ e.state = 2 then some (linkId (src * 4 + e.port, e.nbNode * 4 + e.nbPort)) else none)
    let own := (List.range 4).filterMap (fun q => (s.linkOf q).map linkId)
    let failed := s.fab.failed.filter (fun l => own.contains l || !back.contains l)
    let s := { s with fab := { s.fab with failed := failed, redisc := s.fab.redisc || failed != s.fab.failed } }
    (s.flood 4 (topoBytes version entries) (some p) src).discovering

def execTopology (t : Time) (p : Fin 4) (seq : Nat) (src : Nat) (version : Nat) (entries : List TopoEntry) (s : State) : Step :=
  .next ((s.tick t).linkIn p seq (fun s => s.topology p src version entries))

/-- Schedule a tree (R364). -/
def State.stageTree (s : State) (version applyTime root epoch : Nat) : State :=
  { s with fab := { s.fab with staged := some (version, applyTime, root, epoch) } }

/-- The payload of a TREE frame. -/
def treeBytes (version applyTime root epoch : Nat) : Bytes :=
  leBytes 4 version ++ leBytes 8 applyTime ++ leBytes 1 root ++ leBytes 1 epoch

def execViewStable (t : Time) (s : State) : Step :=
  let s := s.tick t
  if s.nodeState ≠ 1 ∨ t < s.fab.viewT + msT 1 then .next s
  else
    let s := (s.setn (ky 0x2400 6) 2).event 0xD4 0x0711 s.node
    let (r, _) := s.newTree
    if r ≠ s.node then .next s
    else
      let old := s.nat (ky 0x2400 7)
      let epoch := if old / 256 = r then old % 256 else (old + 1) % 256
      let v := s.fab.treeVersion + 1
      let at_ := (wrapU 64 (s.ftime + 200000)).toNat
      .next ((s.flood 5 (treeBytes v at_ r epoch) none s.node).stageTree v at_ r epoch)

/-- A newer TREE is passed on and staged (R364). -/
def State.treeIn (s : State) (p version applyTime root epoch : Nat) : State :=
  let seen : Bool := match s.fab.staged with
    | some (v, _, r, _) => decide (r = root ∧ version ≤ v)
    | none => decide (s.nat (ky 0x2400 7) / 256 = root ∧ version ≤ s.fab.treeVersion)
  if !s.usable p || seen then s
  else (s.flood 5 (treeBytes version applyTime root epoch) (some p) root).stageTree version applyTime root epoch

def execTree (t : Time) (p : Fin 4) (seq : Nat) (version : Nat) (applyTime : Nat) (root : Nat) (epoch : Nat) (s : State) : Step :=
  .next ((s.tick t).linkIn p seq (fun s => s.treeIn p version applyTime root epoch))

def execTreeApply (t : Time) (s : State) : Step :=
  let s := s.tick t
  match s.fab.staged with
  | none => .next s
  | some (v, at_, r, epoch) =>
    if s.ftime < (at_ : Int) then .next s
    else
      let old := s.nat (ky 0x2400 7)
      let s := { s with fab := { s.fab with staged := none, treeVersion := v, tree := s.newTree.2, failSeen := s.fab.failed,
                                                   redisc := false } }
      let s := s.setn (ky 0x2400 7) (r * 256 + epoch : Nat)
      let s := if r = s.node then s.setn (ky 0x2400 8) 0 else s
      let s := if old / 256 = r then s else s.event 0xD7 0x0741 r
      .next s.showPorts.stitchResend

/-! ## Acknowledgement (R361) -/

/-- Send the frame `seq` of port `p` again; the fourth failed sending takes the port DOWN. -/
def State.resendFrame (s : State) (p seq : Nat) : State :=
  let x := s.portOf p
  match x.replay.find? (fun f => f.seq = seq ∧ f.tries ≠ 0) with
  | none => s
  | some f =>
    if 4 ≤ f.tries then s.portDown p .replay
    else
      let x := { x with replay := x.replay.map (fun g => if g.seq = seq then { g with tries := g.tries + 1, at_ := s.now } else g) }
      ((s.setPort p x).bumpPart (oPort p 4) 15 0).send (.fabric p f.frame)

def execAck (t : Time) (p : Fin 4) (seq : Nat) (s : State) : Step :=
  let s := s.tick t
  let x := s.portOf p
  .next ((s.setPort p { x with replay := x.replay.filter (fun f => !(decide (f.seq = seq ∧ f.tries ≠ 0))) }).portFlush p)

def execNak (t : Time) (p : Fin 4) (seq : Nat) (s : State) : Step := .next ((s.tick t).resendFrame p seq)

def execReplayTimeout (t : Time) (p : Fin 4) (s : State) : Step :=
  let s := s.tick t
  match (s.portOf p).replay.find? (fun f => f.tries ≠ 0 ∧ f.at_ + usT 2 ≤ t) with
  | some f => .next (s.resendFrame p f.seq)
  | none => .next s

/-! ## Fabric time (R367) -/

/-- Does the tree path to the root leave through port `p`: is this node the child on that link? -/
def State.childOn (s : State) (p : Nat) : Bool :=
  let root := s.nat (ky 0x2400 7) / 256
  s.fabricOn && root != s.node && s.hop root == some p

/-- The child of a tree link starts an exchange every 100 us (R367); the time stamps travel in 0.1 ns. -/
def execTimeSyncSend (t : Time) (p : Fin 4) (s : State) : Step :=
  let s := s.tick t
  if s.childOn p ∧ s.sendDue (1 + p) 100000 t then
    .next ((s.sentAt (1 + p) t).sendCtl p 2 0 0xFF (leBytes 8 (wrapU 64 (10 * s.dev)).toNat ++ leBytes 8 0 ++ leBytes 8 0))
  else .next s

/-- A TIME_SYNC frame (R367): the child of the link takes the exchange, the parent answers with the time stamps so far. `t1` to `t4` in
0.1 ns, `t2` and `t4` before the own port's effective receive latency is removed where this node stamped them, `foffParent` in ns. -/
def State.timeSync (s : State) (p : Nat) (t1 t2 t3 t4 foffParent : Int) : State :=
  let lat := s.num (oPort p 0x30)
  if s.childOn p then
    let delay := tdiv ((t4 - lat - t1) - (t3 - t2)) 2
    let new := foffParent + tdiv (t2 - t1 - delay) 10
    let foff := s.num (ky 0x2400 8)
    (s.setn (oPort p 3) (wrapU 32 delay)).setn (ky 0x2400 8) (foff + asr (new - foff) 3)
  else if s.fabricOn ∧ s.portStateOf p = 1 then
    s.sendCtl p 2 0 0xFF (leBytes 8 (wrapU 64 t1).toNat ++ leBytes 8 (wrapU 64 (t2 - lat)).toNat ++ leBytes 8 (wrapU 64 t3).toNat)
  else s

def execTimeSync (t : Time) (p : Fin 4) (seq : Nat) (t1 t2 t3 t4 foffParent : Int) (s : State) : Step :=
  .next ((s.tick t).linkIn p seq (fun s => s.timeSync p t1 t2 t3 t4 foffParent))

/-! ## Shared line axes (R368 to R370) -/

/-- The status byte of a POSITION frame (R360). -/
def State.posStatus (s : State) (k : Nat) : Nat :=
  let st := s.laxStatus k
  b2n (bit st 0) + 2 * b2n (bit st 6) + 4 * b2n (bit st 1) + 8 * b2n (bit st 4)

/-- The payload of a POSITION frame. -/
def posBytes (slot axis status epoch ftime : Nat) (pos vel : Int) : Bytes :=
  leBytes 1 slot ++ leBytes 1 axis ++ leBytes 1 status ++ leBytes 1 epoch ++ leBytes 4 0 ++ leBytes 8 ftime
    ++ leBytes 8 (wrapU 64 pos).toNat ++ leBytes 8 (wrapU 64 vel).toNat

/-- A POSITION frame on every tree link but one; none from a node in CONFLICT (R363). -/
def State.sendPos (s : State) (src seq : Nat) (b : Bytes) (from_ : Option Nat) : State :=
  if s.fab.conflict then s
  else s.treePorts.foldl (fun s (p, _) => if some p = from_ then s else s.send (.fabric p (azFrame 1 1 src 0xFF seq b))) s

/-- The POSITION frame of an exported slot, every 1 us (R368). -/
def execPositionSend (t : Time) (j : Fin 8) (s : State) : Step :=
  let s := s.tick t
  let k := s.frcN (ky (0x2408 + j) 1)
  if !s.fabricOn ∨ 31 < k ∨ s.fab.conflict ∨ s.fab.slotConflict.contains j.val ∨ s.treePorts = []
      ∨ !s.sendDue (8 + j) 1000 t then .next s
  else
    let seq := tget (fun _ => 0) s.fab.slotSeq j
    let b := posBytes j k (s.posStatus k) (s.nat (ky 0x2400 7) % 256) (wrapU 64 s.ftime).toNat (s.laxPos k t) (s.laxVf 33 k)
    let s := { s with fab := { s.fab with slotSeq := tset (fun _ => 0) s.fab.slotSeq j ((seq + 1) % 65536) } }
    .next ((s.sentAt (8 + j) t).sendPos s.node seq b none)

/-- A POSITION frame discarded (R369): counted, with the first event per slot per second. -/
def State.discardPos (s : State) (slot : Nat) (t : Time) : State :=
  let s := if slot < 8 then s.bump (ky (0x2408 + slot) 2) else s
  let last := tget (fun _ => 0) s.fab.discardT slot
  if last = 0 ∨ last + secT 1 ≤ t then
    ({ s with fab := { s.fab with discardT := tset (fun _ => 0) s.fab.discardT slot t } }).event 0xD7 0x0742 slot
  else s

/-- Line axes that follow source `inst`. -/
def State.followers (s : State) (inst : Nat) : List Nat :=
  (List.range 32).filter (fun k => s.laxTakes k 3 inst)

/-- An accepted frame on a line axis that follows it (R369). -/
def State.takePos (s : State) (k : Nat) (f : PosFrame) : State :=
  let x := s.laxOf k
  let tb := s.monoOf (f.ftime - s.num (ky 0x2400 8))
  let st := [(1, 2), (4, 3), (6, 1)].foldl (fun st (i, j) => putBit st i (bit f.status j)) x.st
  let x := x.at32 (f.pos * step32 + x.foff)
  s.setLax k { x with tk := tb, vf := f.vel, vraw := f.vel, st := st }

def execPosition (t : Time) (p : Fin 4) (f : PosFrame) (s : State) : Step :=
  let s := s.tick t
  if !s.fabricOn ∨ s.portStateOf p ≠ 1 then .next s
  else
    let b := posBytes f.slot f.axis f.status f.epoch f.ftime f.pos f.vel
    let s := s.sendPos f.src f.seq b (some p.val)
    let clash := f.src ≠ s.node ∧ f.slot < 8 ∧ s.frcN (ky (0x2408 + f.slot) 1) ≤ 31 ∧ !s.fab.slotConflict.contains f.slot
    let s := if clash then
        ({ s with fab := { s.fab with slotConflict := f.slot :: s.fab.slotConflict } }).event 0xD4 0x0713 f.slot
      else s
    let inst := f.src * 32 + f.axis
    let last := tget (fun _ => 65536) s.fab.axisSeq inst
    let fresh := last = 65536 ∨ 0 < wrapS 16 ((f.seq : Int) - last)
    if f.epoch ≠ s.nat (ky 0x2400 7) % 256 ∨ !fresh then .next (s.discardPos f.slot t)
    else
      let fb := s.fab
      let s := { s with fab := { fb with
        axisSeq := tset (fun _ => 65536) fb.axisSeq inst (f.seq % 65536)
        axisT := tset (fun _ => 0) fb.axisT inst t
        axisTb := tset (fun _ => 0) fb.axisTb inst ((f.ftime : Int) - s.num (ky 0x2400 8))
        poss := tset (fun _ => 0) fb.poss inst f.pos
        vels := tset (fun _ => 0) fb.vels inst f.vel } }
      .next ((s.followers inst).foldl (fun s k => if bit f.status 0 then s.takePos k f else s.sourceFault k t) s)

def execPositionLossTimeout (t : Time) (k : Fin 32) (s : State) : Step :=
  let s := s.tick t
  let x := s.laxOf k
  if x.kind = 3 ∧ s.sourceFaulty k ∧
      max x.ownT (tget (fun _ => 0) s.fab.axisT x.inst) + usT (s.nat (ky 0x2410 1)) ≤ t then .next (s.sourceFault k t)
  else .next s

/-! ## Stitched marks (R371 to R377) -/

/-- Does casement `c`'s line axis follow reference `ref` (R371)? -/
def State.followsRef (s : State) (c ref : Nat) : Bool :=
  let k := s.casAxis c
  let x := s.laxOf k
  decide (s.node * 32 + k = ref) || decide (x.kind = 3 ∧ x.inst = ref)

/-- Has the GO deadline of a start position passed on casement `c` (R74)? -/
def State.goPassed (s : State) (c : Nat) (s0 : Int) : Bool :=
  let k := s.casAxis c
  decide (sdiff s0 (s.laxPos k s.now) * 65536 ≤ s.laxVf 33 k * 51)

/-- ANCHOR on one participant casement (R372); a repeated one is ignored. -/
def State.takeAnchor (s : State) (c : Nat) (id : MarkId) (ref : Nat) (aref : Int) (ftime template tag : Nat) : State :=
  let x := s.casOf c
  if (x.pend ++ x.opened).any (fun m => m.stitch = some id) then s
  else
    let a := wrapS 64 (aref + s.axisOffset c)
    if !s.followsRef c ref || s.goPassed c (wrapS 64 (a + s.num (oCas c 0 4))) then
      (s.bumpPart (oStitch c 0x13) 15 0).event 0xD6 0x0734 c
    else s.capture c (.fabric id) a (s.monoOf (ftime - s.num (ky 0x2400 8))) none (some id) (some (template, tag))

/-- ANCHOR for node `dst`: passed on along the tree, or taken by the participant casements (R365, R372). -/
def State.anchorIn (s : State) (p dst : Nat) (id : MarkId) (ref : Nat) (aref : Int) (ftime template tag : Nat) : State :=
  if s.portStateOf p ≠ 1 then s
  else if dst ≠ s.node then s.unicast 0x10 dst (anchorBytes id ref aref ftime template tag) (some id.node)
  else if !s.captures then s
  else (List.range 48).foldl (fun s c =>
      if s.role c = 2 ∧ s.nat (oCas c 0 1) = 3 then (s.anchorFirst c s.now).takeAnchor c id ref aref ftime template tag else s) s

def execAnchor (t : Time) (p : Fin 4) (seq : Nat) (dst : Nat) (id : MarkId) (ref : Nat) (aref : Int) (ftime : Nat) (template tag : Nat)
    (s : State) : Step :=
  .next ((s.tick t).linkIn p seq (fun s => s.anchorIn p dst id ref aref ftime template tag))

/-- VOTE: entered at the lead, passed on elsewhere (R365, R373). -/
def State.voteIn (s : State) (p : Nat) (id : MarkId) (src cas : Nat) (yes : Bool) (items deadline : Nat) : State :=
  if s.portStateOf p ≠ 1 then s
  else if id.node = s.node then s.addVote id src cas yes deadline
  else s.unicast 0x11 id.node (idBytes id ++ leBytes 1 (b2n (!yes)) ++ leBytes 1 0 ++ leBytes 2 (items % 512) ++ leBytes 8 deadline) (some src)

def execVoteReceive (t : Time) (p : Fin 4) (seq : Nat) (id : MarkId) (src : Nat) (cas : Nat) (yes : Bool) (items : Nat) (deadline : Nat)
    (s : State) : Step :=
  .next ((s.tick t).linkIn p seq (fun s => s.voteIn p id src cas yes items deadline)).takeCommands

def execVoteCutoff (t : Time) (c : Fin 48) (s : State) : Step :=
  let s := s.tick t
  match s.fab.stitches.find? (fun x => x.id.casement = c.val ∧ x.decided.isNone ∧
      (x.deadline.any (fun d => decide (d - s.goTravel c < s.count)))) with
  | none => .next s
  | some x =>
    let missing := (s.members c).filter (fun q => !x.votes.any (fun v => v.1 = q.1 ∧ v.2.1 = q.2))
    if missing = [] then .next (s.stitchTest x.id).takeCommands
    else .next (((s.bumpBy (oStitch c 0x11) missing.length).event 0xD6 0x0731 c).stitchDecide x false).takeCommands

/-- A mark that waits for GO is refused at its deadline (R74). -/
def State.expire (s : State) (c : Nat) (m : Mark) : State :=
  let s := match m.stitch with
    | some id => { s with fab := { s.fab with expired := (c, id) :: s.fab.expired } }
    | none => s
  s.refuse c m (m.fails ||| 512)

def execGoDeadline (t : Time) (c : Fin 48) (s : State) : Step :=
  let s := s.tick t
  match (s.casOf c).pend.find? (fun m => m.stitch.isSome ∧ m.vote.isSome) with
  | some m => if s.role c = 2 ∧ s.goPassed c m.s0 then .next ((s.expire c m).takeCommand c) else .next s
  | none => .next s

/-- A GO that comes after the deadline (R375). -/
def State.goLate (s : State) (c : Nat) (id : MarkId) : State :=
  let s := { s with fab := { s.fab with expired := s.fab.expired.filter (fun e => e != (c, id)) } }
  (s.bumpPart (oStitch c 0x13) 31 16).event 0xD6 0x0733 c

/-- GO or ABORT at this device (R374, R375). -/
def State.decisionIn (s : State) (id : MarkId) (go : Bool) : State :=
  (List.range 48).foldl (fun s c =>
    match (s.casOf c).pend.find? (fun m => m.stitch = some id ∧ m.vote.isSome) with
    | some m => if go && s.goPassed c m.s0 then (s.expire c m).goLate c id else s.stitchEnd c id go
    | none => if go && s.fab.expired.contains (c, id) then s.goLate c id else s) s

/-- GO or ABORT of another lead: passed on on the tree, and acted on here (R365, R375). -/
def State.decisionFrame (s : State) (p : Nat) (id : MarkId) (go : Bool) : State :=
  if s.portStateOf p ≠ 1 ∨ id.node = s.node then s
  else (s.multicast (if go then 0x12 else 0x13) (idBytes id) (some p) id.node).decisionIn id go

def execGo (t : Time) (p : Fin 4) (seq : Nat) (id : MarkId) (s : State) : Step :=
  .next ((s.tick t).linkIn p seq (fun s => s.decisionFrame p id true)).takeCommands

def execAbort (t : Time) (p : Fin 4) (seq : Nat) (id : MarkId) (s : State) : Step :=
  .next ((s.tick t).linkIn p seq (fun s => s.decisionFrame p id false)).takeCommands

/-- REPORT: entered at the lead, passed on elsewhere (R365, R377). -/
def State.reportIn (s : State) (p : Nat) (id : MarkId) (src cas flags late : Nat) : State :=
  if s.portStateOf p ≠ 1 then s
  else if id.node ≠ s.node then
    s.unicast 0x14 id.node (idBytes id ++ leBytes 1 cas ++ leBytes 1 0 ++ leBytes 4 flags ++ leBytes 2 late ++ leBytes 2 0) (some src)
  else match s.stitchOf id with
    | none => s
    | some x =>
      let x := { x with reports := (src, cas) :: x.reports
                        bad := x.bad || bit flags 15 || bit flags 11 || decide (s.leadTolerance id < late) }
      let s := s.setStitch x
      if x.closed && s.allReported id.casement id then
        { s with fab := { s.fab with stitches := s.fab.stitches.filter (fun y => y.id != id) } }
      else s.leadTry id

def execReport (t : Time) (p : Fin 4) (seq : Nat) (id : MarkId) (src : Nat) (cas : Nat) (flags : BitVec 32) (late : Nat) (s : State) : Step :=
  .next ((s.tick t).linkIn p seq (fun s => s.reportIn p id src cas flags.toNat late))

/-- The product of a stitched mark reaches the reject position less the report margin with reports missing (R75, R377). -/
def State.reportMissing (s : State) (c : Nat) (x : Stitch) : State :=
  let n := ((s.participants c).filter (fun p => !x.reports.contains p)).length
  let s := (s.bumpBy (oStitch c 0x14) n).event 0xD6 0x0735 c
  let y := s.casOf c
  match y.closing.find? (fun m => m.stitch = some x.id) with
  | some m => s.leadFinish c m true
  | none =>
    let s := match y.opened.find? (fun m => m.stitch = some x.id) with
      | some m =>
        let (f, s) := s.rejectTag c m.key m.a true
        let y := s.casOf c
        s.setCasement c { y with opened := y.opened.map (fun (o : Mark) =>
          if o.order = m.order then { o with flags := o.flags ||| 32 ||| f } else o) }
      | none => s
    { s with fab := { s.fab with stitches := s.fab.stitches.filter (fun z => z.id != x.id) } }

def execReportMarginReached (t : Time) (c : Fin 48) (s : State) : Step :=
  let s := s.tick t
  let n := s.nat (oCas c 0 0x0B)
  let p := s.laxPos (s.nat (oRej n 2)) t
  match s.fab.stitches.find? (fun x => x.id.casement = c.val ∧ !s.allReported c x.id) with
  | none => .next s
  | some x =>
    if n < 8 ∧ 0 ≤ sdiff p (wrapS 64 (x.a + s.num (oRej n 3) - s.num (oRej n 6))) then .next (s.reportMissing c x) else .next s

/-! ## The 1 us update -/

def execLineAxisUpdate (t : Time) (k : Fin 32) (s : State) : Step :=
  let s := s.tick t
  if s.modeN ≤ 1 ∨ t < (s.laxOf k).upT + usT 1 then .next s
  else
    let s := s.laxUpdate k t
    .next (s.fab.stitches.foldl (fun s x => if s.casAxis x.id.casement = k.val then s.stitchTest x.id else s) s).takeCommands

end Sys2Proof.Machine
end

