-- ==== Sys2Proof/Machine/Boot.lean ====
section
/-! DEFINITION. Calibration layers (R333), the start of the one-time memory (R404, R412), firmware images and their selection (R410 to
R414, R416) and the contents of the persistent store (R334 to R336). -/

namespace Sys2Proof.Machine

/-! ## Calibration layers (R333) -/

/-- The effective range of a calibrated object by its block and its n: whether it is a gain, and the clamp. -/
def calRange (base n : Nat) : Option (Bool × Int × Int) :=
  match base, n with
  | 0x4801, 0 | 0x4801, 1 => some (false, -2048, 2048)
  | 0x4801, 2 | 0x4801, 3 => some (true, 8192, 32768)
  | 0x4801, 4 => some (false, -500, 500)
  | 0x2303, 0 => some (false, -400, 400)
  | 0x3800, 0 => some (false, 0, 31)
  | 0x2600, 0 | 0x2610, 0 => some (false, -64, 64)
  | 0x2600, 1 | 0x2610, 1 => some (true, 14746, 18022)
  | 0x2401, 0 => some (false, -2000, 2000)
  | _, _ => none

/-- The effective value of a calibrated object from its factory value and its user trim; a factory gain of 0 is taken as 16,384 (R403). -/
def State.recal (s : State) (idx base n : Nat) : State :=
  let f := s.num (ky idx (0x10 + n))
  let u := s.num (ky idx (0x20 + n))
  match calRange base n with
  | some (true, lo, hi) =>
    let f := if f = 0 then 16384 else f
    s.setn (ky idx (0x30 + n)) (clampLH lo hi (asr (f * (16384 + u)) 14))
  | some (false, lo, hi) => s.setn (ky idx (0x30 + n)) (clampLH lo hi (f + u))
  | none => s

/-- Every calibrated object: index, block, n, and its factory value in the one-time rows (R403); that of a failed row is 0 (R333). -/
def State.calObjects (s : State) : List (Nat × Nat × Nat × Int) :=
  let gain (row g : Nat) : Int := if g = 0 ∧ (otpDecode (s.otpShadow row)).2 ≠ 2 then 16384 else g
  (List.range 16).flatMap (fun e =>
      let r := s.otpVal (0x040 + 3 * e)
      let g := s.otpVal (0x041 + 3 * e)
      let p := s.otpVal (0x042 + 3 * e)
      let i := 0x4801 + 0x10 * e
      [(i, 0x4801, 0, wrapS 12 (bits r 11 0)), (i, 0x4801, 1, wrapS 12 (bits r 23 12)), (i, 0x4801, 2, gain (0x041 + 3 * e) (bits g 15 0)),
       (i, 0x4801, 3, gain (0x041 + 3 * e) (bits g 31 16)), (i, 0x4801, 4, wrapS 11 (bits p 10 0))])
  ++ (List.range 24).flatMap (fun j =>
      let r := s.otpVal (0x070 + j)
      let i := if j < 16 then 0x2600 + j else 0x2610 + (j - 16)
      let b := if j < 16 then 0x2600 else 0x2610
      [(i, b, 0, wrapS 8 (bits r 7 0)), (i, b, 1, gain (0x070 + j) (bits r 31 16))])
  ++ (List.range 192).map (fun i =>
      (0x3800 + 8 * i, 0x3800, 0, ((bits (s.otpVal (0x088 + i / 6)) (5 * (i % 6) + 4) (5 * (i % 6)) : Nat) : Int)))
  ++ [(0x2303, 0x2303, 0, wrapS 10 (bits (s.otpVal 0x0A8) 9 0))]
  ++ (List.range 4).map (fun p =>
      (0x2401 + p, 0x2401, 0, wrapS 16 (bits (s.otpVal (0x0A9 + p / 2)) (16 * (p % 2) + 15) (16 * (p % 2)))))

/-! ## The start of the one-time memory -/

/-- The array read into the shadow with the redirection applied (R404). -/
def State.otpShadowLoad (s : State) : State :=
  let rows := (s.otp.array.map Prod.fst).filter (fun r => decide (r < 0x400)) ++ s.otp.redirect
  { s with otp := { s.otp with shadow := rows.foldl (fun m r => tset (fun _ => 0) m r (s.otpRaw r)) [] } }

/-- The ECC rows of the shadow that hold anything. -/
def State.otpEccRows (s : State) : List Nat :=
  (s.otp.shadow.map Prod.fst).filter (fun r => otpCopies r = [] && !otpProtected r)

/-- Identity, lifecycle, policy and keys from the shadow, with the integrity failures of R412. -/
def State.otpLoad (s : State) : State :=
  let s := s.otpShadowLoad
  let bad := s.otpEccRows.filter (fun r => decide (r < 0x200) && (otpDecode (s.otpShadow r)).2 == 2)
  let fixed := s.otpEccRows.filter (fun r => (otpDecode (s.otpShadow r)).2 == 1)
  let split := (s.otp.shadow.map Prod.fst).filter (fun r => match otpCopies r with
    | [a, b, c] => r == a && !(s.otpShadow a == s.otpShadow b && s.otpShadow b == s.otpShadow c)
    | _ => false)
  let s := { s with otp := { s.otp with corrected := s.otp.corrected + fixed.length, disagree := s.otp.disagree + split.length
                                        revoked := s.otpVal 0x01C % 16 } }
  let s := (s.setn (ky 0x2000 1) (s.otpVal 0 % 65536 : Nat)).setn (ky 0x2000 2) (s.otpVal 0 / 65536 : Nat)
  let s := if s.otpShadow 1 = 0 then s else s.setv (ky 0x2000 3) (.str (leBytes 2 (s.otpVal 1)))
  let s := (s.setn (ky 0x2000 5) (s.otpNum 2 2 : Nat)).setn (ky 0x1018 1) (s.otpVal 0 % 65536 : Nat)
  let s := [0, 1].foldl (fun s i => s.setn (ky (0x2068 + i) 3) ((s.otpNum 4 2 + i) % 2 ^ 48 : Nat)) s
  let s := ((s.setn (ky 0x2620 1) (s.otpLifecycle : Nat)).setn (ky 0x2620 2) (s.otpVal 0x013 % 2 : Nat)).setn (ky 0x2620 5)
    (s.otpSecurity : Nat)
  let s := (s.setn (ky 0x2620 3) (match bad with
    | [] => 0
    | r :: _ => (bad.length * 65536 + r : Nat))).setn (ky 0x2620 4) (s.otp.redirect.length : Nat)
  let s := s.calObjects.foldl (fun s (i, _, n, v) => s.setn (ky i (0x10 + n)) v) s
  bad.foldl (fun s r => (s.event 0xFE 0x0C11 0).fault 44 1 0 r) s

/-- Does RESTRICT hold the device in CONFIGURE (R412)? -/
def State.restricted (s : State) : Bool := s.nat (ky 0x2620 2) == 1 && s.nat (ky 0x2620 3) != 0

/-- The check of each Notary slot at start-up (R146, R412). -/
def State.notaryStart (s : State) : State :=
  (List.range 8).foldl (fun s k =>
    let b := 0x100 + 0x20 * k
    let (x, y) := publicKey (s.slotScalar k)
    let failed := (List.range 8).any (fun i => (otpDecode (s.otpShadow (b + 8 + i))).2 == 2)
    let live := decide (s.otpSlot k = 1)
    let bad := live && (failed || beNat (keyDigest x y) != s.otpNum (b + 8) 8)
    let s := if live then s.showKey k else s
    let s := if bad ∨ s.restricted then (s.setn (ky (0x5210 + k) 1) 3).event 0xF7 0x0A21 k [3#8]
      else s.setn (ky (0x5210 + k) 1) (s.otpSlot k : Nat)
    if bad then s.fault 27 1 k 0 else s) s

/-! ## Images (R410, R411) -/

/-- Flash address of slot A, B or the recovery slot (R409). -/
def slotBase (n : Nat) : Nat := 0x00100000 + 0x01000000 * n

/-- Bytes [i, i + n) of a header are all 0. -/
def zeroAt (h : Bytes) (i n : Nat) : Bool := (sliceB h i n).all (· = 0#8)

/-- Is firmware key `k`'s digest blank or unreadable (R411, R412)? -/
def State.keyBlank (s : State) (k : Nat) : Bool :=
  s.otpNum (0x020 + 8 * k) 8 == 0 || (List.range 8).any (fun i => (otpDecode (s.otpShadow (0x020 + 8 * k + i))).2 == 2)

/-- The checks of R411 on an image of at most `len` bytes that `rd` reads; `slot` adds check 8. -/
def State.imageCheck (s : State) (rd : Nat → Nat → Bytes) (len : Nat) (slot : Bool) : Nat :=
  let h := rd 0 4096
  let body := fieldLE h 0x10 4
  let x := sliceB h 0x38 32
  let y := sliceB h 0x58 32
  let k := fieldLE h 6 1
  let r := beNat (sliceB h 0x1C0 32)
  let q := beNat (sliceB h 0x1E0 32)
  if fieldLE h 0 4 ≠ 0x4946444B ∨ fieldLE h 4 2 ≠ 1 ∨ !zeroAt h 7 1 ∨ !zeroAt h 0x14 4 ∨ !zeroAt h 0x78 328 ∨ !zeroAt h 0x200 3328 then 1
  else if body % 64 ≠ 0 ∨ body < 64 ∨ 16773120 < body ∨ len < 4096 + body then 2
  else if s.lifecycle ≠ 0 ∧ (4 ≤ k ∨ s.keyBlank k ∨ bit s.otp.revoked k ∨ beNat (keyDigest x y) ≠ s.otpNum (0x020 + 8 * k) 8) then 3
  else if r = 0 ∨ ecN ≤ r ∨ q = 0 ∨ ecN ≤ q ∨ !onCurve (beNat x) (beNat y) ∨
    !ecdsaVerify (beNat x) (beNat y) (sliceB h 0 0x1C0) r q then 4
  else if sha256 (rd 0x1000 body) ≠ sliceB h 0x18 32 then 5
  else if fieldLE h 0xC 4 < s.nat (ky 0x2620 5) then 6
  else if slot ∧ fieldLE h 0xF10 4 ≠ 0x4B4F4E43 ∧ !(sliceB h 0xF00 3).contains 255#8 then 8
  else 0

/-- The check of a flash slot. -/
def State.slotCheck (s : State) (n : Nat) : Nat :=
  s.imageCheck (fun i m => s.flashRead (slotBase n + i) m) 16777216 true

/-- Is a flash slot confirmed (R410)? -/
def State.slotConfirmed (s : State) (n : Nat) : Bool := leNat (s.flashRead (slotBase n + 0xF10) 4) == 0x4B4F4E43

/-- The image a header describes, started now. -/
def State.imageOf (s : State) (slot : Nat) (h : Bytes) (confirmed : Bool) : Image :=
  ⟨slot, fieldLE h 8 4, fieldLE h 0xC 4, fieldLE h 6 1, confirmed, s.now⟩

/-- The slots object (0x2625:06) and the firmware version that show the image in place. -/
def State.showSlots (s : State) : State :=
  let slot := (s.otp.image.map Image.slot).getD 3
  let trial := match s.otp.image with
    | some i => !i.confirmed && decide (i.slot ≤ 2)
    | none => false
  let flags (n code : Nat) : Nat := b2n (code == 0) + 2 * b2n (s.slotConfirmed n)
  (s.setn (ky 0x2625 6) (slot + 4 * b2n trial + 256 * flags 0 s.otp.codeA + 65536 * flags 1 s.otp.codeB : Nat)).setn (ky 0x2000 4)
    (((s.otp.image.map Image.fw).getD 0) : Nat)

/-- Start flash slot `n`; a slot A or B that is unconfirmed first uses a trial byte (R413). -/
def State.startSlot (s : State) (n : Nat) : State :=
  let b := slotBase n
  let c := s.slotConfirmed n
  let s := if c ∨ n = 2 then s
    else match (List.range 3).find? (fun i => s.flashRead (b + 0xF00 + i) 1 = [255#8]) with
      | some i => (s.flashWrite (b + 0xF00 + i) [0#8]).event 0xFE 0x0C22 0
      | none => s
  { s with otp := { s.otp with image := some (s.imageOf n (s.flashRead b 512) c) } }

/-- Image selection under the straps (R409, R413). -/
def State.selectImage (s : State) : State :=
  let rejected (s : State) (c : Nat) : State := if c = 0 then s else s.event 0xFE 0x0C21 0
  let recovery (s : State) : State :=
    let c := s.slotCheck 2
    let s := rejected { s with otp := { s.otp with codeR := c } } c
    if c = 0 then s.startSlot 2 else { s with otp := { s.otp with image := none, hostBoot := true } }
  let s := { s with otp := { s.otp with codeA := 0, codeB := 0, codeR := 0, hostBoot := false } }
  let s := match s.otp.straps % 4 with
    | 0 =>
      let a := s.slotCheck 0
      let b := s.slotCheck 1
      let s := rejected (rejected { s with otp := { s.otp with codeA := a, codeB := b } } a) b
      let act (n : Nat) : Nat := leNat (s.flashRead (slotBase n + 0xF14) 4)
      if a = 0 ∧ b = 0 then
        let (x, s) := if act 0 = act 1 then s.free 1 else (if act 0 < act 1 then 1 else 0, s)
        s.startSlot (x % 2)
      else if a = 0 then (if b = 8 then s.event 0xFE 0x0C24 0 else s).startSlot 0
      else if b = 0 then (if a = 8 then s.event 0xFE 0x0C24 0 else s).startSlot 1
      else recovery s
    | 1 => recovery s
    | 2 => { s with otp := { s.otp with image := none, hostBoot := true } }
    | _ => { s with otp := { s.otp with image := none } }
  s.showSlots

/-- BOOT_STATUS (R415). -/
def State.bootStatus (s : State) : Nat :=
  s.otp.straps % 8 * 16777216 + s.otp.codeR % 16 * 1048576 + s.otp.codeB % 16 * 65536 + s.otp.codeA % 16 * 4096
    + s.nat (ky 0x2625 6) % 8

/-! ## Updates (R416) -/

/-- The refusal of an update execute: one runs already. -/
def State.updateCheck (s : State) : Option Refuse := if s.otp.updating.isSome then some .state else none

/-- The slot that is not running: B beside A, otherwise A. -/
def State.otherSlot (s : State) : Nat := if (s.otp.image.map Image.slot) = some 0 then 1 else 0

/-- The image in DRAM is checked; one that passes starts the erasure and the programming. -/
def State.updateAct (s : State) : State :=
  let a := s.nat (ky 0x2625 1)
  let n := s.nat (ky 0x2625 2)
  let c := s.imageCheck (fun i m => s.dramRead (a + i) m) n false
  if c ≠ 0 then s.setn (ky 0x2625 4) (c : Nat)
  else
    let b := slotBase s.otherSlot
    let e := b + 65536 * cdiv n 65536
    let s := { s with mem := { s.mem with flash := s.mem.flash.filter (fun p => decide (p.1 < b ∨ e ≤ p.1)) }
                      otp := { s.otp with updating := some (a, n) } }
    s.setn (ky 0x2625 4) 0xFF

def execUpdateDone (t : Time) (ok : Bool) (s : State) : Step :=
  let s := s.tick t
  match s.otp.updating with
  | none => .next s
  | some (a, n) =>
    let s := { s with otp := { s.otp with updating := none } }
    if !ok then .next (s.setn (ky 0x2625 4) 7)
    else
      let o := s.otherSlot
      let run := match s.otp.image with
        | some i => if i.slot ≤ 2 then leNat (s.flashRead (slotBase i.slot + 0xF14) 4) else 0
        | none => 0
      let h := s.dramRead a 4096
      let trial := List.replicate 16 255#8 ++ leBytes 4 0xFFFFFFFF ++ leBytes 4 ((run + 1) % 2 ^ 32) ++ List.replicate 232 255#8
      let s := (s.flashWrite (slotBase o) (h.take 0xF00 ++ trial)).flashWrite (slotBase o + 0x1000)
        (s.dramRead (a + 0x1000) (min (fieldLE h 0x10 4) (n - 0x1000)))
      let c := s.slotCheck o
      let s := { s with otp := { s.otp with codeA := if o = 0 then c else s.otp.codeA, codeB := if o = 1 then c else s.otp.codeB } }
      .next ((s.setn (ky 0x2625 4) (c : Nat)).showSlots)

/-- CONFIRM is programmed after 10 s of service without a watchdog expiry (R414). -/
def execConfirmed (t : Time) (s : State) : Step :=
  let s := s.tick t
  match s.otp.image with
  | none => .next s
  | some i =>
    if s.modeN ≤ 1 ∨ i.confirmed ∨ s.net.restarting ∨ s.flt.clusterHeld ∨ 3 ≤ i.slot ∨ t < i.startT + secT 10 then .next s
    else
      let s := s.flashWrite (slotBase i.slot + 0xF10) (leBytes 4 0x4B4F4E43)
      let s := { s with otp := { s.otp with image := some { i with confirmed := true } } }
      .next ((s.event 0xFE 0x0C23 0).showSlots)

/-! ## Contents of the persistent store (R334) -/

/-- Is an object saved? Every RW object with a default but those R334 excepts. -/
def saveable (base sub : Nat) (r : Row) : Bool :=
  r.acc != 0 && !r.wo && r.rng != .set [0] &&
    (r.te != .sub || base == 0x2141 || (base == 0x4002 && (sub == 2 || sub == 3)) || base == 0x4006) &&
    !(base == 0x1010 || base == 0x1011 || (base == 0x2780 && sub == 2) || (base == 0x2380 && (sub == 1 || sub == 0x41)) ||
      (base == 0x3010 && sub == 2) || (base == 0x2070 && sub == 2) || (base == 0x2504 && sub == 4))

/-- The table row of a key. -/
def rowAt (k : Nat) : Option (Nat × Nat × Row) := findRow (k / 256) (k % 256)

/-- Is a key's object saved? -/
def keySaved (k : Nat) : Bool := match rowAt k with
  | some (b, _, r) => saveable b (k % 256) r
  | none => false

/-- Does a key's value in force differ in time from its written value (R7), with start-up as one of those times? A setting of the next
entry to ARMING stays at its default until the casement arms (R159). -/
def keyForced (k : Nat) : Bool := match rowAt k with
  | some (_, _, r) => r.te != .imm && r.te != .sub && r.te != .arming
  | none => false

/-- The valid bank with the higher sequence number (R336). -/
def State.bankLive (s : State) : Option Bank :=
  match s.store.bankA, s.store.bankB with
  | some a, some b => some (if a.seq < b.seq then b else a)
  | some a, none => some a
  | none, some b => some b
  | none, none => none

/-- Ledger serials and defect lists as a save writes them (R222): each casement's that holds records, and what the store held for other
heads. -/
def State.bankLists (s : State) : List (Nat × Bytes) :=
  let now := (List.range 48).filterMap (fun c =>
    let x := s.casOf c
    x.serial.map (fun ser => (c, sliceB ser 0 16 ++ x.defects.flatMap (fun d =>
      leBytes 4 d.elem ++ leBytes 1 d.kind ++ leBytes 3 0 ++ leBytes 8 d.time))))
  let old := (s.bankLive.map Bank.aux).getD []
  now ++ old.filter (fun p => !now.any (fun q => q.1 = p.1 ∨ sliceB q.2 0 16 = sliceB p.2 0 16))

/-- What a save writes, with the sequence number it takes. -/
def State.bankNow (s : State) (seq : Nat) : Bank :=
  { seq := seq, vals := s.obj.filter (fun p => keySaved p.1)
    aux := s.bankLists
    words := s.lamp.words }

/-- The store loaded at start-up (R335, R336): its values are also the values in force. -/
def State.storeLoad (s : State) : State :=
  let fresh := s.store.restoreDefaults
  let s := { s with store := { s.store with restoreDefaults := false } }
  match s.bankLive with
  | none => s.event 0xFC 0x0C01 0
  | some b =>
    if fresh then s
    else
      let s := b.vals.foldl (fun s (k, v) => s.setv k v) s
      b.vals.foldl (fun s (k, _) => if keyForced k then s.enforce k else s) s

end Sys2Proof.Machine
end

