-- ==== Sys2Proof/Machine/Programs.lean ====
section
/-! DEFINITION. The Lamplighter's program store (R389, R392): its instruction words, their validation and the commit. -/

namespace Sys2Proof.Machine

/-- OP of a word (R389). -/
def wOp (w : Nat) : Nat := bits w 31 28
/-- MODE of a word. -/
def wMode (w : Nat) : Nat := bits w 27 26
/-- COND of a CHECK_JUMP. -/
def wCond (w : Nat) : Nat := bits w 27 24

/-- The active word at an address (R392, R399). -/
def State.progWord (s : State) (a : Nat) : Nat := tget defaultWord s.lamp.words a

/-- The shadow word at an address. -/
def State.shadowWord (s : State) (a : Nat) : Nat := tget defaultWord s.lamp.shadow a

/-- A write of the shadow word at the store address. -/
def State.shadowWrite (s : State) (v : Nat) : State :=
  { s with lamp := { s.lamp with shadow := tset defaultWord s.lamp.shadow (s.nat (ky 0x2140 1)) v } }

/-- The bits that the fields of an OP use; the others are reserved. -/
def opMask (op : Nat) : Nat :=
  match op with
  | 0 => 0xF00000FF
  | 1 | 2 => 0xFC00003F
  | 3 => 0xF0FFFFFF
  | 4 => 0xFEFFFF3F
  | 5 => 0xFFFF01FF
  | _ => 0xF0FFFFFF

/-- A field error of R392: a WAIT of 0, a STATE of 0, a COND above 8 or reserved bits set. -/
def fieldBad (w : Nat) : Bool :=
  let op := wOp w
  w &&& opMask op != w || (op == 3 && bits w 23 0 == 0) || (op == 6 && bits w 7 0 == 0) || (op == 5 && Nat.blt 8 (wCond w))

/-- The addresses a word can pass to, by jump and by fall-through. -/
def wNext (a w : Nat) : List Nat :=
  let fall := if a < 511 then [a + 1] else []
  match wOp w with
  | 0 => []
  | 5 => if wCond w = 0 then [bits w 8 0] else bits w 8 0 :: fall
  | _ => fall

/-- The addresses reachable in at most `fuel` further levels from those of `new`. -/
def reachable (w : Nat → Nat) : Nat → List Nat → List Nat → List Nat
  | 0, seen, _ => seen
  | f + 1, seen, new =>
    match (new.flatMap (fun a => wNext a (w a))).dedup.filter (fun a => !seen.contains a) with
    | [] => seen
    | n => reachable w f (seen ++ n) n

/-- A word that a casement entry must not reach (R390, R392). -/
def systemOnly (w : Nat) : Bool :=
  let op := wOp w
  op == 6 || ((op == 1 || op == 2 || op == 4) && wMode w == 0) || (op == 5 && (wCond w == 1 || wCond w == 2 || wCond w == 6))

/-- A word that a system entry must not reach. -/
def casementOnly (w : Nat) : Bool :=
  let op := wOp w
  ((op == 1 || op == 2 || op == 4) && wMode w == 1) || (op == 5 && wCond w == 3)

/-- Validation of a store `w` with entry points `e` (R392): 0, or the first code of its list that fails. -/
def storeCode (w e : Nat → Nat) : Nat :=
  let all := (List.range 512).map w
  let cas := [3, 4, 5].map e
  let sys := ([0, 1, 2] ++ (List.range 10).map (· + 6)).map e
  let rc := reachable w 512 cas cas
  let rs := reachable w 512 sys sys
  let last := w 511
  if all.any (fun x => Nat.blt 6 (wOp x)) then 2
  else if all.any fieldBad then 3
  else if (cas ++ sys).any (fun a => Nat.blt 511 a) ∨
    ((rc ++ rs).contains 511 ∧ !(wOp last == 0 || (wOp last == 5 && wCond last == 0))) then 4
  else if rc.any (fun a => systemOnly (w a)) ∨ rs.any (fun a => casementOnly (w a)) then 5
  else 0

/-- Some executor runs a program. -/
def State.anyExec (s : State) : Bool := (List.range 49).any s.exBusy

/-- The commit of the program store (R392), with its result and event 0xC7. -/
def State.lampCommit (s : State) : State :=
  let entry (i : Nat) : Nat := s.nat (ky 0x2141 (i + 1))
  let r := if s.anyExec then 1 else storeCode s.shadowWord entry
  let s := if r = 0 then
      { s with lamp := { s.lamp with words := s.lamp.shadow
                                     entries := (List.range 16).foldl (fun m i => tset defaultEntry m i (entry i)) [] } }
    else s
  (s.setn (ky 0x2140 4) (r : Nat)).event 0xC7 (0x0570 + r) 0

end Sys2Proof.Machine
end

