-- ==== Sys2Proof/Machine/Modes.lean ====
section
/-! DEFINITION. Device modes and their transitions (R419 to R423), resets and start-up (R424 to R427), firmware restarts. -/

namespace Sys2Proof.Machine

/-! ## Settings that wait for a mode entry or a reset -/

/-- When a key's writes take effect. -/
def keyTe (k : Nat) : Option Te := (rowAt k).map (fun (_, _, r) => r.te)

/-- Every written value of one class comes into force. -/
def State.enforceAll (s : State) (te : Te) : State :=
  (s.obj.map Prod.fst ++ s.force.map Prod.fst).foldl (fun s k => if keyTe k = some te then s.enforce k else s) s

/-- The owner and role objects of the sashes show the casement ports in force (R151, R185). -/
def State.showSashes (s : State) : State :=
  let s := (List.range 192).foldl (fun s i => (s.setn (oSash i 1) 255).setn (oSash i 2) 0) s
  (List.range 48).foldl (fun s c =>
    if s.frcN (oCas c 4 1) = 0 then s
    else (List.range (s.frcN (oCas c 4 3))).foldl (fun s j =>
      let i := s.frcN (oCas c 4 2) + j
      (s.setn (oSash i 1) (c : Nat)).setn (oSash i 2) (if s.frcN (oCas c 4 1) = 1 then 1 else 2)) s) s

/-! ## The configuration check (R421) -/

/-- Do the written sash ranges of two casements overlap (R151)? -/
def State.sashClash (s : State) (c d : Nat) : Bool :=
  let n (x sub : Nat) := s.nat (oCas x 4 sub)
  n c 1 != 0 && n d 1 != 0 && c != d && Nat.blt (n c 2) (n d 2 + n d 3) && Nat.blt (n d 2) (n c 2 + n c 3)

/-- A casement's written base and count obey R151. -/
def State.sashOk (s : State) (c : Nat) : Bool :=
  let b := s.nat (oCas c 4 2)
  let k := s.nat (oCas c 4 3)
  b % max 1 k == 0 && Nat.ble (b + k) 192

/-- Two casement-owned rails hold one owner and slot (R384). -/
def State.railClash (s : State) (n m : Nat) : Bool :=
  n != m && Nat.blt (s.nat (oRail n 1)) 48 && s.nat (oRail n 1) == s.nat (oRail m 1) && s.nat (oRail n 2) == s.nat (oRail m 2)

/-- An axis kind on an axis that cannot have it (R246). -/
def kindOk (a k : Nat) : Bool := if a < 16 then k != 4 else k == 0 || k == 4

/-- The sum of a written setting over casements 0 to c. -/
def State.sumTo (s : State) (c page sub : Nat) : Nat := ((List.range (c + 1)).map (fun d => s.nat (oCas d page sub))).sum

/-- The keys that fail the configuration check. -/
def State.configFaults (s : State) : List Nat :=
  (List.range 64).filterMap (fun n => if (List.range n).any (s.railClash n) then some (oRail n 1) else none)
  ++ (List.range 48).flatMap (fun c =>
      let rq := s.nat (oCas c 0 9)
      let cq := s.nat (oCas c 0x11 1)
      (if rq ≠ 0 ∧ ((List.range c).any (fun d => s.nat (oCas d 0 9) = rq) ∨ ((s.qOf rq).enabled ∧ (s.qOf rq).typ ≠ 1)) then
        [oCas c 0 9] else [])
      ++ (if 3584 < s.sumTo c 3 1 then [oCas c 3 1] else [])
      ++ (if 4000 < s.sumTo c 3 6 then [oCas c 3 6] else [])
      ++ (if s.nat (oCas c 4 1) ≠ 0 ∧ (!s.sashOk c ∨ (List.range c).any (s.sashClash c)) then [oCas c 4 2] else [])
      ++ (if cq ≠ 0 ∧ (s.qOf cq).enabled ∧ (s.qOf cq).typ ≠ 3 then [oCas c 0x11 1] else []))
  ++ (List.range 48).filterMap (fun a => if kindOk a (s.nat (oAx a 0 1)) then none else some (oAx a 0 1))

/-- The least of a list. -/
def leastOf : List Nat → Option Nat
  | [] => none
  | k :: r => some (r.foldl min k)

/-! ## Transitions (R420) -/

/-- Some casement holds a committed mark. -/
def State.anyOpen (s : State) : Bool := (List.range 48).any (fun c => (s.casOf c).opened != [])

/-- Enter STANDBY: settings of that entry come into force; from CONFIGURE the tick number returns to 0 (R277). -/
def State.enterStandby (s : State) : State :=
  let s := if s.modeN = 2 then s.setn (ky 0x2030 7) 0 else s
  ((s.enforceAll .standby).showSashes).enterMode 3

/-- Every casement executor is idle and every axis DISABLED (R420). -/
def State.quiet (s : State) : Bool :=
  (List.range 48).all (fun c => !s.exBusy c) && (List.range 48).all (fun a => s.axState a == 0)

/-- READY or SERVICE is left for STANDBY: casements power down and axes stop along ds. -/
def State.windDown (s : State) : State :=
  let s := (List.range 48).foldl (fun s c =>
    let st := s.casState c
    if st = 2 ∨ st = 3 ∨ st = 5 then
      let s := match (s.casOf c).svc with
        | some v => if st = 5 ∧ v.phase ≠ 3 then s.svcEnd c v 1 else s
        | none => s
      s.beginPowerDown c 1
    else s) s
  (List.range 48).foldl State.axLeave s

/-- SAFE is left for STANDBY: casements go to COLD and axes to DISABLED, rails as they are. -/
def State.leaveSafe (s : State) : State :=
  let s := (List.range 48).foldl (fun s c =>
    let st := s.casState c
    if 2 ≤ st ∧ st ≤ 5 then
      (s.setCasement c { s.casOf c with svc := none, meas := none, train := none, hourT := none }).toCold c
    else s) s
  ((List.range 48).foldl State.axLeave s).enterStandby

/-- The READY condition: a result of R423. -/
def State.readyCode (s : State) : Nat := if !s.lamp.upOk then 4 else if s.deviceSafeSet then 6 else 0

/-- A waiting transition to STANDBY ends once all is quiet, one to CONFIGURE once the system executor is idle. -/
def State.transTry (s : State) : State :=
  match s.mode.trans with
  | some 3 =>
    if s.quiet then
      ({ s with mode := { s.mode with trans := none } }.enterStandby).setn (ky 0x2100 3) 0
    else s
  | some 2 =>
    if s.exBusy sysEx then s
    else
      let s := { s with mode := { s.mode with trans := none } }
      (((List.range 48).foldl State.axLeave s).enterMode 2).setn (ky 0x2100 3) 0
  | _ => s

/-- A mode request: its result under R423 and the state it leaves. -/
def State.modeAsk (s : State) (m : Nat) : Nat × State :=
  let cur := s.modeN
  let into (c : Nat) : Nat × State := if c ≠ 0 then (c, s) else (0, s.enterMode m)
  if m = cur then (0, s)
  else if cur = 2 ∧ s.restricted then (7, s)
  else if m = 7 then (if 2 ≤ cur ∧ cur ≤ 6 then (0, s.enterSafe) else (1, s))
  else if s.mode.trans.isSome then (2, s)
  else match cur, m with
    | 2, 3 =>
      match leastOf s.configFaults with
      | some k => (3, s.setn (ky 0x2100 5) (k / 256 * 65536 + k % 256 * 256 : Nat))
      | none => (0, s.enterStandby)
    | 3, 2 =>
      if s.exBusy sysEx then (2, s)
      else (0xFF, { s with mode := { s.mode with trans := some 2 } }.startProgram sysEx 1)
    | 3, 4 | 6, 4 => into s.readyCode
    | 4, 5 | 5, 4 => into 0
    | 4, 6 | 3, 6 => into (if s.anyOpen then 5 else 0)
    | 4, 3 | 6, 3 =>
      if s.anyOpen then (5, s)
      else
        let s := { s.windDown with mode := { s.mode with trans := some 3 } }
        if s.quiet then (0, s.transTry) else (0xFF, s)
    | 7, 3 =>
      if s.deviceSafeSet ∨ s.exBusy sysEx then (6, s)
      else if s.anyOpen then (5, s)
      else if (List.range 48).any (fun a => s.axState a = 2 ∨ s.axState a = 3) then
        let (r, s) := s.free 8
        (1 + r % 7, s)
      else (0, s.leaveSafe)
    | _, _ => (1, s)

/-- A mode request accepted (R420, R422): its result, and event MODE_REFUSED where it is refused. -/
def State.modeRequest (s : State) (m : Nat) : State :=
  let s := { s with mode := { s.mode with startup := none } }
  let (r, s) := s.modeAsk m
  let s := s.setn (ky 0x2100 3) (r : Nat)
  if r = 0 ∨ r = 0xFF then s else s.event 0xFC 0x0C03 0 [BitVec.ofNat 8 r]

/-- A step of the start-up target (R427): the request, or event STARTUP_STOPPED. -/
def State.startupAsk (s : State) (m : Nat) : Bool × State :=
  let (r, s) := s.modeAsk m
  let s := s.setn (ky 0x2100 3) (r : Nat)
  if r = 0 then (true, s)
  else (false, { s with mode := { s.mode with startup := none } }.event 0xFC 0x0C04 0 [BitVec.ofNat 8 r])

/-- Step 11 of R427, once POWER_UP has ended: READY from the STANDBY of step 10. -/
def State.startupReady (s : State) : State :=
  if s.mode.startup = some 4 ∧ s.modeN = 3 ∧ !(s.exBusy sysEx && (s.exOf sysEx).entry == 0) then
    let (_, s) := s.startupAsk 4
    { s with mode := { s.mode with startup := none } }
  else s

/-- Step 10 of R427: STANDBY from CONFIGURE. -/
def execStartupStandbyRequest (t : Time) (s : State) : Step :=
  let s := s.tick t
  match s.mode.startup with
  | none => .next s
  | some g =>
    if s.modeN ≠ 2 then .next s
    else
      let (ok, s) := s.startupAsk 3
      if !ok then .next s
      else if g = 4 then .next s.startupReady
      else .next { s with mode := { s.mode with startup := none } }

def execModeTransitionComplete (t : Time) (s : State) : Step := .next (s.tick t).transTry

/-! ## Resets (R424 to R426) -/

/-- The bank a save writes: the one not in use (R336). -/
def State.putBank (s : State) (b : Bank) : State :=
  let live := s.bankLive
  if live.isSome ∧ s.store.bankA = live then { s with store := { s.store with bankB := some b } }
  else { s with store := { s.store with bankA := some b } }

/-- A reset cuts the burning of a row short (R406): of the bits in hand, in ascending order, the first few are burned, over the copies of a
redundant row one after another; how many is free. A value that goes to a spare leaves the spare partly burned and unnamed. -/
def State.otpCut (s : State) : State :=
  match s.otp.job with
  | none => s
  | some j =>
    let (n, s) := s.free 16
    let burn (s : State) (loc word k : Nat) : State :=
      { s with otp := { s.otp with array := tset (fun _ => 0) s.otp.array loc (tget (fun _ => 0) s.otp.array loc ||| word % 2 ^ k) } }
    match otpCopies j.row with
    | [] =>
      let raw := s.otpRaw j.row
      let word := otpWord j.value
      burn s (if raw = 0 ∨ raw = word then s.otpLoc j.row else 0x400 + s.otp.redirect.length) word (n % 40)
    | l => l.zipIdx.foldl (fun s (r, i) => burn s (s.otpLoc r) j.value (min 32 (n % 97 - 32 * i))) s

/-- What a reset leaves: the VBAT domain, fuses, flash, host memory and the outside of the pins (R424, R425). A save it cuts leaves the old
bank or the new one (R336). Device time runs through a device reset. -/
def State.cleared (s : State) (powerOn : Bool) : State :=
  let s := s.otpCut
  let (x, s) := s.free 1
  let s := match s.store.saving with
    | some (b, _) => if x = 1 then s.putBank b else s
    | none => s
  let r := State.reset
  { r with
    pending := s.pending, freeIx := s.freeIx, out := s.out
    clk := { s.clk with
      staged := none, snapLo := 0, snapHi := 0, calDate := 0, calTime := 0, calNs := 0, calInfo := 0
      rate := if powerOn then 0 else s.clk.rate
      integ := if powerOn then 0 else s.clk.integ
      lockN := if powerOn then 0 else s.clk.lockN
      offsetT := if powerOn then none else s.clk.offsetT
      holdT := if powerOn then none else s.clk.holdT
      battLost := !powerOn && s.clk.battLost }
    obj := if powerOn then [] else s.obj.filter (fun p => p.1 = ky 0x2300 2 ∨ p.1 = ky 0x2101 5)
    mem := { s.mem with dram := [] }
    store := { r.store with bankA := s.store.bankA, bankB := s.store.bankB, restoreDefaults := s.store.restoreDefaults }
    otp := { r.otp with array := s.otp.array, redirect := s.otp.redirect, straps := if powerOn then 0 else s.otp.straps }
    tal := (s.tal.map (fun (n, x) => (n, { Tal.init with mark := x.mark }))).filter (fun p => p.2 != Tal.init)
    lamp := { r.lamp with rails := (s.lamp.rails.map (fun (n, x) => (n, { Rail.init with pg := x.pg }))).filter (fun p => p.2 != Rail.init) } }

/-- PORST_N low for 100 ns or more (R426, R428). -/
def execPorstLow (t : Time) (s : State) : Step := .next ((s.tick t).cleared true)

/-- The internal reset that follows HW_SHUTDOWN (R425): logic held in reset for 100 us. -/
def State.beginReset (s : State) (cause : Nat) : State :=
  let s := s.cleared false
  { s with mode := { s.mode with porstLow := false, resetHold := some (cause, s.now) } }

/-- HW_SHUTDOWN has ended: an owed reset follows (R386, R398, R425). -/
def State.shutdownEnded (s : State) : State :=
  match s.mode.resetOwed with
  | some c => s.beginReset c
  | none => s

/-- A reset that first runs HW_SHUTDOWN: 2 rail, 3 manual, 4 command. -/
def State.resetAfterShutdown (s : State) (cause : Nat) : State :=
  { s with mode := { s.mode with resetOwed := some (s.mode.resetOwed.getD cause) } }.hwShutdown

/-! ## Start-up (R427) -/

/-- Device time from the calendar clock (R121). Whether VBAT has fallen below 1.55 V, which damages the pattern, no command tells: a free value
(log 46). -/
def State.timeStart (s : State) : State :=
  let (v, s) := s.free 1
  let s := { s with clk := { s.clk with calOk := s.clk.calOk && v == 0 } }.calAdvance
  let c := s.clk
  if c.calOk then
    let d : Int := (c.calSec * 1000000000 + c.calSub * 30517578 / 1000 : Nat)
    { s with clk := { c with epoch := d - (toNs c.mono : Int) } }.setn (ky 0x2300 2) 1
  else
    ({ s with clk := { c with epoch := -(toNs c.mono : Int), battLost := true } }.setn (ky 0x2300 2) 0).event 0xD8 0 0

/-- Steps 6 to 9 of R427, once an image is in place: into CONFIGURE. -/
def State.finishBoot (s : State) : State :=
  let s := { s with mem := { s.mem with dram := [] } }
  let s := s.notaryStart
  let stored := if s.store.restoreDefaults then none else s.bankLive
  let s := s.storeLoad
  let s := match stored with
    | some b => { s with lamp := { s.lamp with shadow := b.words } }.lampCommit
    | none => s
  let s := s.calObjects.foldl (fun s (i, b, n, _) => s.recal i b n) s
  let s := s.setn (ky 0x2010 2) (s.frcN (ky 0x2010 1) : Nat)
  let s := (List.range 256).foldl (fun s n =>
    (s.setn (oTal n 0) (if s.talGuard n ≠ 0 then ((s.talOf n).mark : Int) else s.num (oTal n 2))).talMark n) s
  let s := s.showSashes
  let s := { s with lamp := { s.lamp with lsyncLow := decide (s.frcN (ky 0x2143 1) = 1) } }
  let s := { s with flt := { s.flt with wdogMs := s.frcN (ky 0x2200 5), wdogT := s.now } }
  let s := if s.flt.fsw.getLsbD 55 then s
    else { s with flt := { s.flt with selftest := true, safeA := true, safeB := true, beatT := s.now } }
  let (d, s) := s.free 32
  let s := s.setn (ky 0x2101 4) (d : Nat)
  let s := s.enterMode 2
  let s := s.startProgram sysEx 0
  let s := s.event 0xFF 0x0C33 0 [BitVec.ofNat 8 (s.nat (ky 0x2101 2))]
  let g := s.frcN (ky 0x2101 1)
  let s := { s with mode := { s.mode with startup := if 3 ≤ g then some g else none } }
  [0, 1].foldl (fun s i => if s.canOn i then s.send (.heartbeat i 0) else s) s

/-- Start-up from the release of PORST_N or the end of the internal reset, with the reset's cause. -/
def State.bootRun (s : State) (cause : Nat) : State :=
  let s := { s with mode := { s.mode with porstLow := false, resetHold := none } }
  let s := (s.setn (ky 0x2100 2) 1).setn (ky 0x2101 2) (cause : Nat)
  let s := if cause = 1 then s.timeStart else s
  let s := s.otpLoad.selectImage
  if s.otp.image.isSome then s.finishBoot else s

/-- Release of PORST_N with the straps sampled (R409, R427). -/
def execPorstRelease (t : Time) (straps : BitVec 3) (s : State) : Step :=
  let s := s.tick t
  if !s.mode.porstLow then .next s
  else .next ({ s with otp := { s.otp with straps := straps.toNat } }.bootRun 1)

/-- The 100 us in reset have passed (R425). -/
def execResetHoldEnd (t : Time) (s : State) : Step :=
  let s := s.tick t
  match s.mode.resetHold with
  | some (c, t0) => if t0 + usT 100 ≤ t then .next (s.bootRun c) else .next s
  | none => .next s

/-! ## Firmware restarts (R424) -/

/-- A firmware restart begins: dictionary requests wait; an update in progress is lost, its result not stated. -/
def State.beginRestart (s : State) : State :=
  let s := if s.otp.updating.isSome then
      let (r, s) := s.free 8
      { s with otp := { s.otp with updating := none } }.setn (ky 0x2625 4) (r : Nat)
    else s
  let s := { s with net := { s.net with restarting := true, kdp := [] } }
  let s := { s with flt := { s.flt with wdogMs := 2000, wdogT := s.now, clusterHeld := false } }
  ((s.bump (ky 0x2101 5)).setn (ky 0x2101 2) 5).event 0xFF 0x0C31 0

/-- Dictionary requests wait (R332, R442). -/
def State.deaf (s : State) : Bool := s.net.restarting || s.flt.clusterHeld

/-- The selected image serves the dictionary again, and the watchdog runs with its period. -/
def State.restartServes (s : State) : State :=
  let s := { s with net := { s.net with restarting := false }, flt := { s.flt with wdogMs := s.frcN (ky 0x2200 5), wdogT := s.now } }
  let s := s.event 0xFF 0x0C32 0
  if s.flt.wdogRestart then
    ({ s with flt := { s.flt with wdogRestart := false } }).event 0xCC 0x0642 0
  else s

/-- A host load (R413): the image at DRAM address 0 is checked and put in place; none where it fails. -/
def State.hostLoad (s : State) (len : Nat) : Option State :=
  let c := s.imageCheck (fun i m => s.dramRead i m) len false
  if c ≠ 0 then none
  else some { s with otp := { s.otp with hostBoot := false, image := some (s.imageOf 3 (s.dramRead 0 512) false) } }.showSlots

end Sys2Proof.Machine
end

