-- ==== Sys2Proof/Machine/Lamplighter.lean ====
section
/-! DEFINITION. The Lamplighter: rails, executors and their instructions, LSYNC, the button and the manual reset (R383 to R400). -/

namespace Sys2Proof.Machine

/-! ## Programs (R388, R389) -/

/-- The present step of an executor, and its word. -/
def State.stepAt (s : State) (x : Nat) : Nat := s.nat (exKey x 2)
def State.stepWord (s : State) (x : Nat) : Nat := s.progWord (s.stepAt x)

/-- The instance an event or a syndrome names for an executor. -/
def exInst (x : Nat) : Nat := if x = sysEx then 0xFF else x

/-- The rails an instruction names (R389). -/
def State.named (s : State) (x w : Nat) : List Nat :=
  match wMode w with
  | 0 => [bits w 5 0]
  | 1 => if x = sysEx then [] else (s.headGroup x).filter (fun n => s.frcN (oRail n 2) = bits w 1 0)
  | 2 => if x = sysEx then (List.range 64).filter (fun n => Nat.blt (s.railOwner n) 48) else s.headGroup x
  | _ => if x = sysEx then List.range 64 else s.headGroup x

/-- The casement whose POWER_DOWN or measurement program is abandoned goes on as at its end. -/
def State.abandoned (s : State) (x : Nat) : State :=
  if x = sysEx then s
  else match (s.exOf x).entry with
    | 4 => s.casDownDone x
    | 5 => s.casUpDone x 0xF2
    | _ => s

/-- What follows the end of a program, by its entry point (R81, R229, R388, R393, R420, R427). -/
def State.afterProgram (s : State) (x status : Nat) : State :=
  match (s.exOf x).entry with
  | 0 =>
    let s := if status = 0 then { s with lamp := { s.lamp with locked := false, upOk := true } } else s
    s.startupReady
  | 1 => s.transTry
  | 2 => (if status ≠ 0 then s.allOff else s).shutdownEnded
  | 3 | 5 => s.casUpDone x status
  | 4 => s.casDownDone x
  | _ => s

/-- A program ends with a status (R389, R396): event 0xC2, bits 41 and 42. -/
def State.endProgram (s : State) (x status : Nat) : State :=
  let s := s.lsyncHold x
  let s := s.setEx x { s.exOf x with released := false }
  let s := (s.setn (exKey x 1) 0).setn (exKey x 3) (status : Nat)
  let s := s.event 0xC2 (if status ≤ 0xEF then 0x0520 + status else 0x0500 + status) (exInst x)
  let s := match status with
    | 0xF1 | 0xF4 | 0xF5 => s.fault 41 1 (exInst x) status
    | 0xF3 => (s.event 0xC5 0x0551 0).fault 42 1 0 (s.nat (ky 0x2143 2))
    | 0xF6 => (s.event 0xC5 0x0553 0).fault 42 3 0 (s.nat (ky 0x2143 2))
    | _ => s
  if s.exBusy x then s else s.afterProgram x status

/-- May executor `x` execute an instruction with OP `op` now? -/
def State.atOp (s : State) (x op : Nat) : Bool :=
  s.exBusy x && Nat.ble (s.exOf x).stepT s.now && wOp (s.stepWord x) == op

/-- Executor `x` goes on at address `a`, whose step starts `us` microseconds from now. -/
def State.goTo (s : State) (x a us : Nat) : State :=
  (s.setEx x { s.exOf x with stepT := s.now + usT us, expired := false, released := false }).setn (exKey x 2) (a % 512 : Nat)

/-- Executor `x` goes on at the next address. -/
def State.goNext (s : State) (x us : Nat) : State := s.goTo x (s.stepAt x + 1) us

/-- The refusal of a start write (R388): a busy system executor, but for HW_SHUTDOWN. -/
def State.startCheck (s : State) (e : Nat) : Option Refuse := if e ≠ 2 ∧ s.exBusy sysEx then some .state else none

/-- A start write accepted. -/
def State.startAct (s : State) (e : Nat) : State := if e = 2 then s.hwShutdown else s.startProgram sysEx e

/-! ## Rails (R385 to R387) -/

/-- Rail `n` goes to GOOD: a retry that has succeeded is reported. -/
def State.railGood (s : State) (n : Nat) : State :=
  let x := s.railOf n
  let s := (s.setRail n { x with goodT := s.now, timed := false }).setn (oRail n 0x0A) 2
  let s := if x.att ≠ 0 then s.event 0xC1 0x0512 n else s
  if s.railOwner n < 48 then s.tryTraining (s.railOwner n) else s

/-- Rail `n` enters RAMPING with its EN active; power-good already shown makes it GOOD. -/
def State.railRamp (s : State) (n : Nat) : State :=
  let tmo := s.nat (oRail n 6)
  let s := (s.setRail n { s.railOf n with en := true, due := s.now + usT (100 * tmo), tmo := tmo, timed := false }).setn (oRail n 0x0A) 1
  if s.pgGood n then s.railGood n else s

/-- One period of the 20 MHz slow clock. -/
def slowClock (t : Time) : Nat := t / nsT 50

/-- ENABLE of a rail: from OFF or FAULTED only; a DISABLE or a fault on the same clock prevails (R389, R391). -/
def State.railEnable (s : State) (n : Nat) : State :=
  let st := s.railState n
  let same := match (s.railOf n).offT with
    | some t => slowClock t == slowClock s.now
    | none => false
  if (st = 0 ∨ st = 4) ∧ !same then s.railRamp n else s

/-- Programs that wait in a WAIT_PG for power-good of rail `n` end with status 0xF0 (R387). -/
def State.escalated (s : State) (n : Nat) : State :=
  (List.range 49).foldl (fun s x =>
    let w := s.stepWord x
    if s.exBusy x && decide ((s.exOf x).stepT ≤ s.now) && wOp w == 4 && !bit w 25 && (s.named x w).contains n then s.endProgram x 0xF0
    else s) s

/-- The GROUP and SYSTEM_RESET reactions of rail `n` (R386). -/
def State.railGroup (s : State) (n cause reaction : Nat) : State :=
  let c := s.railOwner n
  let s := (s.setRail n { s.railOf n with en := false, timed := false, offT := some s.now }).setn (oRail n 0x0A) 4
  let s := s.event 0xC0 cause n
  if c < 48 then
    let s := ((s.stopPulses c).fault 40 1 n c).casFault c 1
    let s := (s.escalated n).svcRails c
    if s.exBusy c ∧ (s.exOf c).entry = 4 then s else s.startProgram c 4
  else
    let s := if reaction = 3 ∧ s.mode.resetOwed.isNone then { s with mode := { s.mode with resetOwed := some 2 } } else s
    ((s.fault 40 1 n c).escalated n).hwShutdown

/-- A rail fault takes the rail's reaction (R386, R387). -/
def State.railFault (s : State) (n cause : Nat) : State :=
  let s := s.bump (oRail n 0x0B)
  let x := s.railOf n
  match s.nat (oRail n 7) with
  | 0 => (s.setRail n { x with timed := true }).event 0xC0 cause n
  | 1 =>
    if x.att < s.nat (oRail n 8) then
      let s := (s.setRail n { x with en := false, att := x.att + 1, due := s.now + msT (s.nat (oRail n 9)), timed := false,
                                     offT := some s.now }).setn (oRail n 0x0A) 3
      let c := s.railOwner n
      (if c < 48 then s.stopPulses c else s).event 0xC1 0x0511 n
    else s.railGroup n (if x.att = 0 then cause else 0x0503) 1
  | r => s.railGroup n cause r

def execPgChange (t : Time) (n : Fin 64) (level : Bool) (s : State) : Step :=
  let s := s.tick t
  let s := s.setRail n { s.railOf n with pg := level }
  let good := s.pgGood n
  match s.railState n with
  | 1 => .next (if good then s.railGood n else s)
  | 2 =>
    let c := s.railOwner n
    if good then .next (if c < 48 then s.tryTraining c else s)
    else
      .next ((if c < 48 then s.stopPulses c else s).railFault n 0x0501)
  | _ => .next s

def execPgTimeout (t : Time) (n : Fin 64) (s : State) : Step :=
  let s := s.tick t
  let x := s.railOf n
  if s.railState n = 1 ∧ !x.timed ∧ x.due ≤ t then .next (s.railFault n 0x0502) else .next s

def execRetryDelayExpiry (t : Time) (n : Fin 64) (s : State) : Step :=
  let s := s.tick t
  if s.railState n = 3 ∧ (s.railOf n).due ≤ t then .next (s.railRamp n) else .next s

def execRetryCountReset (t : Time) (n : Fin 64) (s : State) : Step :=
  let s := s.tick t
  let x := s.railOf n
  if s.railState n = 2 ∧ x.goodT + secT 10 ≤ t then .next (s.setRail n { x with att := 0 }) else .next s

/-- The level an EN ball drives, none for high impedance (R383). -/
def State.enPin (s : State) (n : Nat) : Option Bool :=
  let d := s.nat (oRail n 3)
  let level := (s.railOf n).en != bit d 4
  if s.modeN = 0 then none
  else match d % 4 with
    | 1 => some level
    | 2 => if level then none else some false
    | _ => none

/-! ## Instructions (R389 to R391) -/

def execEnd (t : Time) (x : Fin 49) (s : State) : Step :=
  let s := s.tick t
  if s.atOp x 0 then .next (s.endProgram x (bits (s.stepWord x) 7 0)) else .next s

def execEnable (t : Time) (x : Fin 49) (s : State) : Step :=
  let s := s.tick t
  if !s.atOp x 1 then .next s
  else if x.val ≠ sysEx ∧ s.lamp.locked then .next (s.endProgram x 0xF2)
  else .next (((s.named x (s.stepWord x)).foldl State.railEnable s).goNext x 1)

def execDisable (t : Time) (x : Fin 49) (s : State) : Step :=
  let s := s.tick t
  if s.atOp x 2 then .next (((s.named x (s.stepWord x)).foldl State.railOff s).goNext x 1) else .next s

def execWait (t : Time) (x : Fin 49) (s : State) : Step :=
  let s := s.tick t
  if s.atOp x 3 ∧ (s.exOf x).stepT + usT (bits (s.stepWord x) 23 0) ≤ t then .next (s.goNext x 0) else .next s

/-- Does rail `n` show the LEVEL of a WAIT_PG: power-good, but not in a retry, or not power-good? -/
def State.showsLevel (s : State) (low : Bool) (n : Nat) : Bool := if low then !s.pgGood n else s.pgGood n && s.railState n != 3

def execWaitPg (t : Time) (x : Fin 49) (s : State) : Step :=
  let s := s.tick t
  if !s.atOp x 4 then .next s
  else
    let w := s.stepWord x
    let e := s.exOf x
    let rails := s.named x w
    let low := bit w 25
    let past (us : Nat) : Bool := Nat.ble (e.stepT + usT us) t
    let tmo := bits w 23 8
    if rails.all (s.showsLevel low) then .next (s.goNext x 1)
    else if low then
      if tmo ≠ 0 ∧ past (100 * tmo) ∨ tmo = 0 ∧ rails.any (fun n => s.pgGood n && past (100 * (s.railOf n).tmo)) then
        .next (s.endProgram x 0xF1)
      else .next s
    else if tmo ≠ 0 ∧ past (100 * tmo) ∧ !e.expired then
      let s := s.setEx x { e with expired := true }
      .next (rails.foldl (fun s n => if s.railState n = 1 ∧ !(s.railOf n).timed then s.railFault n 0x0502 else s) s)
    else .next s

/-- The condition of a CHECK_JUMP (R390). -/
def State.condition (s : State) (x w : Nat) : Bool :=
  let o := bits w 23 16
  match wCond w with
  | 0 => true
  | 1 => s.pgGood (o % 64)
  | 2 => !s.pgGood (o % 64)
  | 3 => ((s.headGroup x).filter (fun n => s.frcN (oRail n 2) = o % 4)).all s.pgGood
  | 4 => s.lamp.pressT.isSome
  | 5 => s.obit (ky 0x2142 5) (o % 16)
  | 6 => Nat.ble o (s.nat (ky 0x2143 2))
  | 7 => if x = sysEx then s.anyOpen else (s.casOf x).opened != []
  | 8 => (List.range 48).any (fun a => s.axState a = 2 ∨ s.axState a = 3)
  | _ => false

def execCheckJump (t : Time) (x : Fin 49) (s : State) : Step :=
  let s := s.tick t
  if !s.atOp x 5 then .next s
  else
    let w := s.stepWord x
    .next (if s.condition x w then s.goTo x (bits w 8 0) 1 else s.goNext x 1)

/-! ## LSYNC (R394 to R396) -/

/-- Participation in force. -/
def State.lsyncOn (s : State) : Bool := s.frcN (ky 0x2143 1) = 1

def execSyncStep (t : Time) (x : Fin 49) (s : State) : Step :=
  let s := s.tick t
  if !s.atOp x 6 then .next s
  else
    let w := s.stepWord x
    let n := bits w 7 0
    let loc := s.nat (ky 0x2143 2)
    let e := s.exOf x
    if !s.lsyncOn then .next ((s.setn (ky 0x2143 2) (n : Nat)).goNext x 1)
    else if n ≤ loc then .next (s.goNext x 0)
    else if loc + 1 < n then .next (s.endProgram x 0xF6)
    else if e.released ∨ s.lamp.qualT.isSome then .next s
    else
      let tmo := if bits w 23 8 = 0 then s.nat (ky 0x2143 3) else bits w 23 8
      let s := s.setEx x { e with released := true, due := e.stepT + usT (100 * tmo) }
      .next { s with lamp := { s.lamp with lsyncLow := false } }

/-- The executor that has released LSYNC. -/
def State.syncing (s : State) : Option Nat := (List.range 49).find? (fun x => s.exBusy x && (s.exOf x).released)

def execLsyncQualify (t : Time) (s : State) : Step :=
  let s := s.tick t
  match s.syncing with
  | none => .next s
  | some x =>
    let s := (s.setn (ky 0x2143 2) (bits (s.stepWord x) 7 0 : Nat)).setn (ky 0x2143 4) 1
    .next ({ s with lamp := { s.lamp with qualT := some t } }.goNext x 0)

def execLsyncRedrive (t : Time) (s : State) : Step :=
  let s := s.tick t
  match s.lamp.qualT with
  | some q =>
    if q + usT 8 ≤ t then
      .next ({ s with lamp := { s.lamp with qualT := none, lsyncLow := true } }.setn (ky 0x2143 4) 0)
    else .next s
  | none => .next s

def execSyncTimeout (t : Time) (x : Fin 49) (s : State) : Step :=
  let s := s.tick t
  let e := s.exOf x
  if s.exBusy x ∧ e.released ∧ e.due ≤ t then .next (s.endProgram x 0xF3) else .next s

def execContention (t : Time) (s : State) : Step :=
  let s := s.tick t
  if s.lsyncOn ∧ s.lamp.lsyncLow ∧ 2 ≤ s.modeN then
    .next (((s.setn (ky 0x2143 4) 1).event 0xC5 0x0552 0).fault 42 2 0 (s.nat (ky 0x2143 2)))
  else .next s

/-! ## Time limits (R391, R393) -/

def execProgramTimeLimit (t : Time) (x : Fin 49) (s : State) : Step :=
  let s := s.tick t
  let e := s.exOf x
  if s.exBusy x ∧ e.entry ≠ 2 ∧ e.startT + secT e.limit ≤ t then
    .next ((s.event 0xC3 0x0533 (exInst x)).endProgram x 0xF4)
  else .next s

def execShutdownTimeLimit (t : Time) (s : State) : Step :=
  let s := s.tick t
  let e := s.exOf sysEx
  if s.exBusy sysEx ∧ e.entry = 2 ∧ e.startT + msT e.limit ≤ t then
    .next ((s.event 0xC3 0x0533 0xFF).endProgram sysEx 0xF4)
  else .next s

/-- A double-bit error of the program store ends the program that reads it (R392). -/
def State.programEcc (s : State) (x : Nat) : State :=
  if s.exBusy x then (s.event 0xC3 0x0532 (exInst x)).endProgram x 0xF5 else s

/-! ## The button and MR_N (R397, R398) -/

def execPressed (t : Time) (s : State) : Step :=
  let s := s.tick t
  if s.modeN = 0 then .next s
  else .next ({ s with lamp := { s.lamp with pressT := some t, longS := s.nat (ky 0x2144 2), forced := false } }.event 0xC4 0x0541 0)

/-- PB_N released: a short press where it comes before the long-press time. -/
def execShort (t : Time) (s : State) : Step :=
  let s := s.tick t
  match s.lamp.pressT with
  | none => .next s
  | some p =>
    let short := !s.lamp.forced && Nat.blt t (p + secT s.lamp.longS)
    let s := { s with lamp := { s.lamp with pressT := none, forced := false } }
    if !short then .next s
    else
      let s := s.event 0xC4 0x0542 0
      let e := s.nat (ky 0x2144 3)
      .next (if e ≠ 0xFF ∧ !s.exBusy sysEx then s.startProgram sysEx e else s)

/-- Abandon what executor `x` runs. -/
def State.abandon (s : State) (x : Nat) : State :=
  if !s.exBusy x then s
  else
    let s := s.lsyncHold x
    let s := s.setEx x { s.exOf x with released := false }
    (s.setn (exKey x 1) 0).abandoned x

def execForceOff (t : Time) (s : State) : Step :=
  let s := s.tick t
  match s.lamp.pressT with
  | none => .next s
  | some p =>
    if s.lamp.forced ∨ t < p + secT s.lamp.longS then .next s
    else
      let s := { s with lamp := { s.lamp with forced := true, locked := true, upOk := false } }
      let down := s.exBusy sysEx && decide ((s.exOf sysEx).entry = 2)
      let s := ((List.range 49).foldl State.abandon s).allOff
      let s := (s.event 0xC4 0x0543 0).fault 43 1 0 0
      .next (if down ∧ !s.exBusy sysEx then s.shutdownEnded else s)

def execManualReset (t : Time) (s : State) : Step :=
  let s := s.tick t
  if s.modeN = 0 ∨ s.lamp.mr then .next s
  else .next (({ s with lamp := { s.lamp with mr := true } }.event 0xC6 0x0561 0).resetAfterShutdown 3)

end Sys2Proof.Machine
end

