-- ==== Sys2Proof/Machine/Faults.lean ====
section
/-! DEFINITION. The fault collector's commands: occurrences with their sources' own effects, clearing, the watchdog, the lockstep copies,
loss of clock, the die temperature, injection and the SAFE pins (R435, R438 to R448). -/

namespace Sys2Proof.Machine

/-- The element whose record a sash and a record number name: the bank of the sash holds it. -/
def State.elemAt (s : State) (sash q : Nat) : Option (Nat × Nat) := if 192 ≤ sash then none else s.ledElem sash q

/-- The firing engine reads a double-bit galley error in line `d` modulo 65,536 of an open mark of casement `c`, the first such line in trigger
order that does not fire yet: the line is blanked as late data, at its latest start where its load has not started (R116, R432). -/
def State.galleyBad (s : State) (c d : Nat) : State :=
  let x := s.casOf c
  let held (st : LSt) : Bool := st == .waiting || st == .loading || st == .loaded || st == .frozen
  match x.lines_.find? (fun q => decide (q.2 % 65536 = d) && held (q.1.line q.2).st) with
  | some (m, n) =>
    if (m.line n).st = .waiting then s.setOpen c { m with bad := n :: m.bad.filter (· != n) } else s.blankLine c m n .late
  | none => s

/-- The Compositor reads uncorrectable data at MiB `mib` of DRAM (R106, R432): a mark in a unit's bank whose fields are being prepared makes field
error 9. By the area the address lies in it is one that waits for glyph fills, reads its template, or holds a drawn record; which, where
several are, the occurrence does not say (a free value, log 292). -/
def State.dramError (s : State) (mib : Nat) : State :=
  let within (base size : Nat) : Bool :=
    let b := s.frcN base
    decide (b < (mib + 1) * 1048576 ∧ mib * 1048576 < b + s.frcN size)
  let reads (m : Mark) : Bool :=
    (within (ky 0x5000 3) (ky 0x5000 4) && !m.need.isEmpty) || within (ky 0x5000 1) (ky 0x5000 2)
      || (within (ky 0x2503 1) (ky 0x2503 2) && m.draws.any Draw.record)
  let l := s.composing.filter (fun (_, m) => m.unit.isSome && !m.prepared && m.err == 0 && reads m)
  match l with
  | [] => s
  | [(c, m)] => s.fieldError c m 9
  | _ =>
    let (k, s) := s.free 16
    match l[k % l.length]? with
    | some (c, m) => s.fieldError c m 9
    | none => s

/-- Loss of a trusted clock (R446): the internal oscillator, strobes inactive and open marks blank, gates off, axes faulted. -/
def State.clockLoss (s : State) : State :=
  let s := if s.flt.internalClock then s
    else ({ s with flt := { s.flt with internalClock := true } }).event 0xCF 0x0672 0
  let s := (List.range 48).foldl (fun s c =>
    let x := s.casOf c
    (s.setCasement c { x with opened := x.opened.map (fun m => { m with strobeActed := true }) }).stopPulses c) s
  (List.range 48).foldl (fun s a =>
    let x := s.axOf a
    let s := s.putAx a { x with gates := false, chop := [], owed := [] }
    if s.axState a = 0 ∨ s.axState a = 4 then s
    else
      let x := s.axOf a
      ((s.putAx a { x with plan := .rest, vm := 0, chain := [], disV := x.vm, disT := some s.now, braking := false }).setAxState a
        4).setn (oAx a 1 9) 0) s

/-- An error line of bit `b` fires (R438), with what the source's own rule does: the Ledger (R235), the galley (R116), the Compositor (R106), a queue
descriptor (R300), the Notary's memory (R146), a loop slot (R289), the program store (R392), the clocks (R446). -/
def State.errorLine (s : State) (b cause inst detail : Nat) : State :=
  if b ≤ 11 then
    match s.elemAt inst detail with
    | some (c, e) => if inst / 16 = b then s.ledUncorrectable c e else s.fault b cause inst detail
    | none => s.fault b cause inst detail
  else if b ≤ 15 then (if cause = 1 then (s.galleyBad inst detail).fault b cause inst detail else s.fault b cause inst detail)
  else if b = 16 then (if inst = 0 then s.dramError detail else s).fault b cause inst detail
  else if b = 21 then (if 16 ≤ detail ∧ detail < 16384 then s.queueEcc detail else s).fault b cause inst detail
  else if b = 27 then
    let s := if cause = 2 ∧ s.notary.op.isSome then s.setNotary { s.notary with eccHit := true } else s
    s.fault b cause inst detail
  else if b = 39 then (if inst < 64 then s.loopEcc inst else s).fault b cause inst detail
  else if b = 41 ∧ detail = 0xF5 then
    let x := if inst = 0xFF then sysEx else inst
    if s.exBusy x then s.programEcc x else s.fault b cause inst detail
  else if b = 46 ∨ b = 47 then ((s.setLive b true).fault b cause inst detail).clockLoss
  else s.fault b cause inst detail

def execFaultOccurrence (t : Time) (b : Fin 64) (cause inst : Nat) (detail : Nat) (s : State) : Step :=
  let s := s.tick t
  if s.modeN = 0 then .next s else .next (s.errorLine b cause inst detail)

/-! ## Live conditions, clearing and reading (R438, R441, R448) -/

/-- The live conditions: those kept, and the inputs that are stuck on their casements (R42). -/
def State.liveNow (s : State) : BitVec 64 :=
  (List.range 4).foldl (fun v g =>
    if (List.range 12).any (fun i => (List.range 64).any (fun n => (s.ginOf n).stuck && s.takesGin (12 * g + i) n))
    then v ||| BitVec.ofNat 64 (2 ^ (28 + g)) else v) s.flt.live

/-- An occurrence on the clock of the clearing write (R441): the bit stays set, and the occurrence is its first and its last. -/
def State.faultAgain (s : State) (b : Nat) : State :=
  let s := ((s.setn (oFlt b 3) (s.nat (oFlt b 6) : Nat)).setn (oFlt b 4) (s.nat (oFlt b 7) : Nat)).setn (oFlt b 5) 1
  ({ s with flt := { s.flt with setT := (b, s.now) :: offList s.flt.setT b } }).event 0xCD 0x0652 b

/-- Bits written 1 are cleared where their live condition is absent (R441). -/
def State.clearFaults (s : State) (mask : BitVec 64) : State :=
  let live := s.liveNow
  let s := (List.range 55).foldl (fun s b =>
    if !(mask.getLsbD b && s.flt.fsw.getLsbD b) then s
    else if onClock s.flt.lastT b s.now then s.faultAgain b
    else if live.getLsbD b then s.event 0xCD 0x0652 b
    else
      let s := { s with flt := { s.flt with
        fsw := s.flt.fsw &&& ~~~(BitVec.ofNat 64 (2 ^ b)), setT := offList s.flt.setT b, lastT := offList s.flt.lastT b, concern := s.flt.concern.filter (fun p => p.1 != b) } }
      ([3, 4, 5, 6, 7].foldl (fun s i => s.setn (oFlt b i) 0) s).event 0xCD 0x0651 b) s
  (if s.flt.fsw = 0 then s.setn (ky 0x2200 3) 255 else s).errReg

/-- COLL_STATUS (R448). -/
def State.collStatus (s : State) : Nat :=
  b2n s.flt.safeA + 2 * b2n s.flt.safeB + 4 * b2n s.flt.selftest + 8 * b2n s.flt.wdogRestart + 16 * b2n s.flt.internalClock

/-- The levels of SAFE_A and SAFE_B (R445): in heartbeat mode SAFE_B is the inverse of SAFE_A. -/
def State.safePins (s : State) : Bool × Bool :=
  if s.frcN (ky 0x2200 6) = 1 then (s.flt.safeA && s.flt.phase, s.flt.safeB && !s.flt.phase) else (s.flt.safeA, s.flt.safeB)

def execFswLoRead (t : Time) (live : Bool) (s : State) : Step :=
  let s := s.tick t
  if s.modeN = 0 then .next (s.answer .none)
  else
    let v := (if live then s.liveNow else s.flt.fsw).toNat
    let s := if live then { s with flt := { s.flt with latchLive := v / 2 ^ 32 } }
      else { s with flt := { s.flt with latchHi := v / 2 ^ 32 } }
    .next (s.answer (.data (leBytes 4 v)))

/-! ## The watchdog (R442) and the lockstep copies (R443) -/

def execWatchdog (t : Time) (code : Nat) (s : State) : Step :=
  let s := s.tick t
  if s.modeN ≤ 1 ∨ s.flt.clusterHeld ∨ t < s.flt.wdogT + msT s.flt.wdogMs then .next s
  else
    let s := if s.modeN = 7 then s else s.fault 52 1 0 code
    let s := s.event 0xCC 0x0641 0
    .next { s with flt := { s.flt with clusterHeld := true }, net := { s.net with restarting := false } }

def execWatchdogRestartStart (t : Time) (s : State) : Step :=
  let s := s.tick t
  if !s.flt.clusterHeld ∨ s.exBusy sysEx then .next s
  else
    let s := s.beginRestart
    .next { s with flt := { s.flt with wdogRestart := true } }

def execLockstepMismatch (t : Time) (group : Nat) (s : State) : Step :=
  let s := s.tick t
  if s.modeN = 0 then .next s else .next ((s.fault 55 1 0 group).dropSafe)

/-! ## Temperature and clocks -/

def execDieTemperatureMeasure (t : Time) (celsius : Int) (s : State) : Step :=
  let s := s.tick t
  if s.modeN = 0 ∨ !elapsed s.flt.tempT (msT 1) t then .next s
  else
    let c := wrapS 16 celsius
    let s := ({ s with flt := { s.flt with tempT := some t } }).setn (ky 0x2200 8) c
    let lim := s.num (ky 0x2200 7)
    if lim < c then .next ((s.setLive 54 true).fault 54 1 0 (wrapU 16 c).toNat)
    else if c ≤ lim - 5 then .next (s.setLive 54 false)
    else .next s

def execReferenceLost (t : Time) (pll : Option (Fin 2)) (s : State) : Step :=
  let s := s.tick t
  if s.modeN = 0 then .next s
  else .next (match pll with
    | some i => s.errorLine 46 1 i 0
    | none => s.errorLine 47 1 0 0)

/-- In heartbeat mode the pins toggle every 50 us while they permit power. -/
def execSafeHeartbeat (t : Time) (s : State) : Step :=
  let s := s.tick t
  if s.frcN (ky 0x2200 6) = 1 ∧ (s.flt.safeA ∨ s.flt.safeB) ∧ s.flt.beatT + usT 50 ≤ t then
    .next { s with flt := { s.flt with phase := !s.flt.phase, beatT := t } }
  else .next s

/-! ## Injection (R447) -/

/-- The targets of R447 with their instances and details. -/
def injectable (b i d : Nat) : Bool :=
  if b ≤ 11 then decide (i / 16 = b ∧ d < 32768)
  else if b ≤ 15 then decide (i / 12 + 12 = b)
  else if b = 16 then i == 0
  else if b = 21 then decide (i = 0 ∧ 16 ≤ d ∧ d < 16384)
  else if b = 24 then decide (i = 0 ∧ d < 4096)
  else if b = 25 then decide (i < 8 ∧ d < 48)
  else if b = 39 then decide (i < 64 ∧ d = 0)
  else if b = 53 then decide (i < 4 ∧ d = 0)
  else if b = 55 then decide (i < 2 ∧ d = 0)
  else false

/-- The target 55 is accepted in CONFIGURE alone. -/
def State.injectCheck (s : State) : Option Refuse := if s.nat (ky 0x2260 1) = 55 ∧ s.modeN ≠ 2 then some .mode else none

/-- Execute: the injection waits for the next write, or the target is refused with result 3. -/
def State.injectAct (s : State) : State :=
  let n (i : Nat) := s.nat (ky 0x2260 i)
  if injectable (n 1) (n 3) (n 4) then
    { s with flt := { s.flt with arm := some (n 1, n 3, n 4, n 2) } }.setn (ky 0x2260 6) 0xFF
  else s.setn (ky 0x2260 6) 3

/-- A single inverted check bit reads as corrected: the counter of the target, where the spec gives one (R235, R289). -/
def State.injectSingle (s : State) (b i d : Nat) : State :=
  if b ≤ 11 then
    match s.elemAt i d with
    | some (c, _) => s.bump (oCas c 0x10 7)
    | none => s
  else if b = 39 then s.bump (ky 0x2030 8)
  else s

/-- Two inverted check bits raise the bit with INJECTED set and its reaction. -/
def State.injectDouble (s : State) (b i d : Nat) : State :=
  let s := { s with flt := { s.flt with injected := b :: s.flt.injected.filter (· != b) } }
  if 12 ≤ b ∧ b ≤ 15 then
    let (x, s) := s.free 1
    let (l, s) := s.free 16
    s.fault b (1 + x) i l
  else if b = 16 then
    let (r, s) := s.free 8
    s.errorLine b 1 (r % 6) d
  else if b = 55 then
    let (g, s) := s.free 16
    s.errorLine b 1 0 g
  else s.errorLine b 1 i d

def execInjectionRewrite (t : Time) (s : State) : Step :=
  let s := s.tick t
  match s.flt.arm with
  | none => .next s
  | some (b, i, d, k) =>
    let s := { s with flt := { s.flt with arm := none } }.setn (ky 0x2260 6) 0
    let s := if k = 2 ∨ b = 55 then s.injectDouble b i d else s.injectSingle b i d
    .next { s with flt := { s.flt with injected := s.flt.injected.filter (· != b) } }

end Sys2Proof.Machine
end

