-- ==== Sys2Proof/Machine/Store.lean ====
section
/-! DEFINITION. The persistent store's commands (R334 to R337). -/

namespace Sys2Proof.Machine

/-- The sequence number of the next save. -/
def State.nextBank (s : State) : Bank := s.bankNow (match s.bankLive with
  | some b => (b.seq + 1) % 2 ^ 32
  | none => 1)

/-- A save commanded while another commanded one runs is refused (R335). -/
def State.saveCheck (s : State) : Option Refuse :=
  match s.store.saving with
  | some (_, false) => some .state
  | _ => none

/-- A save command accepted: the values of this instant. An automatic save that runs gives way and is owed again (R337). -/
def State.saveAct (s : State) (p : Path) : State :=
  let owed := s.store.autoOwed || s.store.saving.isSome
  ({ s with store := { s.store with saving := some (s.nextBank, false), path := some p, autoOwed := owed } }).answer .waits

/-- The running save's bank is written and verified. -/
def State.saveEnd (s : State) : State :=
  match s.store.saving with
  | none => s
  | some (b, auto) =>
    let s := (s.putBank b)
    let s := { s with store := { s.store with saving := none, path := none } }
    if auto then s else s.answer .ok

def execStoreSaveDone (t : Time) (s : State) : Step := .next (s.tick t).saveEnd

/-- The next reset starts from defaults. -/
def State.restoreAct (s : State) : State := { s with store := { s.store with restoreDefaults := true } }

/-- AUTO_SAVE: a change is owed a save, none runs, and a second has passed since the last one started. -/
def execAutoSave (t : Time) (s : State) : Step :=
  let s := s.tick t
  let due := match s.store.lastAuto with
    | some l => decide (l + secT 1 ≤ t)
    | none => true
  if s.modeN ≤ 1 ∨ s.deaf ∨ !s.store.autoOwed ∨ s.store.saving.isSome ∨ !due then .next s
  else .next { s with store := { s.store with saving := some (s.nextBank, true), lastAuto := some t, autoOwed := false } }

end Sys2Proof.Machine
end

