-- ==== Sys2Proof/Machine/Checks.lean ====
section
/-! DEFINITION. Why a dictionary write is refused (R6, R18, R329 to R332): the checks of its table row, and the rules that relate objects
to one another or to the state of the unit that the write commands. -/

namespace Sys2Proof.Machine

/-! ## The row's own checks -/

/-- A write that the mode does not accept (R6, R332). -/
def modeTakes (mode acc : Nat) : Bool := decide (2 ≤ mode ∧ mode ≤ 7) && bit acc (mode - 2)

/-- Objects that hold the number of a user queue (R3). -/
def namesQueue (k : Nat) : Bool :=
  k == ky 0x2504 1 || k == ky 0x206A 11 ||
    (List.range 48).any (fun c => k == oCas c 0 9 || k == oCas c 0x11 1)

/-- The object and the value of a write that its table row accepts, or the refusal. -/
def State.writeParse (s : State) (idx sub : Nat) (b : Bytes) : Except Refuse (Nat × Nat × Row × Val) :=
  match findRow idx sub with
  | none => .error (if hasIndex idx then .absentSub else .absent)
  | some (base, i, r) =>
    if s.modeN ≠ 7 ∧ r.acc = 0 then .error .readOnly
    else if !modeTakes s.modeN r.acc then .error .mode
    else match decodeVal r.ty b with
      | none => .error .length
      | some v =>
        if namesQueue (ky idx sub) ∧ 0 ≤ v.int ∧ v.int < 16 ∧ !rowRange r v then .error .reservedQueue
        else if !rowRange r v then .error .range
        else .ok (base, i, r, v)

/-! ## Relations between objects -/

/-- A refusal under R18 where `b` holds. -/
def badIf (b : Bool) : Option Refuse := if b then some .range else none

/-- A refusal for the present state where `b` holds. -/
def busyIf (b : Bool) : Option Refuse := if b then some .state else none

/-- The instance fits the source kind (R30). -/
def sourceFits (kind inst : Nat) : Bool :=
  match kind with
  | 1 => Nat.blt inst 16
  | 2 => Nat.blt inst 48
  | 3 => Nat.blt inst 1024
  | _ => true

/-- A daylight rule (R126). -/
def daylightRule (v : Nat) : Bool :=
  v == 0 || (Nat.ble (bits v 26 16) 1439 && Nat.ble 1 (bits v 11 8) && Nat.ble (bits v 11 8) 12 && Nat.ble 1 (bits v 6 4)
    && Nat.ble (bits v 6 4) 5 && Nat.ble 1 (bits v 2 0) && Nat.ble (bits v 2 0) 7
    && bits v 31 27 == 0 && bits v 15 12 == 0 && !bit v 7 && !bit v 3)

/-- The used leap entries from offset `o` on: steps of one, each at the end of a UTC day (R125). -/
def leapChain : Int → List (Int × Int) → Bool
  | _, [] => true
  | o, (e, n) :: r =>
    ((decide (n = o + 1) && decide ((e - o) % 86400 = 0)) || (decide (n = o - 1) && decide ((e - n) % 86400 = 0))) && leapChain n r

/-- The leap table and the configured offset stand under R125. -/
def State.leapOk (s : State) : Bool :=
  let l := leapList s.val
  let used := (List.range 32).filter (fun i => decide (65536 ≤ s.nat (ky 0x2306 (i + 1))))
  l.length == used.length && leapChain (s.num (ky 0x2304 1)) l

/-- Every value of a list is at least the one before it. -/
def ascending : List Nat → Bool
  | a :: b :: r => Nat.ble a b && ascending (b :: r)
  | _ => true

/-- A tally count source (R130). -/
def countSource (v : Nat) : Bool :=
  match v / 256 with
  | 0 => true
  | 1 => Nat.blt (v % 256) 64
  | 2 => Nat.blt (v % 256) 48
  | _ => false

/-- The configured latency can be met at the maximum line rate (R189, R215): the decision point lies far enough ahead by the look-ahead
distance or by the minimum lead time. -/
def State.latencyOk (s : State) (c : Nat) : Bool :=
  let lat := s.num (oCas c 7 2)
  let need := lat + (toNs (s.leadT c) : Int)
  let f := s.num (oCas c 4 0x0D)
  decide (lat ≤ 0) || decide (need ≤ s.num (oCas c 0 7) * 1000) ||
    decide (need * f * s.num (oCas c 0 5) ≤ s.num (oCas c 0 6) * 1000000000)

/-- Some casement is neither ABSENT nor COLD (R77). -/
def State.anyWarm (s : State) : Bool := (List.range 48).any (fun c => decide (2 ≤ s.casState c))

/-- A range that the device alone writes (R355). -/
def State.ownDram (s : State) (a n : Nat) : Bool :=
  overlap a n (s.frcN (ky 0x5000 1)) (s.frcN (ky 0x5000 2)) || overlap a n (s.frcN (ky 0x5000 3)) (s.frcN (ky 0x5000 4)) ||
    overlap a n (s.frcN (ky 0x2503 1)) (s.frcN (ky 0x2503 2)) ||
    (List.range 48).any (fun c => s.frcN (oCas c 3 3) == 1 && overlap a n (s.frcN (oCas c 3 4)) (s.frcN (oCas c 3 5)))

/-- A DRAM access through 0x2070 is accepted. -/
def State.dramAccess (s : State) (n : Nat) : Bool :=
  let a := s.nat (ky 0x2070 1)
  s.inDram a n && !s.ownDram a n

/-- A byte as a signed number. -/
def sByte (v i : Nat) : Int := wrapS 8 (bits v (8 * i + 7) (8 * i))

/-- The commit a check sees: busy, or a validation that fails (R86). -/
def State.commitCheck (s : State) (k : CommitKind) : Option Refuse :=
  if (s.committing k).isSome then some .state
  else badIf ((s.validate k (s.stagedCommit k .bar0)).1 != 0)

/-- The time write (R123). -/
def State.timeWriteCheck (s : State) : Option Refuse :=
  if s.nat (ky 0x2302 1) = 1 ∧ s.nat (ky 0x2300 2) = 3 then some .state
  else badIf (!s.timeOk (s.nat (ky 0x2301 1)))

/-- A fault class may be set to `v` (R432, R434). -/
def classOk (b v : Nat) : Bool := v != 5 && (faultClass b).2.contains v

/-- Relations of the line, the Shutter, the Compositor and time. "Both settings" of R77 are guarded at three objects (DEDUCED, log 315). -/
def State.relLine (s : State) (i key n : Nat) (v : Int) : Option Refuse :=
  match key with
  | 0x270001 => badIf (!sourceFits n (s.nat (oLax i 2)))
  | 0x270005 => badIf (n == i)
  | 0x27A002 | 0x27A003 => badIf (Nat.blt (s.nat (oPls i 3)) (s.nat (oPls i 2)))
  | 0x301101 => badIf (n != 0 && (s.qOf n).enabled && (s.qOf n).typ != 3)
  | 0x300009 => badIf ((n != 0 && (s.qOf n).enabled && (s.qOf n).typ != 1) || n != 0 && (List.range 48).any (fun c => c != i && s.nat (oCas c 0 9) == n))
  | 0x300003 | 0x30000B | 0x27C002 => busyIf s.anyWarm
  | 0x27C004 | 0x27C005 => badIf (s.nat (oRej i 4) == 0 && Nat.blt 10000000 (s.nat (oRej i 5)))
  | 0x300202 => (s.casCheck i n).map Prod.fst
  | 0x300301 => badIf (n % 2 == 1 || Nat.blt 3584 (s.sumTo 47 3 1))
  | 0x300304 | 0x500001 | 0x500003 | 0x250301 | 0x262501 => badIf (n % 4096 != 0)
  | 0x300306 => badIf (Nat.blt 4000 (s.sumTo 47 3 6))
  | 0x500102 | 0x500202 | 0x204102 => badIf (n % 8 != 0)
  | 0x500104 => s.commitCheck .template
  | 0x500204 => s.commitCheck .glyphSet
  | 0x204104 => s.commitCheck .rotorTable
  | 0x501002 => s.pinCheck i n
  | 0x230102 => s.timeWriteCheck
  | 0x230401 => badIf (!s.leapOk)
  | 0x230402 => badIf (v % 15 != 0)
  | 0x230502 | 0x230503 => badIf (!daylightRule n)
  | 0x520103 => busyIf s.keyBusy
  | 0x520202 => busyIf s.keyBusy
  | 0x520307 => s.verifyCheck
  | _ => none

/-- Relations of a casement's port, firing and Ledger. -/
def State.relHead (s : State) (c key n : Nat) : Option Refuse :=
  match key with
  | 0x300401 | 0x300402 | 0x300403 => badIf (!s.sashOk c || (List.range 48).any (s.sashClash c))
  | 0x300507 => s.svcCheck c n
  | 0x30050A | 0x30050B => badIf (decide (s.num (oCas c 5 0x0B) ≤ s.num (oCas c 5 0x0A)))
  | 0x30050C | 0x30050D => badIf (Nat.ble (s.nat (oCas c 5 0x0D)) (s.nat (oCas c 5 0x0C)))
  | 0x300702 => badIf (!s.latencyOk c)
  | 0x300809 => badIf (n != 0)
  | 0x300B02 | 0x300B03 | 0x300B04 => badIf (!ascending [s.nat (oCas c 0x0B 2), s.nat (oCas c 0x0B 3), s.nat (oCas c 0x0B 4)])
  | 0x300C01 => badIf (decide (2 ≤ s.casState c ∧ s.casState c ≤ 4) && !mapFits (s.str (oCas c 0x0C 1)) (s.codeBits c))
  | 0x300D01 => badIf (n == 1 && !s.measEnableOk c)
  | 0x300D0C => badIf (Nat.ble (s.ne c) n)
  | 0x300D0D => s.measSvcCheck c n
  | 0x300E10 | 0x300E11 => badIf (Nat.blt (s.nat (oCas c 0x0E 0x11)) (s.nat (oCas c 0x0E 0x10)))
  | 0x300E18 => badIf (Nat.ble (s.ne c) n)
  | 0x300E19 => badIf (n != 0xFFFFFFFF && Nat.ble (s.ne c) n)
  | 0x300E1A => badIf ((List.range 16).any (fun r =>
      let x := fieldLE (s.str (oCas c 0x0E 0x1A)) (2 * r) 2
      x == 0 || Nat.blt 1022 x))
  | 0x300F06 => badIf (!(Nat.blt n 48 || (Nat.ble 0x80 n && Nat.ble n 0xFC)))
  | 0x301001 => badIf (n != 0 && Nat.ble (s.ne c) n)
  | 0x301002 => if !s.portAIdle c then some .state else badIf (Nat.ble (s.ne c) (s.nat (oCas c 0x10 1)))
  | 0x301003 => badIf (n % 8 != 0)
  | 0x301004 => busyIf (n == 2 && !s.portAIdle c)
  | _ => if 0x300E01 ≤ key ∧ key ≤ 0x300E0E then badIf (!ascending ((List.range 14).map (fun i => s.nat (oCas c 0x0E (i + 1))))) else none

/-- Objects of the power ports, which axes 0 to 15 alone accept (R275). -/
def powerKey (key : Nat) : Bool :=
  (Nat.ble 0x400501 key && Nat.ble key 0x40050C) || (Nat.ble 0x400601 key && Nat.ble key 0x400607)
    || (Nat.ble 0x400701 key && Nat.ble key 0x400709) || key == 0x40070D || key == 0x40070E

/-- Relations of axes, segments and loop slots. -/
def State.relAxis (s : State) (a key n : Nat) (v : Int) : Option Refuse :=
  if 16 ≤ a ∧ powerKey key then some .range
  else match key with
  | 0x400001 => badIf (!kindOk a n || decide (s.stepRateMax a < s.num (oAx a 1 1)))
  | 0x400101 => badIf (decide (s.stepRateMax a < v))
  | 0x400301 | 0x400302 => badIf (decide (s.stepRateMax a < s.num (oAx a 1 1)))
  | 0x400105 => badIf (s.outside a v)
  | 0x400106 => badIf (decide (s.num (oAx a 1 1) < v ∨ v < -s.num (oAx a 1 1)))
  | 0x40010A => busyIf (Nat.blt 1 (s.axState a))
  | 0x400201 => s.axCheck a n
  | 0x400405 | 0x400406 => badIf (decide (s.num (oAx a 4 6) ≤ s.num (oAx a 4 5)))
  | 0x400508 => badIf (n % 4 == 3)
  | 0x400509 =>
    let f (i : Nat) := n / 2 ^ (16 * i) % 65536
    badIf (Nat.blt 320 (f 0) || f 1 == 0 || Nat.blt 1600 (f 1) || f 2 == 0 || Nat.blt 1600 (f 2) || f 3 == 0)
  | 0x400606 => badIf (n / 65536 == 0)
  | 0x400706 => badIf (n % 65536 == 0 || Nat.blt 512 (n % 65536) || n / 65536 == 0)
  | 0x400708 => badIf (n / 65536 == 0)
  | 0x40070B => badIf (Nat.blt (n % 65536) 2 || Nat.blt 100 (n % 65536) || Nat.blt 10000 (n / 65536))
  | 0x204002 => busyIf (s.segBusy (s.nat (ky 0x2040 1)))
  | 0x4A0002 | 0x4A0003 => badIf (Nat.ble (s.nat (oLoop a 0 2)) (s.nat (oLoop a 0 3)))
  | 0x4A0004 | 0x4A0005 | 0x4A0006 | 0x4A0302 => badIf (!selectorOk n)
  | 0x4A0008 | 0x4A0009 => badIf (s.loopClash a || (s.nat (oLoop a 0 8) == 1 && Nat.ble 16 (s.nat (oLoop a 0 9))))
  | 0x4A0201 | 0x4A0202 => badIf (decide (s.num (oLoop a 2 2) < s.num (oLoop a 2 1)))
  | 0x4A0203 | 0x4A0204 => badIf (decide (s.num (oLoop a 2 4) < s.num (oLoop a 2 3)))
  | _ => none

/-- Relations of the host interface, networks, the Lamplighter, one-time memory, modes and faults. -/
def State.relHost (s : State) (i key n : Nat) (b : Bytes) : Option Refuse :=
  match key with
  | 0x101001 => s.saveCheck
  | 0x140002 | 0x180002 => badIf (Nat.blt 240 n && Nat.blt n 254)
  | 0x206005 => badIf (Nat.blt (n / 256) 60 || Nat.blt 90 (n / 256) || Nat.blt (n % 256) 60 || Nat.blt 90 (n % 256))
  | 0x206A0B => badIf (n != 0 && (s.qOf n).enabled && !((s.qOf n).typ == 4 && (s.qOf n).dram))
  | 0x207002 => badIf (!s.dramAccess b.length)
  | 0x210001 => badIf (s.modeN == 7 && n != 3)
  | 0x210103 => busyIf (n == 0xA5 && s.otp.updating.isSome)
  | 0x214003 => busyIf s.anyExec
  | 0x214201 => s.startCheck n
  | 0x218001 | 0x218002 => badIf ((List.range 64).any (s.railClash i))
  | 0x218003 => badIf (n % 4 == 3)
  | 0x221001 => badIf (!classOk i n)
  | 0x226005 => s.injectCheck
  | 0x230807 => badIf (!(decide (-3 ≤ sByte n 2 ∧ sByte n 2 ≤ 4) && decide (-7 ≤ sByte n 1 ∧ sByte n 1 ≤ 4) &&
      decide (-7 ≤ sByte n 0 ∧ sByte n 0 ≤ 6)))
  | 0x250403 => s.doorbellCheck (s.nat (ky 0x2504 1)) (s.nat (ky 0x2504 2))
  | 0x250404 => s.qBytesCheck (s.nat (ky 0x2504 1)) b
  | 0x262103 => (s.otpProgramCheck).map Prod.fst
  | 0x262202 => s.lifecycleCheck
  | 0x262301 => s.otpSysCheck
  | 0x262302 => s.revokeKeyCheck n
  | 0x262401 => s.securityCheck n
  | 0x262503 => s.updateCheck
  | 0x262505 => busyIf (s.otp.updating.isSome || s.nat (ky 0x2625 4) != 0)
  | _ =>
    if 0x206A01 ≤ key ∧ key ≤ 0x206A08 then badIf (Nat.blt 32 (bits n 37 32))
    else if 0x244002 ≤ key ∧ key ≤ 0x244010 then badIf (n != 0xFFFF && (Nat.blt 31 (n / 256) || Nat.blt 47 (n % 256)))
    else if 0x230601 ≤ key ∧ key ≤ 0x230620 then badIf (!s.leapOk)
    else none

/-- Relations of a tally's objects (R129, R130, R132). -/
def State.relTally (s : State) (n sub v : Nat) : Option Refuse :=
  match sub with
  | 0 | 2 => badIf (Nat.blt (s.talLimit n) v)
  | 1 => badIf (Nat.blt (s.talLimit n) (max (s.nat (oTal n 0)) (s.nat (oTal n 2))))
  | 3 => badIf (Nat.blt (2 ^ s.nat (oTal n 1) - 1) v || Nat.blt (s.talLimit n) (max (s.nat (oTal n 0)) (s.nat (oTal n 2))))
  | 6 => badIf (!countSource v)
  | 7 => badIf (v % 2 == 1)
  | _ => none

/-- The refusal of a write of `v` (bytes `b`) to instance `i` of the object, against the state that the write would leave (R349). -/
def State.relCheck (s : State) (base i sub : Nat) (v : Val) (b : Bytes) : Option Refuse :=
  let key := ky base sub
  let n := v.int.toNat
  if base = 0x2380 then s.relTally (2 * i + sub / 64) (sub % 64 - 1) n
  else if 0x3004 ≤ base ∧ base ≤ 0x3010 then s.relHead i key n
  else if (0x4000 ≤ base ∧ base ≤ 0x4A04) ∨ base = 0x2040 then s.relAxis i key n v.int
  else match s.relLine i key n v.int with
    | some r => some r
    | none => s.relHost i key n b

end Sys2Proof.Machine
end

