-- ==== Sys2Proof/Machine/Service.lean ====
section
/-! DEFINITION. The dictionary as the firmware serves it: reads, writes and groups of writes (R329 to R333, R349). -/

namespace Sys2Proof.Machine

/-! ## Reads -/

/-- A page of the defect list (R245). -/
def State.defectPage (s : State) (c : Nat) : Bytes :=
  (((s.casOf c).defects.drop (64 * s.nat (oCas c 0x0E 0x1B))).take 64).flatMap (fun d =>
    leBytes 4 d.elem ++ leBytes 1 d.kind ++ leBytes 3 0 ++ leBytes 8 d.time)

/-- What a write-only object reads as: 0. -/
def zeroVal (ty : OTy) : Val :=
  match ty with
  | .ostr lo _ | .vstr lo _ => .str (List.replicate lo 0)
  | _ => .num 0

/-- The state of the PTP port (R354): a port that is switched on and has exchanged nothing yet listens. -/
def State.ptpState (s : State) : Nat :=
  if s.nat (ky 0x2308 1) = 0 then 1 else if s.nat (ky 0x2308 0x0A) = 1 then 4 else s.nat (ky 0x2308 0x0A)

/-- The value an object reads as: what it holds, or what an engine has at this instant. -/
def State.readVal (s : State) (idx sub : Nat) (base i : Nat) (r : Row) : Val :=
  if r.wo then zeroVal r.ty
  else match ky base sub with
    | 0x203001 => .num (s.loopBudget : Int)
    | 0x204002 => .str (tget zeroSeg s.segs (s.nat (ky 0x2040 1)))
    | 0x207002 => .str (s.dramRead (s.nat (ky 0x2070 1)) (s.nat (ky 0x2070 3)))
    | 0x214002 => .num (s.shadowWord (s.nat (ky 0x2140 1)) : Int)
    | 0x220001 => .num (s.flt.fsw.toNat : Int)
    | 0x220002 => .num (s.liveNow.toNat : Int)
    | 0x220009 => .num (s.collStatus : Int)
    | 0x230001 => .num s.dev
    | 0x23080A => .num (s.ptpState : Int)
    | 0x250404 => .str (s.qBytes (s.nat (ky 0x2504 1)))
    | 0x27000D => .num (s.laxPos i s.now)
    | 0x27000E => .num (s.laxVel i s.now)
    | 0x27000F => .num (s.laxStatus i : Int)
    | 0x300109 => .num (s.available i (s.decN (oCas i 1 7) s.now) : Int)
    | 0x300307 => .num (s.bufferLines i : Int)
    | 0x300703 => .num (if s.frcN (oCas i 7 1) = 1 then s.decI (oCas i 7 2) s.now else wrapS 32 (s.recF i 0x24 4))
    | 0x300E17 => .str (s.defectPage i)
    | 0x301002 => .num (s.recordRead32 i : Int)
    | 0x500007 => .num (((List.range 48).map (fun c => s.frcN (oCas c 3 6))).sum : Nat)
    | 0x500302 => .num ((s.templateQuery (s.nat (ky 0x5003 1))).1 : Int)
    | 0x500303 => .num ((s.templateQuery (s.nat (ky 0x5003 1))).2 : Int)
    | _ => s.val (ky idx sub)

/-- What a read leaves behind: a record found uncorrectable is rewritten and reported, a corrected one is counted (R233, R235). -/
def State.readSide (s : State) (idx sub : Nat) : State :=
  match findRow idx sub with
  | some (0x3010, c, _) =>
    let e := s.nat (oCas c 0x10 1)
    if sub = 2 ∧ e < s.ne c then (s.useRec c e).2.2 else s
  | _ => s

/-- A read (R330, R331): the bytes of the value, or the refusal. -/
def State.dictRead (s : State) (idx sub : Nat) : Except Refuse Bytes :=
  match findRow idx sub with
  | none => .error (if hasIndex idx then .absentSub else .absent)
  | some (base, i, r) =>
    if idx = 0x2070 ∧ sub = 2 ∧ !s.dramAccess (s.nat (ky 0x2070 3)) then .error .range
    else .ok (encodeVal r.ty (s.readVal idx sub base i r))

/-! ## What a write stores -/

/-- Objects whose write goes to an engine and is not held as a value. -/
def notHeld (k : Nat) : Bool :=
  [ky 0x1003 0, ky 0x1010 1, ky 0x1011 1, ky 0x2040 2, ky 0x2070 2, ky 0x2140 2, ky 0x2504 4].contains k ||
    (List.range 48).any (fun c => k == oCas c 0x10 2)

/-- Put a written value into its object: at once, or waiting under R65. -/
def State.writeVal (s : State) (k : Nat) (r : Row) (v : Val) : State :=
  if (r.wo && r.te != .sub) || notHeld k then s
  else if r.te = .decision then s.setDec k v
  else s.setv k v

/-! ## What a write starts -/

/-- A change for the marks decided from 2 us on (R65). -/
def State.addChange (s : State) (c : Change) : State := { s with comp := { s.comp with changes := s.comp.changes ++ [(s.now, c)] } }

/-- A preset of line axis `k`: position and recorded increments move together. The offset of a fabric source is left as it is, so the next
POSITION frame places such an axis anew (DESIGN CHOICE, log 282). -/
def State.laxPreset (s : State) (k : Nat) (v : Int) : State :=
  let x := s.laxOf k
  let d := v * step32 - s.laxP32 33 k s.now
  let x := match x.follow with
    | some _ => { x with foff := x.foff + d }
    | none => x.at32 (x.pos32 + d)
  s.setLax k { x with incs := x.incs.map (fun (t, p) => (t, p + d)), hist := [], ext := v }

/-- A commit accepted: alone it validates in time (R85), within a group or a queued request it is validated in the same service. -/
def State.commitNow (s : State) (k : CommitKind) (p : Path) (alone : Bool) : State :=
  let s := s.commitAct k p
  if alone then s
  else match s.committing k with
    | some c => (((s.setCommitting k none).endCommit k c).2).answer .ok
    | none => s

/-- A user trim has changed: the effective value, and an automatic save (R333, R337). -/
def State.trimAct (s : State) (idx base sub : Nat) : State :=
  { s.recal idx base (sub - 0x20) with store := { s.store with autoOwed := true } }

/-- Blocks that hold user trims. -/
def hasTrim (base : Nat) : Bool := [0x4801, 0x2303, 0x3800, 0x2610, 0x2600, 0x2401].contains base

/-- Act on a write of the line, the Shutter, the Compositor, time or the Notary. `s0` is the state before the write. -/
def State.actLine (s0 s : State) (p : Path) (alone : Bool) (i key n : Nat) (v : Int) : State :=
  match key with
  | 0x270001 => s.setLax i { s.laxOf i with pend := some (n, s.nat (oLax i 2)) }
  | 0x270010 => s.laxPreset i v
  | 0x274003 => { s with gin := (s0.ginTimers (s0.nat (oGin i 3)) s.now).gin }
  | 0x27A001 => if s0.nat (oPls i 1) = 0xFF ∧ n ≠ 0xFF then s.plsEnable i else s
  | 0x27A003 => s.plsRescale i (s0.nat (oPls i 3)) n
  | 0x300202 => s.casAct i n
  | 0x500104 => s.commitNow .template p alone
  | 0x500204 => s.commitNow .glyphSet p alone
  | 0x204104 => s.commitNow .rotorTable p alone
  | 0x230102 =>
    let w := s.nat (ky 0x2301 1)
    if n = 1 then { s with clk := { s.clk with staged := some (w, s.now) } } else s.applyTime w
  | 0x520103 => s.importAct
  | 0x520202 => s.revokeAct
  | 0x520307 => s.verifyAct
  | 0x501002 => s.pinAct i (s0.pinned i)
  | 0x521005 =>
    if s0.nat (ky (0x5210 + i) 5) = n then s else
    let s := { (s.event 0xF7 0x0A22 i [BitVec.ofNat 8 n]) with store := { s.store with autoOwed := true } }
    if n = 0 then s.addChange (.disable i) else s
  | _ => s

/-- Act on a write of a casement's port or Ledger, of an axis, a segment or a loop slot. -/
def State.actUnit (s : State) (i key n : Nat) (v : Int) (b : Bytes) : State :=
  match key with
  | 0x300507 => s.svcAct i n
  | 0x300D0D => s.measSvcAct i n
  | 0x300E18 => s.addChange (.declare i n)
  | 0x300E19 => s.addChange (.clear i n)
  | 0x300F02 => s.addChange (.newSupply i (s.nat (oCas i 0x0F 1)))
  | 0x300F0B => if s.nat (oCas i 0x0F 5) = 2 then s.addChange (.hostSensor i n) else s
  | 0x300F0C | 0x300F0D | 0x300F0E => s.consumableStatus i
  | 0x300F10 => s.addChange (.consume i n)
  | 0x301002 => s.recordPut i n
  | 0x301004 => if n = 1 then s.ledgerExport i else s.ledgerImport i
  | 0x40010A => s.axPreset i v
  | 0x480001 => s.setEnc i { s.encOf i with angKnown := false, last := none, low := false }
  | 0x400201 => s.axAct i n
  | 0x204002 => s.segWrite b
  | 0x4A0001 => s.loopModeWrite i
  | 0x4A010B => s.loopApply i
  | _ => s

/-- Act on a write of the host interface, the store, the Lamplighter, one-time memory, modes or faults. -/
def State.actHost (s : State) (p : Path) (alone : Bool) (i key n : Nat) (b : Bytes) : State :=
  match key with
  | 0x100300 => (List.range 17).foldl (fun s j => s.setn (ky 0x1003 j) 0) s
  | 0x101001 => if alone then s.saveAct p else (s.saveAct p).saveEnd
  | 0x101101 => s.restoreAct
  | 0x207002 => s.dramWrite (s.nat (ky 0x2070 1)) b
  | 0x210001 => s.modeRequest n
  | 0x210103 => if n = 0x5A then s.resetAfterShutdown 4 else s.beginRestart
  | 0x214002 => s.shadowWrite n
  | 0x230801 => s.setn (ky 0x2308 0x0A) 1
  | 0x214003 => s.lampCommit
  | 0x214201 => s.startAct n
  | 0x220004 => s.clearFaults (BitVec.ofNat 64 n)
  | 0x221002 => if i = 55 then s.setn (oFlt 55 2) (n ||| 2 : Nat) else s
  | 0x226005 => s.injectAct
  | 0x250403 => s.doorbell (s.nat (ky 0x2504 1)) (s.nat (ky 0x2504 2))
  | 0x250404 => s.qBytesWrite (s.nat (ky 0x2504 1)) b
  | 0x262103 => s.otpProgramAct
  | 0x262202 => s.lifecycleAct
  | 0x262301 => s.policyAct (n == 0xA5)
  | 0x262302 => s.revokeKeyAct n
  | 0x262401 => s.securityAct n
  | 0x262503 => s.updateAct
  | 0x262505 => s.beginRestart
  | _ => s

/-- What an accepted write starts, once every value is in place. -/
def State.act (s0 s : State) (p : Path) (alone : Bool) (idx base i sub : Nat) (v : Val) (b : Bytes) : State :=
  let key := ky base sub
  let n := v.int.toNat
  if base = 0x2380 then
    let t := 2 * i + sub / 64
    if sub % 64 = 1 then (s.talWrite t n).addChange (.tally t) else s
  else if hasTrim base then s.trimAct idx base sub
  else if (0x3003 ≤ base ∧ base ≤ 0x3010) ∨ (0x4000 ≤ base ∧ base ≤ 0x4A04) ∨ base = 0x2040 then s.actUnit i key n v.int b
  else (State.actLine s0 s p alone i key n v.int).actHost p alone i key n b

/-- What a refused write leaves all the same: result objects and events that the rules give to a refusal (R81, R86, R245, R252, R392,
R406, R414, R144). `w` is the state that the write, or the group it is in, would leave. -/
def State.refusedSide (s w : State) (base i sub : Nat) (n : Nat) (r : Refuse) : State :=
  let commit (k : CommitKind) : State :=
    let c := w.stagedCommit k .bar0
    if r = .state then s.failCommit k c.number 1
    else if r = .range then s.failCommit k c.number (w.validate k c).1
    else s
  match ky base sub with
  | 0x300202 =>
    if n = 1 ∧ (w.casCheck i 1).map Prod.snd = some true then
      (if w.misfit i (s.casOf i).recd then s.setn (oCas i 5 2) 4 else s).event i 9 i
    else s
  | 0x500104 => commit .template
  | 0x500204 => commit .glyphSet
  | 0x204104 => commit .rotorTable
  | 0x301004 => if n = 2 ∧ r = .state then s.setn (oCas i 0x10 5) 1 else s
  | 0x400201 => if n = 5 ∧ r = .state then s.axRunRefused i else s
  | 0x214003 => if r = .state then s.lampCommit else s
  | 0x262103 =>
    match w.otpProgramCheck with
    | some (_, some c) => s.setn (ky 0x2621 4) (c : Nat)
    | _ => s
  | 0x262503 => if r = .state then s.setn (ky 0x2625 4) 9 else s
  | 0x520103 => if r = .state then s.setv (ky 0x5201 2) (.str (List.replicate 32 0)) else s
  | _ => s

/-! ## Writes -/

/-- One write: the state after it, and the refusal if it is refused. `alone` lets a commit or a save end in its own time. -/
def State.writeOne (s : State) (p : Path) (alone : Bool) (idx sub : Nat) (b : Bytes) : State × Option Refuse :=
  match s.writeParse idx sub b with
  | .error r => (s, some r)
  | .ok (base, i, row, v) =>
    let s' := s.writeVal (ky idx sub) row v
    match s'.relCheck base i sub v b with
    | some r => (s.refusedSide s' base i sub v.int.toNat r, some r)
    | none => (State.act s (s'.answer .ok) p alone idx base i sub v b, none)

/-- A parsed write of a group. -/
abbrev Parsed := Nat × Nat × Nat × Nat × Row × Val × Bytes

/-- A group of writes with one time stamp (R343, R349): all are checked against the state that all of them leave, and all are applied or
none. Answers a refusal for each write that fails, with what the rules give to each refusal. -/
def State.groupWrite (s : State) (p : Path) (ws : List (Nat × Nat × Bytes)) : State × List (Option Refuse) :=
  let parsed : List (Except Refuse Parsed) := ws.map (fun (idx, sub, b) =>
    (s.writeParse idx sub b).map (fun (base, i, row, v) => (idx, sub, base, i, row, v, b)))
  let good : List Parsed := parsed.filterMap (fun x => x.toOption)
  let s' := good.foldl (fun s (idx, sub, _, _, row, v, _) => s.writeVal (ky idx sub) row v) s
  let verdict := parsed.zipIdx.map (fun (x, j) => match x with
    | .error r => some r
    | .ok (idx, sub, base, i, row, v, b) =>
      if row.wo ∧ (parsed.take j).any (fun y => match y with
          | .ok (idx', sub', _) => idx' == idx && sub' == sub
          | .error _ => false) then some .state
      else s'.relCheck base i sub v b)
  if verdict.all Option.isNone then
    (good.foldl (fun a (idx, sub, base, i, _, v, b) => State.act s a p false idx base i sub v b) (s'.answer .ok), verdict)
  else
    ((parsed.zip verdict).foldl (fun a (x, r) => match x, r with
      | .ok (_, sub, base, i, _, v, _), some r => a.refusedSide s' base i sub v.int.toNat r
      | _, _ => a) s, verdict)

/-! ## Access over a path -/

/-- Does CANopen node `i` serve USDO (R341, R342)? -/
def State.usdoServed (s : State) (i : Nat) : Bool := s.canOn i && (s.canOf i).nmt != 4

/-- A dictionary write over a path: unanswered in OFF and BOOT, held over a firmware restart (R332). No BAR0 register carries it. -/
def State.dictWrite (s : State) (p : Path) (idx sub : Nat) (b : Bytes) : State :=
  match p with
  | .bar0 => s.answer (.refused .absent)
  | p =>
    let served : Bool := match p with
      | .usdo i => s.usdoServed i
      | _ => true
    if s.modeN ≤ 1 ∨ !served then s.answer .none
    else if s.deaf then ({ s with net := { s.net with held := s.net.held ++ [Held.write p idx sub b] } }).answer .waits
    else
      match s.writeOne p true idx sub b with
      | (s, some r) => s.answer (.refused r)
      | (s, none) => s

/-- A dictionary read over a path. `bad`: DRAM data read through 0x2070 is uncorrectable (R355). -/
def State.dictReadOn (s : State) (p : Path) (idx sub : Nat) (bad : Bool) : State :=
  let served : Bool := match p with
    | .bar0 => false
    | .usdo i => s.usdoServed i
    | _ => true
  if s.modeN ≤ 1 ∨ !served then s.answer .none
  else if s.deaf then ({ s with net := { s.net with held := s.net.held ++ [Held.read p idx sub] } }).answer .waits
  else
    match s.dictRead idx sub with
    | .error r => s.answer (.refused r)
    | .ok d =>
      if bad ∧ idx = 0x2070 ∧ sub = 2 then
        (s.fault 16 1 5 (s.nat (ky 0x2070 1) / 1048576)).answer (.refused .range)
      else (s.readSide idx sub).answer (.data d)

/-! ## Dictionary queues and the mailbox (R307) -/

/-- STATUS and REASON of a refusal (R331). -/
def statusOf (r : Refuse) : Nat × Nat :=
  match r with
  | .mode | .state | .queueState | .channelBusy | .window => (1, 1)
  | .range | .doorbellRange => (1, 2)
  | .readOnly => (1, 3)
  | .reservedQueue => (1, 4)
  | .kdpSource => (1, 5)
  | .absent | .absentSub => (2, 0)
  | .length => (3, 0)
  | .address => (4, 0)
  | .op => (5, 0)

/-- The CANopen FD USDO abort code of a refusal (R331). -/
def abortCode (r : Refuse) : Nat :=
  match r with
  | .mode | .state | .queueState | .channelBusy | .window => 0x08000022
  | .op => 0x05040001
  | .range | .doorbellRange => 0x06090030
  | .readOnly => 0x06010002
  | .reservedQueue | .kdpSource => 0x08000020
  | .absent => 0x06020000
  | .absentSub => 0x06090011
  | .length | .address => 0x06070010

/-- An entry answered: STATUS, REASON, LENGTH and inline data. -/
def answerEntry (e : Bytes) (st : Nat × Nat) (len : Nat) (data : Option Bytes) : Bytes :=
  sliceB e 0 6 ++ leBytes 1 st.1 ++ leBytes 1 st.2 ++ leBytes 4 len ++ sliceB e 12 12 ++ (match data with
    | some d => sliceB d 0 40
    | none => sliceB e 24 40)

/-- Serve one dictionary entry: the answered entry and the state. -/
def State.serveEntry (s : State) (p : Path) (e : Bytes) : Bytes × State :=
  let idx := fieldLE e 2 2
  let sub := fieldLE e 4 1
  let fl := fieldLE e 5 1
  let len := fieldLE e 8 4
  let a := fieldLE e 0x18 8
  let refuse (s : State) (r : Refuse) : Bytes × State := (answerEntry e (statusOf r) len none, s.answer (.refused r))
  let unusable := bit fl 0 && bit fl 1 && !s.inDram a len
  match fieldLE e 1 1 with
  | 1 =>
    match s.dictRead idx sub with
    | .error r => refuse s r
    | .ok d =>
      if len < d.length ∨ (!bit fl 0 ∧ 40 < d.length) then refuse s .length
      else if bit fl 0 then
        if unusable then refuse s .address
        else (answerEntry e (0, 0) d.length none, ((s.readSide idx sub).memWrite (bit fl 1) a d).answer (.data d))
      else (answerEntry e (0, 0) d.length (some d), (s.readSide idx sub).answer (.data d))
  | 2 =>
    if !bit fl 0 ∧ 40 < len then refuse s .length
    else if unusable then refuse s .address
    else
      let d := if bit fl 0 then s.memRead (bit fl 1) a len else sliceB e 0x18 len
      match s.writeOne p false idx sub d with
      | (s, some r) => refuse s r
      | (s, none) => (answerEntry e (0, 0) len none, s)
  | _ => refuse s .op

/-- DICTIONARY_REQUEST: the firmware serves the oldest outstanding request and answers it in its slot. -/
def execDictionaryRequest (t : Time) (s : State) : Step :=
  let s := s.tick t
  if s.modeN ≤ 1 ∨ s.deaf then .next s
  else match s.host.reqs with
    | [] => .next s
    | r :: rest =>
      let s := { s with host := { s.host with reqs := rest } }
      match r.queue with
      | none =>
        let (e, s) := s.serveEntry .mailbox r.entry
        .next { s with host := { s.host with mbox := e, mboxBusy := false } }
      | some q =>
        let (e, s) := s.serveEntry (.queue q) r.entry
        let d := s.qOf q
        let s := s.memWrite d.dram (d.slot r.index) e
        let s := s.setQ q { d with count := (d.count + 1) % 2 ^ 32 }
        .next ((s.popEntry q).queueIrq q 1)

end Sys2Proof.Machine
end

