-- ==== Sys2Proof/Machine/Networks.lean ====
section
/-! DEFINITION. The dictionary networks: CANopen FD (R340 to R344), KDP on UDP (R346 to R352), PTP (R353), and the end of a firmware
restart, which serves what waited (R332, R413, R424). -/

namespace Sys2Proof.Machine

/-! ## CANopen FD -/

/-- The device event of CAN FD controller `i`. -/
abbrev canEvent (i : Nat) : Nat := 0xF8 + i

/-- Node `i` is enabled and its controller takes part in the bus. -/
def State.canUp (s : State) (i : Nat) : Bool := s.canOn i && s.nat (ky (0x2060 + i) 6) != 2

/-- A USDO transfer on node `i` (R341). -/
def execUsdoRequest (t : Time) (i : Fin 2) (idx : BitVec 16) (sub : BitVec 8) (write : Option Bytes) (s : State) : Step :=
  let s := s.tick t
  .next (match write with
    | some b => s.dictWrite (.usdo i) idx.toNat sub.toNat b
    | none => s.dictReadOn (.usdo i) idx.toNat sub.toNat false)

/-! ### PDO (R341, R343) -/

/-- Is PDO `n` carried on controller `i`: 0x2062:03 for RPDOs, 0x2062:04 for TPDOs? -/
def State.pdoRouted (s : State) (tx : Bool) (i n : Nat) : Bool := bit (s.frcN (ky 0x2062 (if tx then 4 else 3))) (2 * n + i)

/-- PDO `n` (parameters at `base + n`) exists: bit 31 of its COB-ID is 0 (log 13). -/
def State.pdoValid (s : State) (base n : Nat) : Bool := !bit (s.nat (ky (base + n) 1)) 31

/-- The mapping of a PDO: index, sub-index and bytes of each mapped object. -/
def State.pdoMap (s : State) (base n : Nat) : List (Nat × Nat × Nat) :=
  (List.range (min 32 (s.nat (ky (base + n) 0)))).map (fun j =>
    let e := s.nat (ky (base + n) (j + 1))
    (e / 65536, e / 256 % 256, e % 256 / 8))

/-- Node `i` carries PDO `n` now. -/
def State.pdoServed (s : State) (tx : Bool) (i n : Nat) : Bool :=
  s.canUp i && (s.canOf i).nmt == 5 && s.pdoRouted tx i n && s.pdoValid (if tx then 0x1800 else 0x1400) n

/-- The writes that the data of an RPDO carries; a dummy entry (a data type's index) carries none. -/
def pdoWrites : List (Nat × Nat × Nat) → Bytes → List (Nat × Nat × Bytes)
  | [], _ => []
  | (idx, sub, n) :: r, b =>
    if idx < 0x20 then pdoWrites r (b.drop n) else (idx, sub, b.take n) :: pdoWrites r (b.drop n)

/-- A refused RPDO: event PDO_REFUSED, and EMCY 0xFF10 once until one of its number is accepted. -/
def State.pdoRefused (s : State) (i n : Nat) : State :=
  let s := s.event (canEvent i) 0x0B04 i [BitVec.ofNat 8 n]
  let x := s.canOf i
  if x.rpdoBad.contains n then s
  else ((s.setCan i { x with rpdoBad := n :: x.rpdoBad }).pushError 0xFF10).emcyNode i 0xFF10 []

/-- An RPDO applied: all its writes with one time stamp, or none. -/
def State.pdoApply (s : State) (i : Fin 2) (n : Nat) (data : Bytes) : State :=
  let (s', verdict) := s.groupWrite (.usdo i) (pdoWrites (s.pdoMap 0x1600 n) data)
  if verdict.all Option.isNone then
    let x := s'.canOf i
    { s'.setCan i { x with rpdoBad := x.rpdoBad.filter (· != n) } with resp := s.resp }
  else s'.pdoRefused i n

/-- An RPDO received: held over a restart, checked and applied, or checked and kept for the next SYNC. -/
def State.rpdo (s : State) (i : Fin 2) (n : Nat) (data : Bytes) : State :=
  if !s.pdoServed false i n then s
  else if s.deaf then { s with net := { s.net with held := s.net.held ++ [Held.rpdo i n data] } }
  else if s.nat (ky (0x1400 + n) 2) ≤ 240 then
    let (s', verdict) := s.groupWrite (.usdo i) (pdoWrites (s.pdoMap 0x1600 n) data)
    if verdict.all Option.isNone then
      let x := s.canOf i
      s.setCan i { x with rpdoWait := tset (fun _ => []) x.rpdoWait n data, rpdoBad := x.rpdoBad.filter (· != n) }
    else s'.pdoRefused i n
  else s.pdoApply i n data

def execRpdoReceive (t : Time) (i : Fin 2) (n : Fin 16) (data : Bytes) (s : State) : Step := .next ((s.tick t).rpdo i n data)

/-- The data of a TPDO: its mapped objects as they read at this instant. -/
def State.tpdoData (s : State) (n : Nat) : Bytes :=
  (s.pdoMap 0x1A00 n).flatMap (fun (idx, sub, k) => match s.dictRead idx sub with
    | .ok d => sliceB d 0 k
    | .error _ => List.replicate k 0)

/-- TPDO `n` sampled and sent on node `i`. -/
def State.tpdoSend (s : State) (i n : Nat) : State :=
  let x := s.canOf i
  (s.setCan i { x with tpdoLast := tset (fun _ => 0) x.tpdoLast n s.now }).send (.tpdo i n (s.tpdoData n))

/-- A TPDO's event: it is sampled and sent, past its inhibit time; one of type 0 is sampled at the next SYNC instead. -/
def execTpdoTransmit (t : Time) (i : Fin 2) (n : Fin 16) (s : State) : Step :=
  let s := s.tick t
  let x := s.canOf i
  let ty := s.nat (ky (0x1800 + n) 2)
  if !s.pdoServed true i n then .next s
  else if ty = 0 then .next (s.setCan i { x with tpdoSync := tset (fun _ => 0) x.tpdoSync n 1 })
  else if ty ≤ 240 ∨ t < tget (fun _ => 0) x.tpdoLast n + usT (100 * s.nat (ky (0x1800 + n) 3)) then .next s
  else .next (s.tpdoSend i n)

/-- TPDO `n` at a SYNC with its counter: sent at every type-th SYNC counted from its start value, or, with type 0, after its event. -/
def State.tpdoAtSync (s : State) (i counter n : Nat) : State :=
  let x := s.canOf i
  let ty := s.nat (ky (0x1800 + n) 2)
  let k := tget (fun _ => 0) x.tpdoSync n
  let put (v : Nat) : State := s.setCan i { x with tpdoSync := tset (fun _ => 0) x.tpdoSync n v }
  if !s.pdoServed true i n ∨ 240 < ty then s
  else if ty = 0 then (if k = 0 then s else (put 0).tpdoSend i n)
  else
    let start := s.nat (ky (0x1800 + n) 6)
    if k = 0 ∧ start ≠ 0 ∧ 2 ≤ s.nat (ky 0x1019 0) ∧ counter ≠ start then s
    else
      let k' := k % ty + 1
      if k' = ty then (put k').tpdoSend i n else put k'

/-- A SYNC on node `i` (R343): synchronous TPDOs are sampled at this instant, then the synchronous RPDOs that wait are applied. -/
def State.syncOn (s : State) (i : Fin 2) (counter : Nat) : State :=
  let s := (List.range 16).foldl (fun s n => s.tpdoAtSync i counter n) s
  if s.deaf then s
  else
    let w := (s.canOf i).rpdoWait
    w.foldl (fun s (n, d) => s.pdoApply i n d) (s.setCan i { s.canOf i with rpdoWait := [] })

def execSyncReceive (t : Time) (i : Fin 2) (counter : Nat) (s : State) : Step :=
  let s := s.tick t
  if s.canUp i ∧ (s.canOf i).nmt = 5 then .next ((s.setCan i { s.canOf i with sync := counter }).syncOn i counter) else .next s

/-- SYNC produced: bit 30 of 0x1005 and a period (0x1006, us) are set and the period has run; the counter of 0x1019 runs from 1. -/
def execSyncProduce (t : Time) (i : Fin 2) (s : State) : Step :=
  let s := s.tick t
  let x := s.canOf i
  let top := s.nat (ky 0x1019 0)
  let c := if 2 ≤ top then x.sync % top + 1 else 0
  if !s.canUp i ∨ x.nmt = 4 ∨ !bit (s.nat (ky 0x1005 0)) 30 ∨ s.nat (ky 0x1006 0) = 0
      ∨ !elapsed x.syncT (usT (s.nat (ky 0x1006 0))) t then .next s
  else .next (((s.setCan i { x with sync := c, syncT := some t }).send (.canSync i c)).syncOn i c)

/-! ### NMT, heartbeat and errors (R340 to R342, R344) -/

/-- The node's communication objects take their saved values, and the node sends its boot-up message. -/
def State.commReset (s : State) (i : Nat) : State :=
  let saved := (s.bankLive.map Bank.vals).getD []
  let keys := (s.obj.map Prod.fst ++ saved.map Prod.fst).filter (fun k => decide (0x1000 ≤ k / 256 ∧ k / 256 < 0x2000) && keySaved k)
  let s := keys.foldl (fun s k => s.setv k (tget dfl saved k)) s
  (s.setCan i { s.canOf i with rpdoWait := [], sync := 0, tpdoSync := [] }).send (.heartbeat i 0)

/-- An NMT command that is ignored. -/
def State.nmtIgnored (s : State) (i : Nat) : State :=
  let x := s.canOf i
  (s.setCan i { x with ignored := (x.ignored + 1) % 2 ^ 32 }).event (canEvent i) 0x0B03 i

/-- An NMT command to node `i` (R342). -/
def State.nmtDo (s : State) (i : Nat) (c : NmtCmd) : State :=
  match c with
  | .start => if s.modeN = 3 then s.modeRequest 4 else s.nmtIgnored i
  | .preop =>
    if s.modeN = 4 then s.modeRequest 3
    else if s.modeN = 7 then [0, 1].foldl (fun s j => s.setCan j { s.canOf j with nmt := 0x7F }) s
    else s.nmtIgnored i
  | .stop => if s.nat (ky 0x2062 1) = 1 then s.modeRequest 7 else s.nmtIgnored i
  | .resetComm => s.commReset i
  | .resetNode =>
    let s := s.commReset i
    if s.nat (ky 0x2062 2) = 1 then s.beginRestart else s

/-- An NMT command received: it waits over a firmware restart. -/
def State.nmt (s : State) (i : Nat) (c : NmtCmd) : State :=
  if !s.canUp i then s
  else if s.deaf then { s with net := { s.net with held := s.net.held ++ [Held.nmt i c] } }
  else s.nmtDo i c

def execNmtStartRemoteNode (t : Time) (i : Fin 2) (s : State) : Step := .next ((s.tick t).nmt i .start)
def execNmtEnterPreoperational (t : Time) (i : Fin 2) (s : State) : Step := .next ((s.tick t).nmt i .preop)
def execNmtStopRemoteNode (t : Time) (i : Fin 2) (s : State) : Step := .next ((s.tick t).nmt i .stop)
def execNmtResetCommunication (t : Time) (i : Fin 2) (s : State) : Step := .next ((s.tick t).nmt i .resetComm)
def execNmtResetNode (t : Time) (i : Fin 2) (s : State) : Step := .next ((s.tick t).nmt i .resetNode)

/-- The heartbeat consumer entry `slot`, with a node and a time set, missed its heartbeat. -/
def execHeartbeatTimeout (t : Time) (i : Fin 2) (slot : Fin 8) (s : State) : Step :=
  let s := s.tick t
  let e := s.nat (ky 0x1016 (slot + 1))
  if !s.canUp i ∨ e % 65536 = 0 ∨ bits e 22 16 = 0 then .next s
  else .next (s.event (canEvent i) 0x0B05 i [BitVec.ofNat 8 (bits e 22 16)])

/-- The heartbeat producer time of 0x1017 (ms) runs out. -/
def execHeartbeatProduce (t : Time) (i : Fin 2) (s : State) : Step :=
  let s := s.tick t
  let x := s.canOf i
  if !s.canUp i ∨ s.nat (ky 0x1017 0) = 0 ∨ !elapsed x.hbT (msT (s.nat (ky 0x1017 0))) t then .next s
  else .next ((s.setCan i { x with hbT := some t }).send (.heartbeat i x.nmt))

/-- A waiting EMCY is sent, and the inhibit time runs again. -/
def State.emcyNext (s : State) (i : Nat) : State :=
  let x := s.canOf i
  match x.emcyWait with
  | (code, data) :: rest =>
    if !s.canUp i ∨ x.nmt = 4 ∨ s.now < x.inhibitEnd then s
    else (s.setCan i { x with emcyWait := rest, inhibitEnd := s.now + usT (100 * s.nat (ky 0x1015 0)) }).send (.emcy i code data)
  | [] => s

def execEmcyInhibitExpiry (t : Time) (i : Fin 2) (s : State) : Step := .next ((s.tick t).emcyNext i)

/-- A new bus state of controller `i` (0x2060 + i:06), with the event of its change. -/
def State.busState (s : State) (i v cause : Nat) : State := ((s.setn (ky (0x2060 + i) 6) (v : Nat)).errReg).event (canEvent i) cause i

def execBusOff (t : Time) (i : Fin 2) (s : State) : Step :=
  let s := s.tick t
  if !s.canUp i then .next s else .next (s.busState i 2 0x0B01)

def execBusOffRecovery (t : Time) (i : Fin 2) (s : State) : Step :=
  let s := s.tick t
  if s.nat (ky (0x2060 + i) 6) ≠ 2 then .next s
  else .next (((s.setn (ky (0x2060 + i) 6) 0).errReg).emcyNext i)

def execErrorPassive (t : Time) (i : Fin 2) (passive : Bool) (s : State) : Step :=
  let s := s.tick t
  let v := b2n passive
  if !s.canUp i ∨ s.nat (ky (0x2060 + i) 6) = v then .next s else .next (s.busState i v 0x0B02)

/-! ## Ethernet (R339, R346) -/

/-- The device event of Ethernet MAC `m`. -/
abbrev macEvent (m : Nat) : Nat := 0xFA + m

/-- MAC `m` is enabled and its link is up. -/
def State.macUp (s : State) (m : Nat) : Bool :=
  s.frcN (ky (0x2068 + m) 1) == 1 && decide (2 ≤ s.modeN) && s.nat (ky (0x2068 + m) 9) != 0

/-- The link comes up at 100 (1) or 1,000 Mb/s (2); a configured speed fixes it. -/
def execEthernetLinkUp (t : Time) (m : Fin 2) (speed : Nat) (s : State) : Step :=
  let s := s.tick t
  let cfg := s.frcN (ky (0x2068 + m) 2)
  let v := if cfg = 0 then speed else cfg
  if s.frcN (ky (0x2068 + m) 1) ≠ 1 ∨ s.modeN ≤ 1 ∨ v = 0 ∨ 2 < v ∨ s.nat (ky (0x2068 + m) 9) = v then .next s
  else .next ((s.setn (ky (0x2068 + m) 9) (v : Nat)).event (macEvent m) 0x0B06 m [BitVec.ofNat 8 v])

def execEthernetLinkDown (t : Time) (m : Fin 2) (s : State) : Step :=
  let s := s.tick t
  if !s.macUp m then .next s else .next ((s.setn (ky (0x2068 + m) 9) 0).event (macEvent m) 0x0B07 m)

/-- An ARP request for the address of MAC `m` is answered to its sender. -/
def execArpRequest (t : Time) (m : Fin 2) (target sender : BitVec 32) (senderMac : BitVec 48) (s : State) : Step :=
  let s := s.tick t
  let ip := s.frcN (ky (0x2068 + m) 4)
  if !s.macUp m ∨ target.toNat ≠ ip then .next s
  else .next (s.send (.arp m (s.frcN (ky (0x2068 + m) 3)) ip senderMac.toNat sender.toNat))

/-- An ICMP echo request to the address of MAC `m` is answered with its data. -/
def execIcmpEcho (t : Time) (m : Fin 2) (src dst : BitVec 32) (data : Bytes) (s : State) : Step :=
  let s := s.tick t
  if !s.macUp m ∨ dst.toNat ≠ s.frcN (ky (0x2068 + m) 4) then .next s else .next (s.send (.icmp m src.toNat data))

/-! ## KDP (R346 to R352) -/

/-- One operation of a request (R348). -/
structure KOp where
  op : Nat
  sub : Nat
  idx : Nat
  len : Nat
  data : Bytes
  deriving DecidableEq, Repr

/-- `n` padded to a multiple of 4. -/
def pad4 (n : Nat) : Nat := (n + 3) / 4 * 4

/-- The operations of a body; none where its length is not the one they imply. -/
def kdpOps : Nat → Bytes → Option (List KOp)
  | 0, b => if b = [] then some [] else none
  | n + 1, b =>
    if b.length < 8 then none
    else
      let op := fieldLE b 0 1
      let len := fieldLE b 4 2
      let body := if op = 2 then pad4 len else 0
      if b.length < 8 + body then none
      else (kdpOps n (b.drop (8 + body))).map (fun r => ⟨op, fieldLE b 1 1, fieldLE b 2 2, len, (b.drop 8).take (if op = 2 then len else 0)⟩ :: r)

/-- One operation's answer: its header with STATUS and REASON, and the data of a read. -/
def kdpAnswer (o : KOp) (st : Nat × Nat) (data : Bytes) : Bytes :=
  leBytes 1 o.op ++ leBytes 1 o.sub ++ leBytes 2 o.idx ++ leBytes 2 data.length ++ leBytes 1 st.1 ++ leBytes 1 st.2
    ++ sliceB data 0 (pad4 data.length)

/-- An operation served on its own: the answer and the state; `room` bytes of read data still fit in the response. -/
def State.kdpServeOne (s : State) (o : KOp) (perm : Bool) (room : Nat) : Bytes × State :=
  match o.op with
  | 1 =>
    match s.dictRead o.idx o.sub with
    | .error r => (kdpAnswer o (statusOf r) [], s)
    | .ok d => if o.len < d.length ∨ room < pad4 d.length then (kdpAnswer o (3, 0) [], s) else (kdpAnswer o (0, 0) d, s.readSide o.idx o.sub)
  | 2 =>
    if !perm then (kdpAnswer o (statusOf .kdpSource) [], s)
    else match s.writeOne .kdp false o.idx o.sub o.data with
      | (s, some r) => (kdpAnswer o (statusOf r) [], s)
      | (s, none) => (kdpAnswer o (0, 0) [], s)
  | _ => (kdpAnswer o (statusOf .op) [], s)

/-- The operations of a datagram without ATOMIC, in order. -/
def State.kdpServeEach (s : State) (perm : Bool) : Nat → List KOp → Bytes × State
  | _, [] => ([], s)
  | room, o :: r =>
    let (a, s) := s.kdpServeOne o perm room
    let (rest, s) := s.kdpServeEach perm (room - (a.length - 8)) r
    (a ++ rest, s)

/-- An atomic datagram (R349): every write or none. -/
def State.kdpAtomic (s : State) (perm : Bool) (ops : List KOp) : Bytes × State :=
  if ops.any (fun o => o.op != 2) then (ops.flatMap (fun o => kdpAnswer o (statusOf .op) []), s)
  else if !perm then (ops.flatMap (fun o => kdpAnswer o (statusOf .kdpSource) []), s)
  else
    let (s, verdict) := s.groupWrite .kdp (ops.map (fun o => (o.idx, o.sub, o.data)))
    let good := verdict.all Option.isNone
    ((ops.zip verdict).flatMap (fun (o, v) => kdpAnswer o (match v with
      | some r => statusOf r
      | none => if good then (0, 0) else (6, 0)) []), s)

/-- A dropped datagram is counted. -/
def State.kdpDrop (s : State) (m : Nat) : State := s.bump (ky (0x2068 + m) 0x0A)

/-- An entry of the access list in use. -/
def State.kdpEntry (s : State) (j : Nat) : Option Nat :=
  let e := s.nat (ky 0x206A (j + 1))
  if bit e 49 then some e else none

/-- Does an access entry match a source? -/
def kdpMatches (e src : Nat) : Bool :=
  let p := 2 ^ (32 - bits e 37 32)
  (e % 2 ^ 32) / p == src / p

/-- What the access list gives a source (R351): none where it is turned away, otherwise whether it may write. -/
def State.kdpAccess (s : State) (src : Nat) : Option Bool :=
  let es := (List.range 8).filterMap s.kdpEntry
  if es = [] then some true
  else
    let hit := es.filter (fun e => kdpMatches e src)
    if hit = [] then none else some (hit.any (fun e => bit e 48))

/-- A response to a request: the header with FLAGS, SESSION and SEQUENCE, around an answer (COUNT, then the operations answered). -/
def kdpResponse (req : Bytes) (cached : Bool) (answer : Bytes) : Bytes :=
  leBytes 4 0x5044444B ++ [1#8, 2#8, BitVec.ofNat 8 (2 * b2n cached)] ++ answer.take 1 ++ sliceB req 8 8 ++ answer.drop 1

/-- Put a client's response into the cache of 8, most recently used first (R350). -/
def kdpKeep (l : List KdpClient) (c : KdpClient) : List KdpClient :=
  (c :: l.filter (fun x => !(x.src == c.src && x.port == c.port && x.session == c.session))).take 8

/-- A request datagram served at once (R347 to R351). -/
def State.kdpServe (s : State) (m src port : Nat) (b : Bytes) : State :=
  let count := fieldLE b 7 1
  let bad := b.length < 16 ∨ fieldLE b 0 4 ≠ 0x5044444B ∨ fieldLE b 4 1 ≠ 1 ∨ fieldLE b 5 1 ≠ 1 ∨ count = 0 ∨ 32 < count
  match (if bad then none else kdpOps count (b.drop 16)) with
  | none => (s.kdpDrop m).event (macEvent m) 0x0B08 m
  | some ops =>
    match s.kdpAccess src with
    | none => s.kdpDrop m
    | some perm =>
      let session := fieldLE b 8 4
      let seq := fieldLE b 12 4
      let keep (s : State) (resp : Bytes) : State :=
        { s with net := { s.net with kdp := kdpKeep s.net.kdp ⟨src, port, session, seq, resp⟩ } }
      let fresh (_ : Unit) : State :=
        let (body, s) := if bit (fieldLE b 6 1) 0 then s.kdpAtomic perm ops else s.kdpServeEach perm (1472 - 16 - 8 * count) ops
        let answer := leBytes 1 count ++ body
        (keep s answer).send (.kdp m src port (kdpResponse b false answer))
      match s.net.kdp.find? (fun x => x.src == src && x.port == port && x.session == session) with
      | some x =>
        if x.seq = seq then ((keep s x.resp).bump (ky 0x206A 0x0C)).send (.kdp m src port (kdpResponse b true x.resp))
        else if wrapS 32 ((seq : Int) - x.seq) < 0 then s.kdpDrop m
        else fresh ()
      | none => fresh ()

/-- A request datagram on MAC `m`: up to 16 wait over a firmware restart. -/
def State.kdpRequest (s : State) (m src port : Nat) (b : Bytes) : State :=
  if !s.macUp m ∨ s.frcN (ky (0x2068 + m) 7) ≠ 1 then s
  else if 1472 < b.length then s.kdpDrop m
  else if s.deaf then
    if 16 ≤ (s.net.held.filter (fun h => match h with
        | .kdp .. => true
        | _ => false)).length then s.kdpDrop m
    else { s with net := { s.net with held := s.net.held ++ [Held.kdp m src port b] } }
  else s.kdpServe m src port b

def execKdpRequest (t : Time) (m : Fin 2) (src : BitVec 32) (port : BitVec 16) (data : Bytes) (s : State) : Step :=
  .next ((s.tick t).kdpRequest m src.toNat port.toNat data)

/-- A datagram of KDP event entries for subscriber `j`, where it is enabled (R352). -/
def State.kdpEventTo (entries : List Bytes) (s : State) (j : Nat) : State :=
  if bit (s.nat (ky 0x206A (8 + j))) 48 then
    let seq := tget (fun _ => 0) s.net.kdpSeq j
    { s with net := { s.net with kdpSeq := tset (fun _ => 0) s.net.kdpSeq j ((seq + 1) % 2 ^ 32) } }.send (.kdpEvent j seq entries)
  else s

/-- Entries of the KDP event queue go to both enabled subscribers, and its consumer index advances (R352). -/
def execKdpEventSend (t : Time) (s : State) : Step :=
  let s := s.tick t
  let q := s.nat (ky 0x206A 0x0B)
  let d := s.qOf q
  let n := min 22 d.level
  if q = 0 ∨ !d.enabled ∨ d.typ ≠ 4 ∨ n = 0 ∨ s.deaf ∨ !([0, 1].any (fun m => s.macUp m && s.frcN (ky (0x2068 + m) 7) == 1)) then .next s
  else
    let entries := (List.range n).map (fun j => s.memRead d.dram (d.slot (d.cons + j)) 64)
    .next (((s.kdpEventTo entries 1).kdpEventTo entries 2).doorbell q ((d.cons + n) % 2 ^ 32))

/-! ## PTP (R353, R354) -/

/-- A time stamp with the resolution of 4 ns. -/
def ptp4 (x : Int) : Int := x / 4 * 4

/-- An ingress time stamp less the configured latency. -/
def State.ptpIn (s : State) (rx : Int) : Int := ptp4 rx - (s.nat (ky 0x2308 9) / 65536 : Nat)

/-- An egress time stamp less the configured latency. -/
def State.ptpOut (s : State) : Int := ptp4 s.dev - (s.nat (ky 0x2308 9) % 65536 : Nat)

/-- The port state becomes `v`. -/
def State.ptpTo (s : State) (v : Nat) : State := s.setn (ky 0x2308 0x0A) (v : Nat)

/-- Is the port uncalibrated or a slave? -/
def State.ptpSlave (s : State) : Bool := s.ptpState == 8 || s.ptpState == 9

/-- An offset measured from a Sync's reception and its origin, for the servo. -/
def State.ptpMeasure (s : State) (rx origin : Int) : State :=
  let th := rx - origin - s.num (ky 0x2308 0x0C)
  (((s.setn (ky 0x2308 0x0B) (wrapS 64 th)).ptpTo 9).ptpOffset th s.net.ptp.utc)

/-- An Announce: the default BMCA chooses the better clock; attributes that the message does not carry leave a tie open. -/
def State.ptpAnnounce (s : State) (gm priority1 clockClass : Nat) (utcValid : Bool) (utc : Int) : State :=
  let own := s.nat (ky 0x2308 5) / 256
  let (x, s) := s.free 1
  let slave := s.nat (ky 0x2308 6) == 1 || Nat.blt priority1 own || (priority1 == own && (Nat.blt clockClass 248 || (clockClass == 248 && x == 1)))
  if slave then
    let s := { s with net := { s.net with ptp := { s.net.ptp with lastAnnounce := s.now, utc := if utcValid then some utc else none } } }
    let s := s.setn (ky 0x2308 0x0D) (gm % 2 ^ 64 : Nat)
    if s.ptpSlave then s else s.ptpTo 8
  else s.ptpTo 6

/-- A message of the configured domain on the PTP port. -/
def State.ptpTake (s : State) (msg : PtpMsg) : State :=
  let p := s.net.ptp
  let put (q : Ptp) : State := { s with net := { s.net with ptp := q } }
  match msg with
  | .announce gm p1 cc uv u => s.ptpAnnounce gm p1 cc uv u
  | .sync seq origin twoStep rx =>
    if !s.ptpSlave then s
    else
      let r := s.ptpIn rx
      if twoStep then put { p with syncSeq := seq, syncRx := r, haveSync := true }
      else (put { p with syncSeq := seq, syncRx := r, syncOrigin := origin, haveSync := false }).ptpMeasure r origin
  | .followUp seq origin =>
    if !s.ptpSlave ∨ !p.haveSync ∨ seq ≠ p.syncSeq then s
    else (put { p with syncOrigin := origin, haveSync := false }).ptpMeasure p.syncRx origin
  | .delayReq seq _ rx => if s.ptpState = 6 ∧ s.nat (ky 0x2308 3) = 1 then s.send (.ptpResp seq (s.ptpIn rx)) else s
  | .delayResp seq rx =>
    if !s.ptpSlave ∨ s.nat (ky 0x2308 3) ≠ 1 ∨ seq ≠ p.reqSeq then s
    else s.setn (ky 0x2308 0x0C) (wrapS 64 (tdiv ((p.syncRx - p.syncOrigin) + (rx - p.reqTx)) 2))
  | .pdelayReq seq rx => if s.nat (ky 0x2308 3) = 2 then s.send (.ptpResp seq (s.ptpIn rx)) else s
  | .pdelayResp seq t2 t3 rx =>
    if s.nat (ky 0x2308 3) ≠ 2 ∨ seq ≠ p.reqSeq then s
    else s.setn (ky 0x2308 0x0C) (wrapS 64 (tdiv ((s.ptpIn rx - p.reqTx) - (t3 - t2)) 2))
  | .management => s

/-- Is MAC `m` the PTP port, with its link up? -/
def State.ptpOn (s : State) (m : Nat) : Bool := s.nat (ky 0x2308 1) == m + 1 && s.macUp m

def execPtpMessage (t : Time) (m : Fin 2) (domain : Nat) (msg : PtpMsg) (s : State) : Step :=
  let s := s.tick t
  if s.ptpOn m ∧ domain = s.nat (ky 0x2308 4) then .next (s.ptpTake msg) else .next s

/-- The announce interval of 0x2308:07. -/
def State.announceInterval (s : State) : Time :=
  match sByte (s.nat (ky 0x2308 7)) 2 with
  | .ofNat n => secT 1 * 2 ^ n
  | .negSucc n => secT 1 / 2 ^ (n + 1)

/-- No Announce within the receipt timeout: a slave-only port listens again, another becomes master. -/
def execPtpAnnounceTimeout (t : Time) (s : State) : Step :=
  let s := s.tick t
  let late := s.net.ptp.lastAnnounce + s.nat (ky 0x2308 8) * s.announceInterval ≤ t
  if !(s.ptpOn 0 || s.ptpOn 1) ∨ !late ∨ !(s.ptpSlave || s.ptpState == 4) then .next s
  else .next (s.ptpTo (if s.nat (ky 0x2308 6) = 1 then 4 else 6))

/-- A message interval runs out: a slave (or any port of the peer-to-peer mechanism) sends its request, a master its Announce and Sync. -/
def execPtpTransmit (t : Time) (msg : PtpSend) (s : State) : Step :=
  let s := s.tick t
  if !(s.ptpOn 0 || s.ptpOn 1) then .next s
  else match msg with
    | .delayReq =>
      if s.ptpSlave ∨ s.nat (ky 0x2308 3) = 2 then
        let p := s.net.ptp
        .next ({ s with net := { s.net with ptp := { p with reqSeq := (p.reqSeq + 1) % 65536, reqTx := s.ptpOut } } }.send (.ptp .delayReq))
      else .next s
    | m => if s.ptpState = 6 then .next (s.send (.ptp m)) else .next s

/-! ## The end of a firmware restart -/

/-- A request that waited over a restart is served. -/
def State.serveHeld (s : State) (h : Held) : State :=
  match h with
  | .write p idx sub b => s.dictWrite p idx sub b
  | .read p idx sub => s.dictReadOn p idx sub false
  | .kdp m src port b => s.kdpRequest m src port b
  | .rpdo i n d => s.rpdo (if i = 0 then 0 else 1) n d
  | .nmt i c => s.nmt i c

/-- The dictionary is served again; what waited is served in arrival order (R332). -/
def State.serveAgain (s : State) : State :=
  let held := s.net.held
  let s := s.restartServes
  held.foldl State.serveHeld { s with net := { s.net with held := [] } }

/-- RESTART_END: the image is selected again (R413); without one the device waits for a host load. -/
def execRestartEnd (t : Time) (s : State) : Step :=
  let s := s.tick t
  if !s.net.restarting ∨ s.flt.clusterHeld then .next s
  else
    let s := s.selectImage
    if s.otp.image.isSome then .next s.serveAgain else .next s

/-- A write of HOST_BOOT_LEN while the boot code waits for a host load (R413). -/
def State.hostBootLen (s : State) (len : Nat) : State :=
  if !s.otp.hostBoot then s
  else match s.hostLoad len with
    | none => s.event 0xFE 0x0C21 0
    | some s => if s.modeN ≤ 1 then s.finishBoot else s.serveAgain

def execHostBootLoad (t : Time) (len : BitVec 32) (s : State) : Step :=
  let s := s.tick t
  if s.modeN = 0 then .next (s.answer .none) else .next ((s.hostBootLen len.toNat).answer .ok)

end Sys2Proof.Machine
end

