-- ==== Sys2Proof/Machine/Registers.lean ====
section
/-! DEFINITION. The BAR0 register map (R293, R294, and the register tables of the units): what a write of a register does and what a
read of it shows. -/

namespace Sys2Proof.Machine

/-- What the word of a register write leaves: the state, or why it is refused. -/
abbrev RegOut := Except Refuse State

/-! ## Writes -/

/-- A word of the MSI-X table (R316): address, data, mask. An entry unmasked with its vector pending is sent. -/
def State.msixWrite (s : State) (e off v : Nat) : State :=
  let h := s.host
  let a := tget (fun _ => 0) h.msixAddr e
  match off with
  | 0x0 => { s with host := { h with msixAddr := tset (fun _ => 0) h.msixAddr e (a / 2 ^ 32 * 2 ^ 32 + v) } }
  | 0x4 => { s with host := { h with msixAddr := tset (fun _ => 0) h.msixAddr e (v * 2 ^ 32 + a % 2 ^ 32) } }
  | 0x8 => { s with host := { h with msixData := tset (fun _ => 0) h.msixData e v } }
  | _ =>
    let on := 1 - v % 2
    let s := { s with host := { h with msixUnmasked := tset (fun _ => 0) h.msixUnmasked e on } }
    if on = 1 ∧ h.msixPend.contains e then
      { s with host := { s.host with msixPend := h.msixPend.filter (· != e) } }.send (.msix e)
    else s

/-- HOST_ERR_STATUS, W1C (R294). -/
def State.hostErrClear (s : State) (v : Nat) : State :=
  { s with host := { s.host with errValid := s.host.errValid && !bit v 8, errOverrun := s.host.errOverrun && !bit v 9 } }

/-- FCFGb (R448): EVENT_EN, DROP and CLASS, in CONFIGURE and STANDBY alone. -/
def State.fcfgWrite (s : State) (b v : Nat) : RegOut :=
  let cls := v % 8
  if s.modeN ≠ 2 ∧ s.modeN ≠ 3 then .error .mode
  else if cls ≠ s.nat (oFlt b 1) ∧ !classOk b cls then .error .range
  else
    let drop := if b = 55 then 1 else b2n (bit v 6)
    .ok ((s.setn (oFlt b 1) (cls : Nat)).setn (oFlt b 2) (b2n (bit v 5) + 2 * drop : Nat))

/-- INJ_CTRL (R447, R448): the injection's parameters, and with EXECUTE the injection, in CONFIGURE, STANDBY and SERVICE. -/
def State.injWrite (s : State) (v : Nat) : RegOut :=
  if bit v 31 ∧ s.modeN ≠ 2 ∧ s.modeN ≠ 3 ∧ s.modeN ≠ 6 then .error .mode
  else
    let s' := ((s.setn (ky 0x2260 1) (v % 64 : Nat)).setn (ky 0x2260 2) (bits v 6 6 + 1 : Nat)).setn (ky 0x2260 3) (bits v 15 8 : Nat)
    if bit v 31 then
      match s'.injectCheck with
      | some r => .error r
      | none => .ok s'.injectAct
    else .ok s'

/-- W1C of the SWITCHED and OVERSPEED bits of LAXk_STATUS (R48). -/
def State.laxStatusClear (s : State) (k v : Nat) : State :=
  let x := s.laxOf k
  s.setLax k { x with st := [2, 3].foldl (fun st i => if bit v i then putBit st i false else st) x.st }

/-- W1C of the latched bits of ENCe_STATUS (R28, R48). A condition still present sets its bit again: AMPLITUDE as the latest sample shows;
whether a wire's condition lasts is not in the state, so it is free (log 3). -/
def State.encStatusClear (s : State) (e v : Nat) : State :=
  let x := s.encOf e
  let s := s.setEnc e { x with st := [2, 3, 4, 5, 6, 7, 8].foldl (fun st i => if bit v i then putBit st i false else st) x.st }
  let s := if bit v 5 && x.low then s.encFault e 5 else s
  [2, 3, 4].foldl (fun s i =>
    if bit v i && bit x.st i then
      let (f, s) := s.free 1
      if f = 1 then s.encFault e i else s
    else s) s

/-- W1C of GIN_STUCK (R48): 32 inputs from `base` on. -/
def State.ginStuckClear (s : State) (base v : Nat) : State :=
  (setBits 32 v).foldl (fun s i => s.setGin (base + i) { s.ginOf (base + i) with stuck := false }) s

/-- OTP_CTRL (R415): a read from the shadow, a margin read asked for (OTP_MARGIN_READ brings its result). -/
def State.otpCtrl (s : State) (v : Nat) : State :=
  let s := if bit v 0 then s.otpRead else s
  if bit v 1 then { s with otp := { s.otp with margin := true } } else s

/-- EVROUTEe (R315): QUEUE, VECTOR, VEC_EN. -/
def State.routeWrite (s : State) (e v : Nat) : RegOut :=
  let q := v % 16384
  if 0 < q ∧ q < 16 then .error .range
  else .ok { s with host := { s.host with routes := tset (fun _ => 0) s.host.routes e (bits v 24 16 * 65536 + q) } }

/-- The request bytes of the mailbox (R307). -/
def State.mboxWrite (s : State) (off v : Nat) : State :=
  let m := sliceB s.host.mbox 0 64
  { s with host := { s.host with mbox := m.take off ++ leBytes 4 v ++ m.drop (off + 4) } }

/-- A refusal, or a state. -/
def checked (r : Option Refuse) (s : State) : RegOut :=
  match r with
  | some c => .error c
  | none => .ok s

/-- One word written below 0x10_0000: the blocks that the hardware serves in BOOT too. -/
def State.wordLow (s : State) (off v : Nat) : RegOut :=
  if off = 0x80 then checked (if 16128 < v % 16384 then some .range else none) { s with host := { s.host with bar2 := v % 16384 } }
  else if off = 0x8C then .ok (s.hostErrClear v)
  else if 0x10000 ≤ off ∧ off < 0x10400 then s.routeWrite ((off - 0x10000) / 4) v
  else if 0x18000 ≤ off ∧ off < 0x19000 then .ok (s.msixWrite ((off - 0x18000) / 16) (off % 16) v)
  else if 0x20000 ≤ off ∧ off < 0x30000 then
    let n := (off - 0x20000) / 0x400
    let r := off % 0x400
    checked (s.dmaRegCheck n r v) (s.dmaRegWrite n r v)
  else if off = 0x30000 then .ok (s.clearFaults (BitVec.ofNat 64 v))
  else if off = 0x30004 then .ok (s.clearFaults (BitVec.ofNat 64 (v * 2 ^ 32)))
  else if off = 0x30020 then s.injWrite v
  else if off = 0x30024 then .ok (s.setn (ky 0x2260 4) (v % 65536 : Nat))
  else if 0x30100 ≤ off ∧ off < 0x30800 ∧ off % 0x20 = 0 then s.fcfgWrite ((off - 0x30100) / 0x20) v
  else if off = 0x38000 then .ok (if bit v 0 then s.timeSnapshot else s)
  else if off = 0x38004 then .ok (if bit v 3 then { s with clk := { s.clk with battLost := false } } else s)
  else if off = 0x3C000 then .ok (if bit v 0 then s.laxSnapshot else s)
  else if 0x3C300 ≤ off ∧ off < 0x3C380 then .ok (s.laxStatusClear ((off - 0x3C300) / 4) v)
  else if off = 0x3C408 then .ok (s.ginStuckClear 0 v)
  else if off = 0x3C40C then .ok (s.ginStuckClear 32 v)
  else if 0x3C500 ≤ off ∧ off < 0x3C540 then .ok (s.encStatusClear ((off - 0x3C500) / 4) v)
  else if off = 0x40000 then .ok (s.otpCtrl v)
  else if off = 0x40008 then checked (if 0x40F < v % 2048 then some .range else none) { s with otp := { s.otp with row := v % 2048 } }
  else if off = 0x40024 then .ok (s.hostBootLen v)
  else .ok s

/-- One word written from 0x10_0000 on: queue descriptors, doorbells, the dictionary mailbox. -/
def State.wordHigh (s : State) (off v : Nat) : RegOut :=
  if off < 0x200000 then
    let q := (off - 0x100000) / 64
    checked (s.qCheck q (off % 64) v false) (s.qWrite q (off % 64) v)
  else if off < 0x240000 then
    let q := (off - 0x200000) / 16
    if off % 16 = 0 then checked (s.doorbellCheck q v) (s.doorbell q v) else .ok s
  else if 0x1000000 ≤ off ∧ off < 0x1000040 then .ok (s.mboxWrite (off - 0x1000000) v)
  else if off = 0x1000040 ∧ bit v 0 then (if s.host.mboxBusy then .error .queueState else .ok s.mboxSubmit)
  else .ok s

/-- One word written to BAR0. -/
def State.regWord (s : State) (off v : Nat) : State :=
  let r : RegOut :=
    if off < 0x100000 then s.wordLow off v
    else if s.modeN ≤ 1 then .ok s
    else s.wordHigh off v
  match r with
  | .error c => s.hostError off c false
  | .ok s => s

/-- A register write of 4 or 8 bytes; one that is not aligned, or that no register takes, changes nothing (R5, R293). -/
def execRegisterWrite (t : Time) (off : Nat) (wide : Bool) (v : BitVec 64) (s : State) : Step :=
  let s := s.tick t
  if s.modeN = 0 then .next (s.answer .none)
  else if off % (if wide then 8 else 4) ≠ 0 then .next (s.answer .ok)
  else
    let s := (s.answer .ok).regWord off (v.toNat % 2 ^ 32)
    .next (if wide then s.regWord (off + 4) (v.toNat / 2 ^ 32) else s)

/-! ## Reads -/

/-- Low and high words of a 64-bit value. -/
def halves (hi : Bool) (v : Nat) : Nat := if hi then v / 2 ^ 32 % 2 ^ 32 else v % 2 ^ 32

/-- A word of the fault collector (R448). -/
def State.faultWord (s : State) (off : Nat) : Nat :=
  match off with
  | 0x00 => halves false s.flt.fsw.toNat
  | 0x04 => s.flt.latchHi
  | 0x08 => halves false s.liveNow.toNat
  | 0x0C => s.flt.latchLive
  | 0x10 => if s.nat (ky 0x2200 3) < 64 then 2 ^ 31 + s.nat (ky 0x2200 3) else 0
  | 0x14 => s.collStatus
  | 0x20 => b2n s.flt.arm.isSome * 2 ^ 31 + s.nat (ky 0x2260 6) * 65536 + s.nat (ky 0x2260 3) * 256 + (s.nat (ky 0x2260 2) - 1) * 64
      + s.nat (ky 0x2260 1) % 64
  | 0x24 => s.nat (ky 0x2260 4)
  | _ =>
    if off < 0x100 ∨ 0x800 ≤ off then 0
    else
      let b := (off - 0x100) / 0x20
      match off % 0x20 with
      | 0x00 => b2n ((faultClass b).2.length == 1) * 128 + bits (s.nat (oFlt b 2)) 1 1 * 64 + s.nat (oFlt b 2) % 2 * 32 + s.nat (oFlt b 1)
      | 0x04 => s.nat (oFlt b 3)
      | 0x08 => halves false (s.nat (oFlt b 4))
      | 0x0C => halves true (s.nat (oFlt b 4))
      | 0x10 => s.nat (oFlt b 5)
      | 0x14 => s.nat (oFlt b 6)
      | 0x18 => halves false (s.nat (oFlt b 7))
      | _ => halves true (s.nat (oFlt b 7))

/-- A word of the time and tally block (R133). The HI half of a tally is the one its last LO read latched (R131). -/
def State.timeWord (s : State) (off : Nat) : Nat :=
  match off with
  | 0x04 => b2n s.clk.staged.isSome * 16 + b2n s.clk.battLost * 8 + s.nat (ky 0x2300 2)
  | 0x08 => s.clk.snapLo
  | 0x0C => s.clk.snapHi
  | 0x10 => s.clk.calDate
  | 0x14 => s.clk.calTime
  | 0x18 => s.clk.calNs
  | 0x1C => s.clk.calInfo
  | _ =>
    if 0x1000 ≤ off ∧ off < 0x1800 then
      let n := (off - 0x1000) / 8
      if off % 8 = 0 then s.nat (oTal n 0) % 2 ^ 32 else (s.talOf n).latchHi
    else if 0x1800 ≤ off ∧ off < 0x1820 then
      ((List.range 32).map (fun i => (let n := (off - 0x1800) / 4 * 32 + i; b2n ((s.talOf n).held || s.talWaits n) * 2 ^ i))).sum
    else 0

/-- A word of the line-axis snapshot block (R48). -/
def State.laxWord (s : State) (off : Nat) : Nat :=
  let pos (k : Nat) : Nat := (wrapU 64 ((s.snap.pos[k]?).getD 0)).toNat
  let vel (k : Nat) : Nat := (wrapU 64 ((s.snap.vel[k]?).getD 0)).toNat
  let pins (f : Nat → Bool) (base : Nat) : Nat := ((List.range 32).map (fun i => b2n (f (base + i)) * 2 ^ i)).sum
  let level (n : Nat) : Bool := (s.ginOf n).active != (s.nat (oGin n 1) == 1 : Bool)
  let stuck (n : Nat) : Bool := (s.ginOf n).stuck
  if off = 0x08 then halves false s.snap.time
  else if off = 0x0C then halves true s.snap.time
  else if 0x100 ≤ off ∧ off < 0x300 then
    let k := (off - 0x100) / 16
    if off % 16 < 8 then halves (off % 8 == 4) (pos k) else halves (off % 8 == 4) (vel k)
  else if 0x300 ≤ off ∧ off < 0x380 then s.laxStatus ((off - 0x300) / 4)
  else if off = 0x400 then pins level 0
  else if off = 0x404 then pins level 32
  else if off = 0x408 then pins stuck 0
  else if off = 0x40C then pins stuck 32
  else if 0x500 ≤ off ∧ off < 0x540 then let e := (off - 0x500) / 4; (s.encOf e).st + b2n (s.nat (oEnc e 1) != 0)
  else 0

/-- A word of the MSI-X table or its pending bits (R316). -/
def State.msixWord (s : State) (off : Nat) : Nat :=
  if off < 0x1000 then
    let e := off / 16
    match off % 16 with
    | 0x0 => halves false (tget (fun _ => 0) s.host.msixAddr e)
    | 0x4 => halves true (tget (fun _ => 0) s.host.msixAddr e)
    | 0x8 => tget (fun _ => 0) s.host.msixData e
    | _ => 1 - tget (fun _ => 0) s.host.msixUnmasked e
  else if off < 0x1020 then
    ((List.range 32).map (fun i => b2n (s.host.msixPend.contains ((off - 0x1000) * 8 + i)) * 2 ^ i)).sum
  else 0

/-- What a read of the word at a BAR0 offset shows; the identity block stands below BAR2_BASE (R1, log 25), and an unimplemented or reserved offset reads 0 (R293). The latches that a read of FSW_LO
or TALLYt_LO sets are the commands FSW_LO_READ and TALLY_LO_READ. -/
def State.regRead (s : State) (off : Nat) : Nat :=
  let h := s.host
  if off < 0x80 then (Config.identity off (s.str (ky 0x2000 3)) (s.nat (ky 0x2000 4))).toNat
  else if off = 0x80 then h.bar2
  else if off = 0x88 then h.errAddr
  else if off = 0x8C then b2n h.errOverrun * 512 + b2n h.errValid * 256 + b2n h.errBar * 16 + h.errCause
  else if 0x10000 ≤ off ∧ off < 0x10400 then
    let e := (off - 0x10000) / 4
    tget (fun _ => 0) h.routes e + b2n (h.events.any (fun p => p.1 == e)) * 2 ^ 25
  else if 0x18000 ≤ off ∧ off < 0x1A000 then s.msixWord (off - 0x18000)
  else if 0x20000 ≤ off ∧ off < 0x30000 then s.dmaWord ((off - 0x20000) / 0x400) (off % 0x400)
  else if 0x30000 ≤ off ∧ off < 0x31000 then s.faultWord (off - 0x30000)
  else if 0x38000 ≤ off ∧ off < 0x3C000 then s.timeWord (off - 0x38000)
  else if 0x3C000 ≤ off ∧ off < 0x3C600 then s.laxWord (off - 0x3C000)
  else if off = 0x40000 then b2n s.otp.margin * 2
  else if off = 0x40004 then s.otp.status + b2n s.otp.margin
  else if off = 0x40008 then s.otp.row
  else if off = 0x4000C then s.otp.data
  else if off = 0x40020 then s.bootStatus
  else if 0x100000 ≤ off ∧ off < 0x200000 then s.qWord ((off - 0x100000) / 64) (off % 64)
  else if 0x200000 ≤ off ∧ off < 0x240000 ∧ off % 16 = 0 then
    let d := s.qOf ((off - 0x200000) / 16)
    if d.hostMade then d.prod else d.cons
  else if 0x1000000 ≤ off ∧ off < 0x1000040 then fieldLE h.mbox (off - 0x1000000) 4
  else if off = 0x1000040 then b2n h.mboxBusy
  else 0

end Sys2Proof.Machine
end

