-- ==== Sys2Proof/Machine/Commands.lean ====
section
/-! DEFINITION. The commands that are dictionary writes: each goes through the dictionary's own checks (R329 to R332), one definition per
command. -/

namespace Sys2Proof.Machine

/-- The bytes of a number written to an object: as many as its type has, more where it does not fit (which R330 refuses). -/
def numBytes (k n : Nat) : Bytes := let w := widthOf k; leBytes (if n < 2 ^ (8 * w) then w else w + 1) n

/-- A number written to an object over a path. -/
def State.dictNum (s : State) (p : Path) (idx sub n : Nat) : State := s.dictWrite p idx sub (numBytes (ky idx sub) n)

/-- Writes one after the other; a refused one is the last. -/
def State.dictSeq (s : State) (p : Path) : List (Nat × Nat × Nat) → State
  | [] => s
  | (idx, sub, n) :: r =>
    let s := s.dictNum p idx sub n
    match s.resp with
    | .refused _ => s
    | _ => s.dictSeq p r

/-- A dictionary write that has no command of its own (R330). -/
def execDictionaryWrite (t : Time) (p : Path) (idx : BitVec 16) (sub : BitVec 8) (v : Bytes) (s : State) : Step :=
  .next ((s.tick t).dictWrite p idx.toNat sub.toNat v)

/-- Bytes written to the segment pool (R276). -/
def execSegmentWrite (t : Time) (p : Path) (data : Bytes) (s : State) : Step := .next ((s.tick t).dictWrite p 0x2040 2 data)

/-- Bytes written to device DRAM (R355). -/
def execDramDataWrite (t : Time) (p : Path) (data : Bytes) (s : State) : Step := .next ((s.tick t).dictWrite p 0x2070 2 data)

/-- Bytes of device DRAM read (R355). -/
def execDramDataRead (t : Time) (p : Path) (bad : Bool) (s : State) : Step := .next ((s.tick t).dictReadOn p 0x2070 2 bad)

/-- A doorbell (R301): the BAR0 register, or on another path the three objects of R327. -/
def execDoorbellWrite (t : Time) (p : Path) (q : Nat) (v : BitVec 32) (s : State) : Step :=
  let s := s.tick t
  match p with
  | .bar0 =>
    if s.modeN ≤ 1 ∨ 16384 ≤ q then .next (s.answer .none)
    else .next ((s.answer .ok).regWord (0x200000 + 16 * q) v.toNat)
  | p => .next (s.dictSeq p [(0x2504, 1, q), (0x2504, 2, v.toNat), (0x2504, 3, 1)])

/-- Status bits cleared (R441): FSW_LO and FSW_HI over BAR0, the clear mask over the dictionary. -/
def execFaultClear (t : Time) (p : Path) (mask : BitVec 64) (s : State) : Step :=
  let s := s.tick t
  match p with
  | .bar0 => if s.modeN = 0 then .next (s.answer .none) else .next ((s.answer .ok).clearFaults mask)
  | p => .next (s.dictNum p 0x2200 4 mask.toNat)

/-- An injection executed (R447): INJ_CTRL with its parameters over BAR0, the execute object over the dictionary. -/
def execInjectionExecute (t : Time) (p : Path) (s : State) : Step :=
  let s := s.tick t
  match p with
  | .bar0 =>
    if s.modeN = 0 then .next (s.answer .none)
    else
      let v := 2 ^ 31 + s.nat (ky 0x2260 3) * 256 + (s.nat (ky 0x2260 2) - 1) * 64 + s.nat (ky 0x2260 1) % 64
      .next ((s.answer .ok).regWord 0x30020 v)
  | p => .next (s.dictNum p 0x2260 5 1)

/-- A source write of a line axis (R32). -/
def execSourceKindWrite (t : Time) (p : Path) (k : Fin 32) (v : Nat) (s : State) : Step := .next ((s.tick t).dictNum p (0x2700 + k) 1 v)

/-- A ratio write of a divided-pulse output (R47). -/
def execPlsRatioWrite (t : Time) (p : Path) (n : Fin 8) (isM : Bool) (v : Nat) (s : State) : Step :=
  .next ((s.tick t).dictNum p (0x27A0 + n) (if isM then 3 else 2) v)

/-- ARM (R81). -/
def execCasementArm (t : Time) (p : Path) (c : Fin 48) (s : State) : Step := .next ((s.tick t).dictNum p (0x3000 + 0x20 * c + 2) 2 1)

/-- DISARM (R81). -/
def execCasementDisarm (t : Time) (p : Path) (c : Fin 48) (s : State) : Step := .next ((s.tick t).dictNum p (0x3000 + 0x20 * c + 2) 2 2)

/-- ENTER_SERVICE (R81). -/
def execCasementEnterService (t : Time) (p : Path) (c : Fin 48) (s : State) : Step := .next ((s.tick t).dictNum p (0x3000 + 0x20 * c + 2) 2 3)

/-- LEAVE_SERVICE (R81). -/
def execCasementLeaveService (t : Time) (p : Path) (c : Fin 48) (s : State) : Step := .next ((s.tick t).dictNum p (0x3000 + 0x20 * c + 2) 2 4)

/-- CLEAR_FAULT (R81). -/
def execCasementClearFault (t : Time) (p : Path) (c : Fin 48) (s : State) : Step := .next ((s.tick t).dictNum p (0x3000 + 0x20 * c + 2) 2 5)

/-- A template commit (R85, R86). -/
def execTemplateCommit (t : Time) (p : Path) (v : Nat) (s : State) : Step := .next ((s.tick t).dictNum p 0x5001 4 v)

/-- A glyph set commit (R86, R100). -/
def execGlyphSetCommit (t : Time) (p : Path) (v : Nat) (s : State) : Step := .next ((s.tick t).dictNum p 0x5002 4 v)

/-- A rotor-angle table commit (R268). -/
def execRotorTableCommit (t : Time) (p : Path) (v : Nat) (s : State) : Step := .next ((s.tick t).dictNum p 0x2041 4 v)

/-- Pinning of a glyph set (R107). -/
def execGlyphSetPin (t : Time) (p : Path) (s0 : Fin 64) (v : Nat) (s : State) : Step := .next ((s.tick t).dictNum p (0x5010 + s0) 2 v)

/-- The template that the query objects show (R117). -/
def execTemplateQuery (t : Time) (p : Path) (v : Nat) (s : State) : Step := .next ((s.tick t).dictNum p 0x5003 1 v)

/-- A staged time write (R123). -/
def execTimeWriteStaged (t : Time) (p : Path) (s : State) : Step := .next ((s.tick t).dictNum p 0x2301 2 1)

/-- An immediate time write (R123). -/
def execTimeWriteImmediate (t : Time) (p : Path) (s : State) : Step := .next ((s.tick t).dictNum p 0x2301 2 2)

/-- A tally write (R131). -/
def execTallyWrite (t : Time) (p : Path) (n : Fin 256) (v : Nat) (s : State) : Step :=
  .next ((s.tick t).dictNum p (0x2380 + n / 2) ((if n.val % 2 = 1 then 0x41 else 0x01)) v)

/-- A key import into a Notary slot (R144). -/
def execKeyImport (t : Time) (p : Path) (v : Nat) (s : State) : Step := .next ((s.tick t).dictNum p 0x5201 3 v)

/-- The revocation of a Notary slot (R145). -/
def execKeyRevoke (t : Time) (p : Path) (v : Nat) (s : State) : Step := .next ((s.tick t).dictNum p 0x5202 2 v)

/-- A verification (R149). -/
def execVerifyExecute (t : Time) (p : Path) (v : Nat) (s : State) : Step := .next ((s.tick t).dictNum p 0x5203 7 v)

/-- A service read over the sill line (R184). -/
def execServiceRead (t : Time) (p : Path) (c : Fin 48) (s : State) : Step := .next ((s.tick t).dictNum p (0x3000 + 0x20 * c + 5) 7 1)

/-- A service write over the sill line (R184). -/
def execServiceWrite (t : Time) (p : Path) (c : Fin 48) (s : State) : Step := .next ((s.tick t).dictNum p (0x3000 + 0x20 * c + 5) 7 2)

/-- A full service pass (R229). -/
def execServiceFullPass (t : Time) (p : Path) (c : Fin 48) (s : State) : Step := .next ((s.tick t).dictNum p (0x3000 + 0x20 * c + 0x0D) 0x0D 1)

/-- A service measurement of one element (R229). -/
def execServiceOneElement (t : Time) (p : Path) (c : Fin 48) (s : State) : Step := .next ((s.tick t).dictNum p (0x3000 + 0x20 * c + 0x0D) 0x0D 2)

/-- An element declared defective (R230). -/
def execDefectDeclare (t : Time) (p : Path) (c : Fin 48) (e : Nat) (s : State) : Step :=
  .next ((s.tick t).dictNum p (0x3000 + 0x20 * c + 0x0E) 0x18 e)

/-- A defect cleared, or all of them (R230). -/
def execDefectClear (t : Time) (p : Path) (c : Fin 48) (e : Nat) (s : State) : Step := .next ((s.tick t).dictNum p (0x3000 + 0x20 * c + 0x0E) 0x19 e)

/-- An adjustment of the supply counter (R236). -/
def execConsumeAdjust (t : Time) (p : Path) (c : Fin 48) (v : Nat) (s : State) : Step :=
  .next ((s.tick t).dictNum p (0x3000 + 0x20 * c + 0x0F) 0x10 v)

/-- A supply level from the host (R238). -/
def execHostSensorWrite (t : Time) (p : Path) (c : Fin 48) (v : Nat) (s : State) : Step :=
  .next ((s.tick t).dictNum p (0x3000 + 0x20 * c + 0x0F) 0x0B v)

/-- A new supply (R240). -/
def execNewSupply (t : Time) (p : Path) (c : Fin 48) (v : Nat) (s : State) : Step := .next ((s.tick t).dictNum p (0x3000 + 0x20 * c + 0x0F) 2 v)

/-- An element record written by a host (R245). -/
def execRecordWrite (t : Time) (p : Path) (c : Fin 48) (v : Nat) (s : State) : Step := .next ((s.tick t).dictNum p (0x3000 + 0x20 * c + 0x10) 2 v)

/-- An export of the element records (R245). -/
def execLedgerExport (t : Time) (p : Path) (c : Fin 48) (s : State) : Step := .next ((s.tick t).dictNum p (0x3000 + 0x20 * c + 0x10) 4 1)

/-- An import of element records (R245). -/
def execLedgerImport (t : Time) (p : Path) (c : Fin 48) (s : State) : Step := .next ((s.tick t).dictNum p (0x3000 + 0x20 * c + 0x10) 4 2)

/-- ENABLE (R248). -/
def execAxisEnable (t : Time) (p : Path) (a : Fin 48) (s : State) : Step := .next ((s.tick t).dictNum p (0x4000 + 0x20 * a + 2) 1 1)

/-- DISABLE (R248). -/
def execAxisDisable (t : Time) (p : Path) (a : Fin 48) (s : State) : Step := .next ((s.tick t).dictNum p (0x4000 + 0x20 * a + 2) 1 2)

/-- MOVE (R253). -/
def execAxisMove (t : Time) (p : Path) (a : Fin 48) (s : State) : Step := .next ((s.tick t).dictNum p (0x4000 + 0x20 * a + 2) 1 3)

/-- VELOCITY (R254). -/
def execAxisVelocity (t : Time) (p : Path) (a : Fin 48) (s : State) : Step := .next ((s.tick t).dictNum p (0x4000 + 0x20 * a + 2) 1 4)

/-- RUN (R249, R252). -/
def execAxisRun (t : Time) (p : Path) (a : Fin 48) (s : State) : Step := .next ((s.tick t).dictNum p (0x4000 + 0x20 * a + 2) 1 5)

/-- STOP (R255). -/
def execAxisStop (t : Time) (p : Path) (a : Fin 48) (s : State) : Step := .next ((s.tick t).dictNum p (0x4000 + 0x20 * a + 2) 1 6)

/-- ALIGN (R265). -/
def execAxisAlign (t : Time) (p : Path) (a : Fin 48) (s : State) : Step := .next ((s.tick t).dictNum p (0x4000 + 0x20 * a + 2) 1 7)

/-- BRAKE (R272). -/
def execAxisBrake (t : Time) (p : Path) (a : Fin 48) (s : State) : Step := .next ((s.tick t).dictNum p (0x4000 + 0x20 * a + 2) 1 8)

/-- CLEAR_FAULT (R248). -/
def execAxisClearFault (t : Time) (p : Path) (a : Fin 48) (s : State) : Step := .next ((s.tick t).dictNum p (0x4000 + 0x20 * a + 2) 1 9)

/-- Staged coefficients applied (R286). -/
def execCoefficientApply (t : Time) (p : Path) (n : Fin 64) (v : Nat) (s : State) : Step := .next ((s.tick t).dictNum p (0x4A00 + 8 * n + 1) 0x0B v)

/-- The OVERRUN flag of the loop engine cleared (R291). -/
def execLoopOverrunClear (t : Time) (p : Path) (v : Nat) (s : State) : Step := .next ((s.tick t).dictNum p 0x2030 6 v)

/-- A save of the persistent store (R335). -/
def execStoreSave (t : Time) (p : Path) (v : Nat) (s : State) : Step := .next ((s.tick t).dictNum p 0x1010 1 v)

/-- Defaults asked for at the next reset (R335). -/
def execStoreRestore (t : Time) (p : Path) (v : Nat) (s : State) : Step := .next ((s.tick t).dictNum p 0x1011 1 v)

/-- A start of a system program (R388). -/
def execProgramStart (t : Time) (p : Path) (v : Nat) (s : State) : Step := .next ((s.tick t).dictNum p 0x2142 1 v)

/-- A commit of the program store (R392). -/
def execStoreCommit (t : Time) (p : Path) (v : Nat) (s : State) : Step := .next ((s.tick t).dictNum p 0x2140 3 v)

/-- A row of the one-time array programmed (R406). -/
def execOtpProgram (t : Time) (p : Path) (v : Nat) (s : State) : Step := .next ((s.tick t).dictNum p 0x2621 3 v)

/-- The lifecycle advanced (R407). -/
def execLifecycleAdvance (t : Time) (p : Path) (v : Nat) (s : State) : Step := .next ((s.tick t).dictNum p 0x2622 2 v)

/-- RESTRICT set (R412). -/
def execSetRestrict (t : Time) (p : Path) (s : State) : Step := .next ((s.tick t).dictNum p 0x2623 1 0x5A)

/-- The debug lock set (R407). -/
def execSetDebugLock (t : Time) (p : Path) (s : State) : Step := .next ((s.tick t).dictNum p 0x2623 1 0xA5)

/-- A firmware key revoked (R418). -/
def execRevokeFirmwareKey (t : Time) (p : Path) (v : Nat) (s : State) : Step := .next ((s.tick t).dictNum p 0x2623 2 v)

/-- The security counter advanced (R417). -/
def execAdvanceSecurityCounter (t : Time) (p : Path) (v : Nat) (s : State) : Step := .next ((s.tick t).dictNum p 0x2624 1 v)

/-- A firmware update (R416). -/
def execUpdateExecute (t : Time) (p : Path) (v : Nat) (s : State) : Step := .next ((s.tick t).dictNum p 0x2625 3 v)

/-- The updated image activated (R416). -/
def execActivate (t : Time) (p : Path) (v : Nat) (s : State) : Step := .next ((s.tick t).dictNum p 0x2625 5 v)

/-- A request for CONFIGURE (R420). -/
def execRequestConfigure (t : Time) (p : Path) (s : State) : Step := .next ((s.tick t).dictNum p 0x2100 1 2)

/-- A request for STANDBY (R420). -/
def execRequestStandby (t : Time) (p : Path) (s : State) : Step := .next ((s.tick t).dictNum p 0x2100 1 3)

/-- A request for READY (R420). -/
def execRequestReady (t : Time) (p : Path) (s : State) : Step := .next ((s.tick t).dictNum p 0x2100 1 4)

/-- A request for MARKING (R420). -/
def execRequestMarking (t : Time) (p : Path) (s : State) : Step := .next ((s.tick t).dictNum p 0x2100 1 5)

/-- A request for SERVICE (R420). -/
def execRequestService (t : Time) (p : Path) (s : State) : Step := .next ((s.tick t).dictNum p 0x2100 1 6)

/-- A request for SAFE (R420). -/
def execRequestSafe (t : Time) (p : Path) (s : State) : Step := .next ((s.tick t).dictNum p 0x2100 1 7)

/-- A device reset commanded (R425). -/
def execDeviceResetCommand (t : Time) (p : Path) (s : State) : Step := .next ((s.tick t).dictNum p 0x2101 3 0x5A)

/-- A firmware restart commanded (R424). -/
def execFirmwareRestartCommand (t : Time) (p : Path) (s : State) : Step := .next ((s.tick t).dictNum p 0x2101 3 0xA5)

end Sys2Proof.Machine
end

