-- ==== Sys2Proof/Machine/Dispatch.lean ====
section
/-! DEFINITION. What each command does: one arm per command, one meaning per arm. -/

namespace Sys2Proof.Machine

def exec (i : Instr) (s : State) : Host.Outcome State Fault Refusal :=
  match i with
  | .registerWrite t off wide v => Sys2Proof.Machine.execRegisterWrite t off wide v s
  | .dictionaryWrite t p idx sub v => Sys2Proof.Machine.execDictionaryWrite t p idx sub v s
  | .encoderEdge t e a b => Sys2Proof.Machine.execEncoderEdge t e a b s
  | .sincosSample t e s0 c => Sys2Proof.Machine.execSincosSample t e s0 c s
  | .index t e => Sys2Proof.Machine.execIndex t e s
  | .wireCheckExpiry t e pair => Sys2Proof.Machine.execWireCheckExpiry t e pair s
  | .autoTrackUpdate t e smin smax cmin cmax freq => Sys2Proof.Machine.execAutoTrackUpdate t e smin smax cmin cmax freq s
  | .encStatusClear t e v present => Sys2Proof.Machine.execEncStatusClear t e v present s
  | .lineAxisUpdate t k => Sys2Proof.Machine.execLineAxisUpdate t k s
  | .sourceKindWrite t p k v => Sys2Proof.Machine.execSourceKindWrite t p k v s
  | .sourceSwitch t k => Sys2Proof.Machine.execSourceSwitch t k s
  | .lineAxisSourceFault t k => Sys2Proof.Machine.execLineAxisSourceFault t k s
  | .deadReckonExpiry t k => Sys2Proof.Machine.execDeadReckonExpiry t k s
  | .zeroSpeedTimeout t k => Sys2Proof.Machine.execZeroSpeedTimeout t k s
  | .ginEdge t n => Sys2Proof.Machine.execGinEdge t n s
  | .ginPulseRejected t n => Sys2Proof.Machine.execGinPulseRejected t n s
  | .ginStuckTimeout t n => Sys2Proof.Machine.execGinStuckTimeout t n s
  | .plsStepOut t n => Sys2Proof.Machine.execPlsStepOut t n s
  | .plsRatioWrite t p n isM v => Sys2Proof.Machine.execPlsRatioWrite t p n isM v s
  | .laxSnap t => Sys2Proof.Machine.execLaxSnap t s
  | .decisionPoint t c => Sys2Proof.Machine.execDecisionPoint t c s
  | .compositionStart t c => Sys2Proof.Machine.execCompositionStart t c s
  | .changeApply t => Sys2Proof.Machine.execChangeApply t s
  | .markClose t c => Sys2Proof.Machine.execMarkClose t c s
  | .goDeadline t c => Sys2Proof.Machine.execGoDeadline t c s
  | .reportMarginReached t c => Sys2Proof.Machine.execReportMarginReached t c s
  | .rejectPosition t r => Sys2Proof.Machine.execRejectPosition t r s
  | .rejectPulseEnd t r => Sys2Proof.Machine.execRejectPulseEnd t r s
  | .casementArm t p c => Sys2Proof.Machine.execCasementArm t p c s
  | .casementDisarm t p c => Sys2Proof.Machine.execCasementDisarm t p c s
  | .casementEnterService t p c => Sys2Proof.Machine.execCasementEnterService t p c s
  | .casementLeaveService t p c => Sys2Proof.Machine.execCasementLeaveService t p c s
  | .casementClearFault t p c => Sys2Proof.Machine.execCasementClearFault t p c s
  | .armingComplete t c => Sys2Proof.Machine.execArmingComplete t c s
  | .armingTimeout t c => Sys2Proof.Machine.execArmingTimeout t c s
  | .headPoll t c => Sys2Proof.Machine.execHeadPoll t c s
  | .templateCommit t p v => Sys2Proof.Machine.execTemplateCommit t p v s
  | .glyphSetCommit t p v => Sys2Proof.Machine.execGlyphSetCommit t p v s
  | .rotorTableCommit t p v => Sys2Proof.Machine.execRotorTableCommit t p v s
  | .commitValidationDone t kind => Sys2Proof.Machine.execCommitValidationDone t kind s
  | .glyphSetPin t p s0 v => Sys2Proof.Machine.execGlyphSetPin t p s0 v s
  | .templateQuery t p v => Sys2Proof.Machine.execTemplateQuery t p v s
  | .typeCaseFillDone t set block => Sys2Proof.Machine.execTypeCaseFillDone t set block s
  | .compositionUnitDispatch t u => Sys2Proof.Machine.execCompositionUnitDispatch t u s
  | .galleyRefillDone t c line => Sys2Proof.Machine.execGalleyRefillDone t c line s
  | .timeWriteStaged t p => Sys2Proof.Machine.execTimeWriteStaged t p s
  | .timeWriteImmediate t p => Sys2Proof.Machine.execTimeWriteImmediate t p s
  | .stagedTimeApply t => Sys2Proof.Machine.execStagedTimeApply t s
  | .ptpOffset t theta utc => Sys2Proof.Machine.execPtpOffset t theta utc s
  | .ptpHoldoverTimeout t => Sys2Proof.Machine.execPtpHoldoverTimeout t s
  | .holdoverExpiry t => Sys2Proof.Machine.execHoldoverExpiry t s
  | .calendarRealign t => Sys2Proof.Machine.execCalendarRealign t s
  | .calendarTrimStep t => Sys2Proof.Machine.execCalendarTrimStep t s
  | .timeSnap t => Sys2Proof.Machine.execTimeSnap t s
  | .leapSecondApply t => Sys2Proof.Machine.execLeapSecondApply t s
  | .daylightChange t => Sys2Proof.Machine.execDaylightChange t s
  | .shiftChange t => Sys2Proof.Machine.execShiftChange t s
  | .tallyWrite t p n v => Sys2Proof.Machine.execTallyWrite t p n v s
  | .tallyLoRead t n => Sys2Proof.Machine.execTallyLoRead t n s
  | .persistMarkConfirmed t n => Sys2Proof.Machine.execPersistMarkConfirmed t n s
  | .notaryDispatch t => Sys2Proof.Machine.execNotaryDispatch t s
  | .notaryOperationDone t => Sys2Proof.Machine.execNotaryOperationDone t s
  | .keyImport t p v => Sys2Proof.Machine.execKeyImport t p v s
  | .keyRevoke t p v => Sys2Proof.Machine.execKeyRevoke t p v s
  | .verifyExecute t p v => Sys2Proof.Machine.execVerifyExecute t p v s
  | .trainingEnd t c => Sys2Proof.Machine.execTrainingEnd t c s
  | .strobeLimit t c overlap => Sys2Proof.Machine.execStrobeLimit t c overlap s
  | .sillTransactionStart t c => Sys2Proof.Machine.execSillTransactionStart t c s
  | .sillTransactionDone t c r => Sys2Proof.Machine.execSillTransactionDone t c r s
  | .sillRetry t c => Sys2Proof.Machine.execSillRetry t c s
  | .adcConversion t c pin code => Sys2Proof.Machine.execAdcConversion t c pin code s
  | .vddaReferenceConversion t j code => Sys2Proof.Machine.execVddaReferenceConversion t j code s
  | .serviceRead t p c => Sys2Proof.Machine.execServiceRead t p c s
  | .serviceWrite t p c => Sys2Proof.Machine.execServiceWrite t p c s
  | .lineLoad t c => Sys2Proof.Machine.execLineLoad t c s
  | .loadDeadline t c => Sys2Proof.Machine.execLoadDeadline t c s
  | .lineFreeze t c => Sys2Proof.Machine.execLineFreeze t c s
  | .lineTrigger t c => Sys2Proof.Machine.execLineTrigger t c s
  | .lineFired t c => Sys2Proof.Machine.execLineFired t c s
  | .minPeriodRefresh t c => Sys2Proof.Machine.execMinPeriodRefresh t c s
  | .measureCycle t c vb vh von => Sys2Proof.Machine.execMeasureCycle t c vb vh von s
  | .measurePassStart t c => Sys2Proof.Machine.execMeasurePassStart t c s
  | .serviceFullPass t p c => Sys2Proof.Machine.execServiceFullPass t p c s
  | .serviceOneElement t p c => Sys2Proof.Machine.execServiceOneElement t p c s
  | .defectDeclare t p c e => Sys2Proof.Machine.execDefectDeclare t p c e s
  | .defectClear t p c e => Sys2Proof.Machine.execDefectClear t p c e s
  | .scrubStep t => Sys2Proof.Machine.execScrubStep t s
  | .consumeAdjust t p c v => Sys2Proof.Machine.execConsumeAdjust t p c v s
  | .spoolSpan t c => Sys2Proof.Machine.execSpoolSpan t c s
  | .inkSensorPoll t c => Sys2Proof.Machine.execInkSensorPoll t c s
  | .hostSensorWrite t p c v => Sys2Proof.Machine.execHostSensorWrite t p c v s
  | .newSupply t p c v => Sys2Proof.Machine.execNewSupply t p c v s
  | .usageLinesFlush t c => Sys2Proof.Machine.execUsageLinesFlush t c s
  | .usageHour t c => Sys2Proof.Machine.execUsageHour t c s
  | .recordWrite t p c v => Sys2Proof.Machine.execRecordWrite t p c v s
  | .ledgerExport t p c => Sys2Proof.Machine.execLedgerExport t p c s
  | .ledgerImport t p c => Sys2Proof.Machine.execLedgerImport t p c s
  | .axisEnable t p a => Sys2Proof.Machine.execAxisEnable t p a s
  | .axisDisable t p a => Sys2Proof.Machine.execAxisDisable t p a s
  | .axisMove t p a => Sys2Proof.Machine.execAxisMove t p a s
  | .axisVelocity t p a => Sys2Proof.Machine.execAxisVelocity t p a s
  | .axisRun t p a => Sys2Proof.Machine.execAxisRun t p a s
  | .axisStop t p a => Sys2Proof.Machine.execAxisStop t p a s
  | .axisAlign t p a => Sys2Proof.Machine.execAxisAlign t p a s
  | .axisBrake t p a => Sys2Proof.Machine.execAxisBrake t p a s
  | .axisClearFault t p a => Sys2Proof.Machine.execAxisClearFault t p a s
  | .axisTick t a => Sys2Proof.Machine.execAxisTick t a s
  | .runCheckDone t a => Sys2Proof.Machine.execRunCheckDone t a s
  | .runTrigger t a => Sys2Proof.Machine.execRunTrigger t a s
  | .limitInput t a positive => Sys2Proof.Machine.execLimitInput t a positive s
  | .followingError t a => Sys2Proof.Machine.execFollowingError t a s
  | .holdCurrentTimeout t a => Sys2Proof.Machine.execHoldCurrentTimeout t a s
  | .chopOff t a phase k => Sys2Proof.Machine.execChopOff t a phase k s
  | .chopCycleEnd t a phase sense => Sys2Proof.Machine.execChopCycleEnd t a phase sense s
  | .overcurrent t a is => Sys2Proof.Machine.execOvercurrent t a is s
  | .observerUpdate t a is01 is23 vp01 vp2 => Sys2Proof.Machine.execObserverUpdate t a is01 is23 vp01 vp2 s
  | .observerDisagreement t a => Sys2Proof.Machine.execObserverDisagreement t a s
  | .startTimeout t a => Sys2Proof.Machine.execStartTimeout t a s
  | .catchDone t a => Sys2Proof.Machine.execCatchDone t a s
  | .segmentWrite t p data => Sys2Proof.Machine.execSegmentWrite t p data s
  | .loopTick t => Sys2Proof.Machine.execLoopTick t s
  | .coefficientApply t p n v => Sys2Proof.Machine.execCoefficientApply t p n v s
  | .loopOverrunClear t p v => Sys2Proof.Machine.execLoopOverrunClear t p v s
  | .plannedPassRefresh t => Sys2Proof.Machine.execPlannedPassRefresh t s
  | .bar2Access t off write len bad => Sys2Proof.Machine.execBar2Access t off write len bad s
  | .queueEnable t q => Sys2Proof.Machine.execQueueEnable t q s
  | .queueDisable t q => Sys2Proof.Machine.execQueueDisable t q s
  | .doorbellWrite t p q v => Sys2Proof.Machine.execDoorbellWrite t p q v s
  | .porterGrant t ok => Sys2Proof.Machine.execPorterGrant t ok s
  | .agingPromotion t q => Sys2Proof.Machine.execAgingPromotion t q s
  | .markRequestAccept t q ok => Sys2Proof.Machine.execMarkRequestAccept t q ok s
  | .recordAccept t q ok => Sys2Proof.Machine.execRecordAccept t q ok s
  | .dictionaryRequest t => Sys2Proof.Machine.execDictionaryRequest t s
  | .mailboxSubmit t v => Sys2Proof.Machine.execMailboxSubmit t v s
  | .completionDrain t q => Sys2Proof.Machine.execCompletionDrain t q s
  | .eventWrite t => Sys2Proof.Machine.execEventWrite t s
  | .irqModerationTimeout t q => Sys2Proof.Machine.execIrqModerationTimeout t q s
  | .dmaStart t n => Sys2Proof.Machine.execDmaStart t n s
  | .dmaAbort t n => Sys2Proof.Machine.execDmaAbort t n s
  | .dmaBurst t n ok => Sys2Proof.Machine.execDmaBurst t n ok s
  | .hostReset t kind => Sys2Proof.Machine.execHostReset t kind s
  | .storeSave t p v => Sys2Proof.Machine.execStoreSave t p v s
  | .storeRestore t p v => Sys2Proof.Machine.execStoreRestore t p v s
  | .storeSaveDone t => Sys2Proof.Machine.execStoreSaveDone t s
  | .autoSave t => Sys2Proof.Machine.execAutoSave t s
  | .dramDataWrite t p data => Sys2Proof.Machine.execDramDataWrite t p data s
  | .dramDataRead t p bad => Sys2Proof.Machine.execDramDataRead t p bad s
  | .usdoRequest t k idx sub write => Sys2Proof.Machine.execUsdoRequest t k idx sub write s
  | .rpdoReceive t k n data => Sys2Proof.Machine.execRpdoReceive t k n data s
  | .tpdoTransmit t k n => Sys2Proof.Machine.execTpdoTransmit t k n s
  | .syncReceive t k counter => Sys2Proof.Machine.execSyncReceive t k counter s
  | .nmtStartRemoteNode t k => Sys2Proof.Machine.execNmtStartRemoteNode t k s
  | .nmtEnterPreoperational t k => Sys2Proof.Machine.execNmtEnterPreoperational t k s
  | .nmtStopRemoteNode t k => Sys2Proof.Machine.execNmtStopRemoteNode t k s
  | .nmtResetCommunication t k => Sys2Proof.Machine.execNmtResetCommunication t k s
  | .nmtResetNode t k => Sys2Proof.Machine.execNmtResetNode t k s
  | .heartbeatTimeout t k slot => Sys2Proof.Machine.execHeartbeatTimeout t k slot s
  | .emcyInhibitExpiry t k => Sys2Proof.Machine.execEmcyInhibitExpiry t k s
  | .busOff t k => Sys2Proof.Machine.execBusOff t k s
  | .busOffRecovery t k => Sys2Proof.Machine.execBusOffRecovery t k s
  | .kdpRequest t m src port data => Sys2Proof.Machine.execKdpRequest t m src port data s
  | .kdpEventSend t => Sys2Proof.Machine.execKdpEventSend t s
  | .arpRequest t m target sender senderMac => Sys2Proof.Machine.execArpRequest t m target sender senderMac s
  | .icmpEcho t m src dst data => Sys2Proof.Machine.execIcmpEcho t m src dst data s
  | .ptpMessage t m domain msg => Sys2Proof.Machine.execPtpMessage t m domain msg s
  | .ptpAnnounceTimeout t => Sys2Proof.Machine.execPtpAnnounceTimeout t s
  | .portUp t p => Sys2Proof.Machine.execPortUp t p s
  | .portDown t p cause => Sys2Proof.Machine.execPortDown t p cause s
  | .positionSend t j => Sys2Proof.Machine.execPositionSend t j s
  | .position t p f => Sys2Proof.Machine.execPosition t p f s
  | .positionLossTimeout t k => Sys2Proof.Machine.execPositionLossTimeout t k s
  | .timeSyncSend t p => Sys2Proof.Machine.execTimeSyncSend t p s
  | .timeSync t p seq t1 t2 t3 t4 foffParent => Sys2Proof.Machine.execTimeSync t p seq t1 t2 t3 t4 foffParent s
  | .helloSend t => Sys2Proof.Machine.execHelloSend t s
  | .hello t p seq src fabric nbPort root serial => Sys2Proof.Machine.execHello t p seq src fabric nbPort root serial s
  | .topology t p seq src version entries => Sys2Proof.Machine.execTopology t p seq src version entries s
  | .viewStable t => Sys2Proof.Machine.execViewStable t s
  | .tree t p seq version applyTime root epoch => Sys2Proof.Machine.execTree t p seq version applyTime root epoch s
  | .treeApply t => Sys2Proof.Machine.execTreeApply t s
  | .failover t p link => Sys2Proof.Machine.execFailover t p link s
  | .rediscoveryStart t link => Sys2Proof.Machine.execRediscoveryStart t link s
  | .ack t p seq => Sys2Proof.Machine.execAck t p seq s
  | .nak t p seq => Sys2Proof.Machine.execNak t p seq s
  | .replayTimeout t p => Sys2Proof.Machine.execReplayTimeout t p s
  | .anchor t p seq dst id ref aref ftime template tag => Sys2Proof.Machine.execAnchor t p seq dst id ref aref ftime template tag s
  | .voteReceive t p seq id src cas yes items deadline => Sys2Proof.Machine.execVoteReceive t p seq id src cas yes items deadline s
  | .voteCutoff t c => Sys2Proof.Machine.execVoteCutoff t c s
  | .go t p seq id => Sys2Proof.Machine.execGo t p seq id s
  | .abort t p seq id => Sys2Proof.Machine.execAbort t p seq id s
  | .report t p seq id src cas flags late => Sys2Proof.Machine.execReport t p seq id src cas flags late s
  | .pgChange t n level => Sys2Proof.Machine.execPgChange t n level s
  | .pgTimeout t n => Sys2Proof.Machine.execPgTimeout t n s
  | .retryDelayExpiry t n => Sys2Proof.Machine.execRetryDelayExpiry t n s
  | .retryCountReset t n => Sys2Proof.Machine.execRetryCountReset t n s
  | .programStart t p v => Sys2Proof.Machine.execProgramStart t p v s
  | .end_ t x => Sys2Proof.Machine.execEnd t x s
  | .enable t x => Sys2Proof.Machine.execEnable t x s
  | .disable t x => Sys2Proof.Machine.execDisable t x s
  | .wait t x => Sys2Proof.Machine.execWait t x s
  | .waitPg t x => Sys2Proof.Machine.execWaitPg t x s
  | .checkJump t x => Sys2Proof.Machine.execCheckJump t x s
  | .syncStep t x => Sys2Proof.Machine.execSyncStep t x s
  | .lsyncQualify t => Sys2Proof.Machine.execLsyncQualify t s
  | .lsyncRedrive t => Sys2Proof.Machine.execLsyncRedrive t s
  | .syncTimeout t x => Sys2Proof.Machine.execSyncTimeout t x s
  | .contention t => Sys2Proof.Machine.execContention t s
  | .programTimeLimit t x => Sys2Proof.Machine.execProgramTimeLimit t x s
  | .shutdownTimeLimit t => Sys2Proof.Machine.execShutdownTimeLimit t s
  | .storeCommit t p v => Sys2Proof.Machine.execStoreCommit t p v s
  | .pressed t => Sys2Proof.Machine.execPressed t s
  | .short t => Sys2Proof.Machine.execShort t s
  | .forceOff t => Sys2Proof.Machine.execForceOff t s
  | .manualReset t => Sys2Proof.Machine.execManualReset t s
  | .otpRead t => Sys2Proof.Machine.execOtpRead t s
  | .otpMarginRead t weak => Sys2Proof.Machine.execOtpMarginRead t weak s
  | .otpProgram t p v => Sys2Proof.Machine.execOtpProgram t p v s
  | .otpProgramDone t weak => Sys2Proof.Machine.execOtpProgramDone t weak s
  | .lifecycleAdvance t p v => Sys2Proof.Machine.execLifecycleAdvance t p v s
  | .setRestrict t p => Sys2Proof.Machine.execSetRestrict t p s
  | .setDebugLock t p => Sys2Proof.Machine.execSetDebugLock t p s
  | .revokeFirmwareKey t p v => Sys2Proof.Machine.execRevokeFirmwareKey t p v s
  | .advanceSecurityCounter t p v => Sys2Proof.Machine.execAdvanceSecurityCounter t p v s
  | .updateExecute t p v => Sys2Proof.Machine.execUpdateExecute t p v s
  | .updateDone t ok => Sys2Proof.Machine.execUpdateDone t ok s
  | .activate t p v => Sys2Proof.Machine.execActivate t p v s
  | .confirmed t => Sys2Proof.Machine.execConfirmed t s
  | .hostBootLoad t len => Sys2Proof.Machine.execHostBootLoad t len s
  | .requestConfigure t p => Sys2Proof.Machine.execRequestConfigure t p s
  | .requestStandby t p => Sys2Proof.Machine.execRequestStandby t p s
  | .requestReady t p => Sys2Proof.Machine.execRequestReady t p s
  | .requestMarking t p => Sys2Proof.Machine.execRequestMarking t p s
  | .requestService t p => Sys2Proof.Machine.execRequestService t p s
  | .requestSafe t p => Sys2Proof.Machine.execRequestSafe t p s
  | .modeTransitionComplete t => Sys2Proof.Machine.execModeTransitionComplete t s
  | .porstLow t => Sys2Proof.Machine.execPorstLow t s
  | .porstRelease t straps => Sys2Proof.Machine.execPorstRelease t straps s
  | .startupStandbyRequest t => Sys2Proof.Machine.execStartupStandbyRequest t s
  | .deviceResetCommand t p => Sys2Proof.Machine.execDeviceResetCommand t p s
  | .firmwareRestartCommand t p => Sys2Proof.Machine.execFirmwareRestartCommand t p s
  | .resetHoldEnd t => Sys2Proof.Machine.execResetHoldEnd t s
  | .restartEnd t => Sys2Proof.Machine.execRestartEnd t s
  | .faultOccurrence t b cause inst detail => Sys2Proof.Machine.execFaultOccurrence t b cause inst detail s
  | .faultClear t p mask => Sys2Proof.Machine.execFaultClear t p mask s
  | .fswLoRead t live => Sys2Proof.Machine.execFswLoRead t live s
  | .watchdog t code => Sys2Proof.Machine.execWatchdog t code s
  | .watchdogRestartStart t => Sys2Proof.Machine.execWatchdogRestartStart t s
  | .lockstepMismatch t group => Sys2Proof.Machine.execLockstepMismatch t group s
  | .dieTemperatureMeasure t celsius => Sys2Proof.Machine.execDieTemperatureMeasure t celsius s
  | .referenceLost t pll => Sys2Proof.Machine.execReferenceLost t pll s
  | .injectionExecute t p => Sys2Proof.Machine.execInjectionExecute t p s
  | .injectionRewrite t => Sys2Proof.Machine.execInjectionRewrite t s
  | .safeHeartbeat t => Sys2Proof.Machine.execSafeHeartbeat t s
  | .inputInactive t n => Sys2Proof.Machine.execInputInactive t n s
  | .alignTimeExpiry t a => Sys2Proof.Machine.execAlignTimeExpiry t a s
  | .catchBrakeExpiry t a => Sys2Proof.Machine.execCatchBrakeExpiry t a s
  | .pcieLinkUp t speed width => Sys2Proof.Machine.execPcieLinkUp t speed width s
  | .ethernetLinkUp t m speed => Sys2Proof.Machine.execEthernetLinkUp t m speed s
  | .ethernetLinkDown t m => Sys2Proof.Machine.execEthernetLinkDown t m s
  | .errorPassive t k passive => Sys2Proof.Machine.execErrorPassive t k passive s
  | .heartbeatProduce t k => Sys2Proof.Machine.execHeartbeatProduce t k s
  | .syncProduce t k => Sys2Proof.Machine.execSyncProduce t k s
  | .ptpTransmit t msg => Sys2Proof.Machine.execPtpTransmit t msg s

end Sys2Proof.Machine
end

