-- ==== Sys2Proof/Safety.lean ====
section
/-! DEFINITION. What statements about runs are said in: the canonical form of memory, the reserved bits of the Fault Status Word, what a
step never does, and when a path serves the dictionary. -/

namespace Sys2Proof.Machine

/-- Memories in canonical form: addresses strictly rising, no entry equal to what an unlisted address reads as. -/
def Mem.wf (m : Mem) : Bool := twf zeroCell m.dram && twf zeroCell m.host && twf onesCell m.flash

/-- Bits 56 to 63 of the Fault Status Word are reserved and read as 0 (R432, R5). -/
def State.fswOk (s : State) : Bool := decide (s.flt.fsw.toNat < 2 ^ 56)

/-- What every step keeps. -/
def State.Inv (s : State) : Prop := s.mem.wf = true ∧ s.fswOk = true

/-- One command's effect as a relation that composes: the queue is left alone, time does not go back, and the invariant is kept. -/
structure Keeps (s s' : State) : Prop where
  queue : s'.pending = s.pending
  time : s.clk.mono ≤ s'.clk.mono
  mem : s.mem.wf = true → s'.mem.wf = true
  fsw : s.fswOk = true → s'.fswOk = true

/-- A path over which the firmware answers a dictionary access at once (R331, R332): not BAR0, not in OFF or BOOT, not during a firmware
restart, and for USDO a node that is enabled and not stopped. -/
def State.serves (s : State) (p : Path) : Bool :=
  decide (2 ≤ s.modeN) && !s.deaf && (match p with
    | .bar0 => false
    | .usdo i => s.usdoServed i
    | _ => true)

end Sys2Proof.Machine
end

