-- ==== Sys2Proof/Certificates/Slice0/Obligations.lean ====
section
/-! DEFINITION. What the block is stated to do: one obligation per definition, each with the rules it rests on. -/

open Sys2Proof Sys2Proof.Machine

/-- O1. Under the conditions named, an incremental edge counts by the Gray-code direction (or is an illegal transition), a sine/cosine sample counts by the angle difference with OVERSPEED and AMPLITUDE, a Z edge is captured, a wire check and the status clear act on ENCe_STATUS, and auto-tracking moves by one sixteenth of the error. Each equation gives the whole next state, so nothing else changes. The angle of a sample is that of the corrected vector (log 298). (R21, R22, R23, R25, R26, R28, R48) -/
def Obligations.EncoderCommands : Prop :=
  (∀ (t : Time) (s0 : State) (e : Fin 16) (a b : Bool),
      let s := s0.tick t
      let x := s.encOf e
      let d := (quad a b + 4 - quad x.a x.b) % 4
      let sg : Int := if d = 1 then 1 else -1
      s.nat (oEnc e 1) = 1 → (¬(x.a = a ∧ x.b = b)) → (∀ l : Time, x.last = some l → l + nsT 16 ≤ edgeTime t) → d ≠ 2 →
      exec (.encoderEdge t e a b) s0 = .next ((s.setEnc e { x with a := a, b := b, last := some (edgeTime t) }).encCount e
        (if s.nat (oEnc e 2) = 1 then -sg else sg) (edgeTime t))) ∧
  (∀ (t : Time) (s0 : State) (e : Fin 16) (a b : Bool),
      let s := s0.tick t
      let x := s.encOf e
      s.nat (oEnc e 1) = 1 → (¬(x.a = a ∧ x.b = b)) → (∀ l : Time, x.last = some l → l + nsT 16 ≤ edgeTime t) → (quad a b + 4 - quad x.a x.b) % 4 = 2 →
      exec (.encoderEdge t e a b) s0 = .next ((s.setEnc e { x with a := a, b := b, last := some (edgeTime t) }).encFault e 6)) ∧
  (∀ (t : Time) (s0 : State) (e : Fin 16) (sn cs : Int),
      let s := s0.tick t
      let x := s.encOf e
      let s1 := s.encCal e 0x32 * (sn - s.encCal e 0x30)
      let c1 := s.encCal e 0x33 * (cs - s.encCal e 0x31)
      let c2 := quadratureFix s1 c1 (s.encCal e 0x34)
      let ang := encAngle s1 c2
      let d := (ang - x.ang + 2048) % 4096 - 2048
      let mag2 := s1 * s1 + c2 * c2
      let low := decide (100 * mag2 < 201326592 * 201326592 ∨ 1006632960 * 1006632960 < 100 * mag2)
      s.nat (oEnc e 1) = 2 → s.nat (oEnc e 9) = 0 → x.angKnown = true →
      exec (.sincosSample t e sn cs) s0 = .next (
        let u := s.setEnc e { x with ang := ang, angKnown := true, periods := (s.num (oEnc e 0x0A) + d - ang) / 4096, low := low }
        let u := if d > 512 ∨ d < -512 then u.encFault e 7 else u
        let u := if low then u.encFault e 5 else u
        if d = 0 then u else u.encCount e d t)) ∧
  (∀ (t : Time) (s0 : State) (e : Fin 16),
      let s := s0.tick t
      let x := s.encOf e
      let pos := s.num (oEnc e 0x0A)
      s.nat (oEnc e 1) = 2 → (∀ a : Nat, a < 16 → s.frcN (oAx a 6 5) ≠ 1) →
      exec (.index t e) s0 = .next (((s.setn (oEnc e 0x0B) pos).setn (oEnc e 0x0C) (s.devOf t)).setEnc e { x with st := putBit x.st 8 true })) ∧
  (∀ (t : Time) (s0 : State) (e : Fin 16) (pair : WirePair),
      let s := s0.tick t
      s.nat (oEnc e 1) ≠ 0 →
      exec (.wireCheckExpiry t e pair) s0 = .next (s.encFault e (match pair with
        | .a => 2
        | .b => 3
        | .z => 4))) ∧
  (∀ (t : Time) (s0 : State) (e : Fin 16) (smin smax cmin cmax freq : Int),
      let s := s0.tick t
      let x := s.encOf e
      s.nat (oEnc e 1) = 2 → s.nat (oEnc e 9) = 1 → 10 ≤ freq → freq ≤ 100000 →
      exec (.autoTrackUpdate t e smin smax cmin cmax freq) s0 = .next (s.setEnc e { x with
        adjOs := x.adjOs + asr ((smin + smax) / 2 - (s.encCal e 0x30 + x.adjOs)) 4
        adjOc := x.adjOc + asr ((cmin + cmax) / 2 - (s.encCal e 0x31 + x.adjOc)) 4
        adjGs := x.adjGs + asr (Config.gainError smin smax (s.encCal e 0x32 + x.adjGs)) 4
        adjGc := x.adjGc + asr (Config.gainError cmin cmax (s.encCal e 0x33 + x.adjGc)) 4 })) ∧
  (∀ (t : Time) (s0 : State) (e : Fin 16) (v : BitVec 32),
      let s := s0.tick t
      let x := s.encOf e
      exec (.encStatusClear t e v 0) s0 = .next (s.setEnc e { x with
        st := [2, 3, 4, 5, 6, 7, 8].foldl (fun st i => if v.getLsbD i then putBit st i false else st) x.st }))

/-- O2. In every mode from CONFIGURE on, a line axis whose last update lies 1 us back takes its update, tests the stitched marks of its casements and takes the commands that waited; a written source is applied, with its kind and instance in force, the new source's running estimate, SWITCHED set and FALLBACK, EXTRAPOLATING and LOST ended; a source at fault gets the response of R33; dead reckoning that has run out makes the axis LOST, with its lines and undecided marks; past the zero-speed timeout the velocity is 0; a divided-pulse step whose spacing has run leaves; the snapshot is taken. Each equation gives the whole next state. (R30, R32, R33, R34, R36, R46, R48, R74) -/
def Obligations.LineAxisCommands : Prop :=
  (∀ (t : Time) (s0 : State) (k : Fin 32),
      let s := s0.tick t
      let u := s.laxUpdate k t
      1 < s.modeN → (s.laxOf k).upT + usT 1 ≤ t →
      exec (.lineAxisUpdate t k) s0 = .next (u.fab.stitches.foldl (fun v x => if v.casAxis x.id.casement = k.val then v.stitchTest x.id else v) u).takeCommands) ∧
  (∀ (t : Time) (s0 : State) (k : Fin 32) (kind inst : Nat),
      let s := s0.tick t
      (s.laxOf k).pend = some (kind, inst) →
      (exec (.sourceSwitch t k) s0 = .next (s.applySource k kind inst t) ∧
        let y := (s.applySource k kind inst t).laxOf k
        y.kind = kind ∧ y.inst = inst ∧ y.pend = none ∧ y.follow = none ∧ y.dr = none ∧
        y.vf = ((s.ginTimers k t).sourceVel k kind inst t).1 ∧ bit y.st 2 = true ∧ bit y.st 5 = false ∧ bit y.st 6 = false ∧ bit y.st 7 = false)) ∧
  (∀ (t : Time) (s0 : State) (k : Fin 32),
      let s := s0.tick t
      let x := s.laxOf k
      x.kind ≠ 0 → x.dr = none → bit x.st 7 = false → x.follow = none → (x.kind ≠ 1 ∨ (s.encOf x.inst).st &&& 0xFC ≠ 0) →
      exec (.lineAxisSourceFault t k) s0 = .next (s.sourceFault k t)) ∧
  (∀ (t : Time) (s0 : State) (k : Fin 32) (t1 : Time),
      let s := s0.tick t
      (s.laxOf k).dr = some t1 → t1 + usT (s.laxOf k).drLim ≤ t →
      exec (.deadReckonExpiry t k) s0 = .next (((List.range 48).foldl (fun s c => if s.casAxis c = k.val then s.passLines c t else s)
        (s.laxLost k t)).decideLost k)) ∧
  (∀ (t : Time) (s0 : State) (k : Fin 32),
      let s := s0.tick t
      let x := s.laxOf k
      (x.kind = 1 ∨ x.kind = 2) → x.follow = none → x.dr = none → usT x.zsLim < t - x.tk → bit x.st 4 = false →
      exec (.zeroSpeedTimeout t k) s0 = .next ((s.ginTimers k t).setLax k { x with vf := 0, vraw := 0, zcnt := 0, st := putBit x.st 4 true })) ∧
  (∀ (t : Time) (s0 : State) (n : Fin 8) (f : Bool) (r : List Bool),
      let s := s0.tick t
      let x := s.plsOf n
      let ab := plsNext x.a x.b f
      x.q = f :: r → (∀ l : Time, x.last = some l → l + s.nat (oPls n 4) * nsT 25 / 2 ≤ t) → s.nat (oPls n 1) ≤ 15 → 1 < s.modeN →
      exec (.plsStepOut t n) s0 = .next ((s.setPls n { x with q := r, a := ab.1, b := ab.2, last := some t }).send (.pls n ab.1 ab.2))) ∧
  (∀ (t : Time) (s0 : State),
      let s := s0.tick t
      s.modeN ≠ 0 →
      exec (.laxSnap t) s0 = .next s.laxSnapshot)

/-- O3. An accepted active edge captures position and time, arms the re-arm distance, counts and (where anchors are captured) gives its casements an anchor; a rejected pulse is counted; an input gone inactive counts again; a stuck input is ignored and raises the casement-timing bit for each casement that takes anchors from it. (R39, R40, R41, R42, R52, R130) -/
def Obligations.InputCommands : Prop :=
  (∀ (t : Time) (s0 : State) (n : Fin 64),
      let s := s0.tick t
      let x := s.ginOf n
      let pa := s.laxAt (s.nat (oGin n 3)) t
      let d := s.num (oGin n 4)
      1 < s.modeN → x.active = false → x.ignored = false → (∀ r : Int, x.rearm = some r → 0 ≤ sdiff pa r) →
      exec (.ginEdge t n) s0 = .next (
        let u := s.setGin n { x with active := true, run := 0, runT := t, lim := s.nat (oGin n 5), rearm := if d = 0 then none else some (wrapS 64 (pa + d)) }
        let u := (((u.bump (oGin n 6)).setn (oGin n 8) pa).setn (oGin n 9) (wrapU 64 (s.devOf t))).talCount 1 n
        if u.captures then
          (List.range 48).foldl (fun s c =>
            if s.takesGin c n then (s.anchorsFirst c t).leadAnchor c (.input n (s.nat (oGin n 6))) (s.laxAt (s.casAxis c) t) t none else s) u
        else u)) ∧
  (∀ (t : Time) (s0 : State) (n : Fin 64),
      let s := s0.tick t
      1 < s.modeN → (s.ginOf n).active = false →
      exec (.ginPulseRejected t n) s0 = .next (s.bump (oGin n 7))) ∧
  (∀ (t : Time) (s0 : State) (n : Fin 64),
      let s := s0.tick t
      1 < s.modeN →
      exec (.inputInactive t n) s0 = .next (s.setGin n { s.ginOf n with active := false, ignored := false, run := 0 })) ∧
  (∀ (t : Time) (s0 : State) (n : Fin 64),
      let s := s0.tick t
      let x := s.ginOf n
      1 < s.modeN → x.active = true → x.ignored = false → x.lim ≠ 0 → msT x.lim < x.run + (if bit (s.laxStatus (s.nat (oGin n 3))) 4 then 0 else t - x.runT) →
      exec (.ginStuckTimeout t n) s0 = .next ((List.range 48).foldl (fun s c =>
        if s.takesGin c n then (s.event c 0x18 c).fault (28 + c / 12) 3 c n else s) (s.setGin n { x with stuck := true, ignored := true, ignoredT := t })))

/-- O4. At a whole-second boundary of device time after its write a staged time is applied; an offset above the step threshold steps device time by it and leaves the monotonic count; PTP silence goes to HOLDOVER and a minute later to SET; the calendar clock is realigned to device time at a whole minute and trimmed once per 64 s; TIME_CTRL.SNAP latches the snapshot. (R119, R120, R121, R122, R123, R124) -/
def Obligations.TimeCommands : Prop :=
  (∀ (t : Time) (s0 : State) (w : Nat) (u : Time),
      let s := s0.tick t
      s.clk.staged = some (w, u) → u + nsT 1 ≤ t → s.dev % 1000000000 = 0 →
      exec (.stagedTimeApply t) s0 = .next (s.applyTime w)) ∧
  (∀ (t : Time) (s0 : State) (theta : Int) (utc : Option Int),
      let s := s0.tick t
      s.nat (ky 0x2302 1) = 1 → s.num (ky 0x2302 2) < (theta.natAbs : Int) →
      ∃ u, exec (.ptpOffset t theta utc) s0 = .next u ∧ u.dev = s.dev - theta ∧ u.clk.mono = s.clk.mono ∧ u.clk.offsetT = some s.now ∧ u.mem = s.mem ∧ u.cas = s.cas ∧ u.flt = s.flt) ∧
  (∀ (t : Time) (s0 : State) (o : Time),
      let s := s0.tick t
      s.clk.offsetT = some o → s.nat (ky 0x2300 2) = 3 → o + msT (s.nat (ky 0x2302 5)) ≤ t →
      exec (.ptpHoldoverTimeout t) s0 = .next ({ s with clk := { s.clk with holdT := some t, lockN := 0 } }.setSource 4)) ∧
  (∀ (t : Time) (s0 : State) (h : Time),
      let s := s0.tick t
      s.clk.holdT = some h → s.nat (ky 0x2300 2) = 4 → h + secT 60 ≤ t →
      exec (.holdoverExpiry t) s0 = .next ({ s with clk := { s.clk with holdT := none } }.setSource 2)) ∧
  (∀ (t : Time) (s0 : State),
      let s := s0.tick t
      2 ≤ s.nat (ky 0x2300 2) → s.nat (ky 0x2300 2) ≤ 4 → s.dev / 1000000000 % 60 = 0 →
      exec (.calendarRealign t) s0 = .next { s with clk := { s.clk with
        calSec := (s.dev / 1000000000).toNat % 2 ^ 48
        calSub := (s.dev % 1000000000 * 32768 / 1000000000).toNat
        calOk := true
        calT := s.clk.mono } }) ∧
  (∀ (t : Time) (s0 : State),
      let s := s0.tick t
      let u := s.calAdvance
      let tot := (((u.clk.calSec * 32768 + u.clk.calSub : Nat) : Int) + tdiv (u.num (ky 0x2303 0x30) * 1048576) 1000000).toNat
      s.clk.trimT + secT 64 ≤ t →
      exec (.calendarTrimStep t) s0 = .next { u with clk := { u.clk with calSec := tot / 32768 % 2 ^ 48, calSub := tot % 32768, trimT := t } }) ∧
  (∀ (t : Time) (s0 : State),
      let s := s0.tick t
      s.modeN ≠ 0 →
      exec (.timeSnap t) s0 = .next s.timeSnapshot)

/-- O5. When device time reaches the effective second of an entry of the leap-second table event 0xDA is raised, once; when daylight time or the shift that the tables give at this device time is not the one in force, it becomes the one in force and events 0xDB and 0xDD are raised. (R125, R126, R128) -/
def Obligations.CalendarEvents : Prop :=
  (∀ (t : Time) (s0 : State),
      let s := s0.tick t
      let tai := s.dev / 1000000000
      (leapList s.calNow).any (fun e => e.1 = tai) = true → (∀ p : Int × Time, s.clk.leapAt = some p → p.1 = tai → p.2 + secT 1 ≤ t) →
      exec (.leapSecondApply t) s0 = .next ({ s with clk := { s.clk with leapAt := some (tai, t) } }.event 0xDA 0 0)) ∧
  (∀ (t : Time) (s0 : State),
      let s := s0.tick t
      let d := (calendar s.calNow s.dev).dst
      d ≠ s.clk.dayOn →
      exec (.daylightChange t) s0 = .next ({ s with clk := { s.clk with dayOn := d } }.event 0xDB 0 0)) ∧
  (∀ (t : Time) (s0 : State),
      let s := s0.tick t
      let x := (calendar s.calNow s.dev).shift
      x ≠ s.clk.shiftNow →
      exec (.shiftChange t) s0 = .next ({ s with clk := { s.clk with shiftNow := x } }.event 0xDD 0 0))

/-- O6. A read of TALLYt_LO answers the low half and latches the high half of the same value; a confirmed persistence mark becomes the saved mark. (R131, R132) -/
def Obligations.TallyCommands : Prop :=
  (∀ (t : Time) (s0 : State) (n : Fin 256),
      let s := s0.tick t
      let v := s.nat (oTal n 0)
      s.modeN ≠ 0 →
      exec (.tallyLoRead t n) s0 = .next ((s.setTal n { s.talOf n with latchHi := v / 2 ^ 32 }).answer (.data (leBytes 4 v)))) ∧
  (∀ (t : Time) (s0 : State) (n : Fin 256) (m : Nat),
      let s := s0.tick t
      let x := s.talOf n
      x.pend = some m →
      exec (.persistMarkConfirmed t n) s0 = .next ((s.setTal n { x with mark := m, pend := none }).talMark n))

/-- O7. A tally that is not held, has no persistence and stands within its limit gives its value; the next value is the value plus the step, or past the limit what the end mode says: the tally is held, or restarts at its reload value with event 0xDE, or restarts without an event. A held tally gives its value and keeps it. A draw of a tally leaves every other tally, all of memory and the queue alone. (R129, R131, R132) -/
def Obligations.TallyDraw : Prop :=
  (∀ (s : State) (n : Fin 256), (s.talOf n).held = true → s.talDraw n = (s.nat (oTal n 0), true, s)) ∧
  (∀ (s : State) (n : Fin 256), (s.talOf n).held = false → s.talGuard n = 0 →
      s.nat (oTal n 0) + s.nat (oTal n 4) ≤ s.talLimit n →
      s.talDraw n = (s.nat (oTal n 0), false, s.setn (oTal n 0) ((s.nat (oTal n 0) + s.nat (oTal n 4) : Nat) : Int))) ∧
  (∀ (s : State) (n : Fin 256), (s.talOf n).held = false → s.talGuard n = 0 →
      s.talLimit n < s.nat (oTal n 0) + s.nat (oTal n 4) → s.nat (oTal n 5) = 1 →
      s.talDraw n = (s.nat (oTal n 0), false, (s.setTal n { s.talOf n with held := true }).event 0xDE 0 n)) ∧
  (∀ (s : State) (n : Fin 256), (s.talOf n).held = false → s.talGuard n = 0 →
      s.talLimit n < s.nat (oTal n 0) + s.nat (oTal n 4) → s.nat (oTal n 5) = 2 →
      s.talDraw n = (s.nat (oTal n 0), false, (s.setn (oTal n 0) (s.num (oTal n 2))).event 0xDE 0 n)) ∧
  (∀ (s : State) (n : Fin 256), (s.talOf n).held = false → s.talGuard n = 0 →
      s.talLimit n < s.nat (oTal n 0) + s.nat (oTal n 4) → s.nat (oTal n 5) = 0 →
      s.talDraw n = (s.nat (oTal n 0), false, s.setn (oTal n 0) (s.num (oTal n 2)))) ∧
  (∀ (s : State) (n m : Fin 256), m ≠ n → (s.talDraw n).2.2.talOf m = s.talOf m ∧
      (s.talDraw n).2.2.nat (oTal m 0) = s.nat (oTal m 0)) ∧
  (∀ (s : State) (n : Fin 256), (s.talDraw n).2.2.mem = s.mem ∧ (s.talDraw n).2.2.pending = s.pending)

/-- O8. Over a path that serves the dictionary, in READY, MARKING or SERVICE, each command of R81 that its state accepts acts as R81 says: ARM enters ARMING, DISARM in ARMING powers down, DISARM and ENTER_SERVICE in ARMED and OPEN are noted with the instant of the command and show as pending, ENTER_SERVICE in COLD enters SERVICE at once, LEAVE_SERVICE enters COLD and ends a service measurement that runs with result 1, CLEAR_FAULT powers down the rails that are still on (unless they are powering down) or enters COLD. (R81, R83, R182, R331) -/
def Obligations.CasementCommands : Prop :=
  (∀ (t : Time) (s0 : State) (p : Path) (c : Fin 48),
      let s := s0.tick t
      s.serves p = true → s.casCheck c 1 = none →
      exec (.casementArm t p c) s0 = .next ((s.answer .ok).armAct c)) ∧
  (∀ (t : Time) (s0 : State) (p : Path) (c : Fin 48),
      let s := s0.tick t
      s.serves p = true → 4 ≤ s.modeN → s.modeN ≤ 6 → (s.casState c = 3 ∨ s.casState c = 4) →
      exec (.casementDisarm t p c) s0 = .next (((s.answer .ok).setCasement c { s.casOf c with disarm := some s.now }).casPending c)) ∧
  (∀ (t : Time) (s0 : State) (p : Path) (c : Fin 48),
      let s := s0.tick t
      s.serves p = true → 4 ≤ s.modeN → s.modeN ≤ 6 → s.casState c = 2 →
      exec (.casementDisarm t p c) s0 = .next ((((s.answer .ok).setCasement c { s.casOf c with disarm := some s.now }).casPending c).beginPowerDown c 1)) ∧
  (∀ (t : Time) (s0 : State) (p : Path) (c : Fin 48),
      let s := s0.tick t
      s.serves p = true → 4 ≤ s.modeN → s.modeN ≤ 6 → s.casState c = 1 →
      exec (.casementEnterService t p c) s0 = .next ((s.answer .ok).toService c)) ∧
  (∀ (t : Time) (s0 : State) (p : Path) (c : Fin 48),
      let s := s0.tick t
      s.serves p = true → 4 ≤ s.modeN → s.modeN ≤ 6 → (s.casState c = 3 ∨ s.casState c = 4) →
      exec (.casementEnterService t p c) s0 = .next (((s.answer .ok).setCasement c { s.casOf c with service := some s.now }).casPending c)) ∧
  (∀ (t : Time) (s0 : State) (p : Path) (c : Fin 48),
      let s := s0.tick t
      s.serves p = true → 4 ≤ s.modeN → s.modeN ≤ 6 → s.casState c = 5 → (s.casOf c).svc = none →
      exec (.casementLeaveService t p c) s0 = .next ((s.answer .ok).toCold c)) ∧
  (∀ (t : Time) (s0 : State) (p : Path) (c : Fin 48) (v : Svc),
      let s := s0.tick t
      s.serves p = true → 4 ≤ s.modeN → s.modeN ≤ 6 → s.casState c = 5 → (s.casOf c).svc = some v → v.phase ≠ 3 →
      exec (.casementLeaveService t p c) s0 = .next (((s.answer .ok).svcEnd c v 1).toCold c)) ∧
  (∀ (t : Time) (s0 : State) (p : Path) (c : Fin 48) (v : Svc),
      let s := s0.tick t
      s.serves p = true → 4 ≤ s.modeN → s.modeN ≤ 6 → s.casState c = 5 → (s.casOf c).svc = some v → v.phase = 3 →
      exec (.casementLeaveService t p c) s0 = .next ((s.answer .ok).toCold c)) ∧
  (∀ (t : Time) (s0 : State) (p : Path) (c : Fin 48),
      let s := s0.tick t
      s.serves p = true → 4 ≤ s.modeN → s.modeN ≤ 6 → s.casState c = 6 → (s.casOf c).opened = [] → (s.casOf c).after = none → s.faultEnded c = true → s.railsOn c = true →
      exec (.casementClearFault t p c) s0 = .next (let u := (s.answer .ok).setCasement c { s.casOf c with after := some 6 }
        if u.exBusy c = true ∧ (u.exOf c).entry = 4 then u else u.startProgram c 4)) ∧
  (∀ (t : Time) (s0 : State) (p : Path) (c : Fin 48),
      let s := s0.tick t
      s.serves p = true → 4 ≤ s.modeN → s.modeN ≤ 6 → s.casState c = 6 → (s.casOf c).opened = [] → (s.casOf c).after = none → s.faultEnded c = true → s.railsOn c = false →
      exec (.casementClearFault t p c) s0 = .next ((s.answer .ok).faultToCold c))

/-- O9. ARMING ends in ARMED once its program, its training and the HEAD conditions are met, and counts one arming; an expired arming timeout fails the arming; pending usage is flushed and hours are counted in ARMED and OPEN; waiting changes take effect, and then commands of R81 that have waited 2 us; the oldest waiting mark starts composing; a mark whose decision point is reached is decided, behind the triggers and closes of the same clock (R14). (R14, R81, R182, R241, R59, R65, R66) -/
def Obligations.CasementEvents : Prop :=
  (∀ (t : Time) (s0 : State) (c : Fin 48),
      let s := s0.tick t
      let x := s.casOf c
      s.casState c = 2 → x.after = none → s.exBusy c = false → x.trained = true → x.train = none → s.headOk c t (fun k => s.dec k t) = true →
      exec (.armingComplete t c) s0 = .next (((s.setCasement c { x with hourT := some t }).setCas c 3).sillAsk c (.add 1 1 (serialOf x.recd)))) ∧
  (∀ (t : Time) (s0 : State) (c : Fin 48),
      let s := s0.tick t
      (s.casOf c).armT + msT (s.frcN (oCas c 0 0x0E)) ≤ t → s.casState c = 2 → (s.casOf c).after = none →
      exec (.armingTimeout t c) s0 = .next ((s.event c 0xA c).beginPowerDown c 1)) ∧
  (∀ (t : Time) (s0 : State) (c : Fin 48),
      let s := s0.tick t
      (s.casState c = 3 ∨ s.casState c = 4) →
      exec (.usageLinesFlush t c) s0 = .next (s.usageFlush c)) ∧
  (∀ (t : Time) (s0 : State) (c : Fin 48) (h : Time),
      let s := s0.tick t
      let x := s.casOf c
      x.hourT = some h → (s.casState c = 3 ∨ s.casState c = 4) → h + secT 3600 ≤ t →
      exec (.usageHour t c) s0 = .next ((s.setCasement c { x with hourT := some (h + secT 3600) }).sillAsk c (.add 3 1 (serialOf x.recd)))) ∧
  (∀ (t : Time) (s0 : State),
      let s := s0.tick t
      exec (.changeApply t) s0 = .next (s.applyChanges t).takeCommands) ∧
  (∀ (t : Time) (s0 : State) (c : Fin 48) (m : Mark),
      let s := s0.tick t
      let u := s.applyChanges t
      let x := u.casOf c
      x.pend.find? (fun m => m.comp.isNone && (!m.needReq || m.req.isSome)) = some m → x.opened.length + (x.pend.filter (fun m => m.comp.isSome)).length < 2 →
      exec (.compositionStart t c) s0 = .next (({ u with comp := { u.comp with order := u.comp.order + 1 } }).beginMark c { m with comp := some (u.comp.order + 1), compT := u.now } false)) ∧
  (∀ (t : Time) (s0 : State) (c : Fin 48) (m : Mark),
      let s := s0.tick t
      let u := (s.applyChanges t).closesFirst c t
      (u.casOf c).pend.find? (fun m => m.vote.isNone) = some m → u.reached c m = true →
      exec (.decisionPoint t c) s0 = .next ((u.decide_ c m).takeCommand c))

/-- O10. Over a path that serves the dictionary, in a mode that its object accepts: a template, glyph-set or rotor-table commit whose staged image passes its checks begins its validation (or, with length 0, deletes at once); a pin of a loaded set within 2 MiB, an unpin (whose blocks stay cached) and a query number are stored; the end of a validation stores the image or reports its failure. (R85, R86, R87, R100, R107, R117, R268, R331) -/
def Obligations.CommitCommands : Prop :=
  (∀ (t : Time) (s0 : State) (p : Path),
      let s := s0.tick t
      s.serves p = true → s.modeN ≤ 6 → s.commitCheck .template = none →
      exec (.templateCommit t p 1) s0 = .next ((s.answer .ok).commitAct .template p)) ∧
  (∀ (t : Time) (s0 : State) (p : Path),
      let s := s0.tick t
      s.serves p = true → s.modeN ≤ 6 → s.commitCheck .glyphSet = none →
      exec (.glyphSetCommit t p 1) s0 = .next ((s.answer .ok).commitAct .glyphSet p)) ∧
  (∀ (t : Time) (s0 : State) (p : Path),
      let s := s0.tick t
      s.serves p = true → s.modeN ≤ 3 → s.commitCheck .rotorTable = none →
      exec (.rotorTableCommit t p 1) s0 = .next ((s.answer .ok).commitAct .rotorTable p)) ∧
  (∀ (t : Time) (s0 : State) (p : Path) (n : Fin 64) (v : Nat),
      let s := s0.tick t
      s.serves p = true → s.modeN ≤ 5 → v ≤ 1 → (s.setn (ky (0x5010 + n) 2) v).pinCheck n v = none →
      exec (.glyphSetPin t p n v) s0 = .next (((s.setn (ky (0x5010 + n) 2) v).answer .ok).pinAct n (s.pinned n))) ∧
  (∀ (t : Time) (s0 : State) (p : Path) (v : Nat),
      let s := s0.tick t
      s.serves p = true → s.modeN ≤ 6 → v ≤ 4095 →
      exec (.templateQuery t p v) s0 = .next ((s.setn (ky 0x5003 1) v).answer .ok)) ∧
  (∀ (t : Time) (s0 : State) (k : CommitKind) (x : Commit),
      let s := s0.tick t
      let r := (s.setCommitting k none).endCommit k x
      s.committing k = some x →
      exec (.commitValidationDone t k) s0 = .next (r.2.answer (if r.1 then .ok else .refused .range)))

/-- O11. A type-case fill puts its block in front of the cache and releases the marks that wait for it; a composition unit works on the most urgent job it may take; a galley refill of a composed line releases it. (R105, R108, R110, R114) -/
def Obligations.CompositorEvents : Prop :=
  (∀ (t : Time) (s0 : State) (n k : Nat) (b : Nat × Nat × Nat),
      let s := s0.tick t
      let u := { s with comp := { s.comp with fills := s.comp.fills.filter (· != b), blocks := (b :: s.comp.blocks.filter (· != b)).take (65536 - cdiv (s.pinnedBytes 64) 64) } }
      (s.comp.fills.find? (fun b => b.1 = n ∧ b.2.2 = k) = some b) →
      exec (.typeCaseFillDone t n k) s0 = .next (u.composing.foldl (fun s x =>
        if x.2.need.contains b then s.setPend x.1 { x.2 with need := x.2.need.filter (· != b), have_ := b :: x.2.have_ } else s) u)) ∧
  (∀ (t : Time) (s0 : State) (k : Fin 8) (pr : Int) (n : Nat) (m : Mark) (tp : Template),
      let s := s0.tick t
      let u := s.applyChanges t
      bestJob (u.jobs.filterMap (fun x =>
        if u.workable x.2 && (x.2.unit == some k.val || (x.2.unit.isNone && decide ((u.jobs.filter (fun p => p.2.unit = some k.val)).length < 2)))
        then some (u.jobUrgency x.1 x.2, x.1, x.2) else none)) = some (pr, n, m) → m.tpl = some tp →
      exec (.compositionUnitDispatch t k) s0 = .next (u.unitWork k n m tp)) ∧
  (∀ (t : Time) (s0 : State) (n : Fin 48) (line : Nat),
      let s := s0.tick t
      let x := s.casOf n
      exec (.galleyRefillDone t n line) s0 = .next (s.setCasement n { x with opened := x.opened.map (fun m => { m with refills := m.refills.filter (fun n => n != line || decide (m.lines.length ≤ n)) }) }))

/-- O12. Over a path that serves the dictionary: a key import in CONFIGURE while no key is being written clears the scalar object and queues the import; a revocation with 0x5A burns REVOKED and takes effect on marks from 2 us on; a verification of a message in DRAM captures its inputs. The dispatcher takes the next seal, then an import, then a verification; an operation ends 41.6 us after it started with its status; an import that passes its checks then has its rows programmed. (R136, R137, R138, R144, R145, R147, R149, R331) -/
def Obligations.NotaryCommands : Prop :=
  (∀ (t : Time) (s0 : State) (p : Path),
      let s := s0.tick t
      s.serves p = true → s.modeN = 2 → s.keyBusy = false →
      exec (.keyImport t p 1) s0 = .next ((s.answer .ok).importAct)) ∧
  (∀ (t : Time) (s0 : State) (p : Path),
      let s := s0.tick t
      s.serves p = true → s.modeN ≤ 3 → s.keyBusy = false →
      exec (.keyRevoke t p 90) s0 = .next ((s.answer .ok).revokeAct)) ∧
  (∀ (t : Time) (s0 : State) (p : Path),
      let s := s0.tick t
      s.serves p = true → s.modeN ≤ 6 → s.verifyCheck = none →
      exec (.verifyExecute t p 1) s0 = .next ((s.answer .ok).verifyAct)) ∧
  (∀ (t : Time) (s0 : State) (r : NReq),
      let s := s0.tick t
      let n := s.notary
      let q := n.queue.filter (fun x => x.issue != r.issue)
      n.op = none → nextSeal n.queue = some r →
      exec (.notaryDispatch t) s0 = .next ((s.setNotary { n with queue := q, op := some (.seal r false), startT := t, eccHit := false }).setn (ky 0x5200 1) (q.length : Nat))) ∧
  (∀ (t : Time) (s0 : State) (k : Nat) (x : Bytes),
      let s := s0.tick t
      let n := s.notary
      n.op = none → nextSeal n.queue = none → n.import_ = some (k, x) →
      exec (.notaryDispatch t) s0 = .next (s.setNotary { n with import_ := none, op := some (.import_ k x), startT := t, eccHit := false })) ∧
  (∀ (t : Time) (s0 : State) (v : VReq),
      let s := s0.tick t
      let n := s.notary
      n.op = none → nextSeal n.queue = none → n.import_ = none → n.verify = some v →
      exec (.notaryDispatch t) s0 = .next (s.setNotary { n with verify := none, op := some (.verify v), startT := t, eccHit := false })) ∧
  (∀ (t : Time) (s0 : State) (r : NReq),
      let s := s0.tick t
      let n := s.notary
      let u := (s.setNotary { n with op := none, eccHit := false }).bump (ky 0x5200 2)
      n.op = some (.seal r false) → n.startT + nsT 41600 ≤ t →
      exec (.notaryOperationDone t) s0 = .next ((u.setn (ky 0x5200 5) ((s.sealStatus r).1 : Nat)).deliverSeal r (s.sealStatus r).1 (s.sealStatus r).2)) ∧
  (∀ (t : Time) (s0 : State) (v : VReq),
      let s := s0.tick t
      let n := s.notary
      let u := (s.setNotary { n with op := none, eccHit := false }).bump (ky 0x5200 2)
      let st := s.verifyStatus v
      n.op = some (.verify v) → n.startT + nsT 41600 ≤ t →
      exec (.notaryOperationDone t) s0 = .next ((u.setn (ky 0x5203 8) (st : Nat)).setn (ky 0x5200 5) (st : Nat))) ∧
  (∀ (t : Time) (s0 : State) (k : Nat) (x : Bytes),
      let s := s0.tick t
      let n := s.notary
      let u := (s.setNotary { n with op := none, eccHit := false }).bump (ky 0x5200 2)
      let st := s.importStatus k x
      n.op = some (.import_ k x) → n.startT + nsT 41600 ≤ t → st ≠ 0 →
      exec (.notaryOperationDone t) s0 = .next ((u.setn (ky 0x5201 4) (st : Nat)).setn (ky 0x5200 5) (st : Nat)))

/-- O13. A service read or write accepted in SERVICE shows 0xFF and is asked for; the idle port starts the waiting request of the highest rank that is ready; an answer whose cells, preamble and CRC-8 are good, with status 0 and the full length, ends it; BUSY repeats it after 1 ms, up to 20 times, and a missing, badly coded or short answer or another status of a request of the device itself after 100 us, up to twice, else it fails with 0x10; another status ends a service transaction with that status; a repeated request is sent again once its time has come; a configured port is polled every 100 ms where no poll or record read waits. (R171, R172, R173, R174, R175, R184, R331) -/
def Obligations.SillCommands : Prop :=
  (∀ (t : Time) (s0 : State) (p : Path) (c : Fin 48),
      let s := s0.tick t
      s.serves p = true → s.modeN = 6 → s.svcCheck c 1 = none →
      exec (.serviceRead t p c) s0 = .next ((s.answer .ok).svcAct c 1)) ∧
  (∀ (t : Time) (s0 : State) (p : Path) (c : Fin 48),
      let s := s0.tick t
      s.serves p = true → s.modeN = 6 → s.svcCheck c 2 = none →
      exec (.serviceWrite t p c) s0 = .next ((s.answer .ok).svcAct c 2)) ∧
  (∀ (t : Time) (s0 : State) (c : Fin 48) (k : SillKind),
      let s := s0.tick t
      let x := s.casOf c
      x.sill = none → x.sillQ.foldl (fun (acc : Option SillKind) k =>
        if !(match k with | .add _ _ q => x.recOk && q == serialOf x.recd | _ => true) then acc
        else match acc with | none => some k | some b => if k.rank < b.rank then some k else some b) none = some k →
      exec (.sillTransactionStart t c) s0 = .next ((s.setCasement c { x with sill := some ⟨k, 0, 0, none⟩, sillQ := x.sillQ.erase k }).send (.sill c (sillWave (sillRequest k))))) ∧
  (∀ (t : Time) (s0 : State) (c : Fin 48) (w : Sill) (r : SillReply) (d : Bytes),
      let s := s0.tick t
      let x := s.casOf c
      x.sill = some w → w.retry = none → sillHear r = some (0, d) → d.length = w.kind.answerLen →
      exec (.sillTransactionDone t c r) s0 = .next ((s.setCasement c { x with sill := none }).sillOk c w.kind d)) ∧
  (∀ (t : Time) (s0 : State) (c : Fin 48) (w : Sill) (r : SillReply) (d : Bytes),
      let s := s0.tick t
      let x := s.casOf c
      x.sill = some w → w.retry = none → sillHear r = some (1, d) →
      exec (.sillTransactionDone t c r) s0 = .next (if w.busy < 20
        then s.setCasement c { x with sill := some { w with busy := w.busy + 1, retry := some (t + usT 1000) } }
        else (s.setCasement c { x with sill := none }).sillFailed c w.kind 0x10)) ∧
  (∀ (t : Time) (s0 : State) (c : Fin 48) (w : Sill) (r : SillReply) (st : Byte) (d : Bytes),
      let s := s0.tick t
      let x := s.casOf c
      x.sill = some w → w.retry = none → sillHear r = some (st, d) → 2 ≤ st.toNat → w.kind.isService = true →
      exec (.sillTransactionDone t c r) s0 = .next ((s.setCasement c { x with sill := none }).sillFailed c w.kind st.toNat)) ∧
  (∀ (t : Time) (s0 : State) (c : Fin 48) (w : Sill) (r : SillReply),
      let s := s0.tick t
      let x := s.casOf c
      x.sill = some w → w.retry = none → (sillHear r = none ∨ ∃ st d, sillHear r = some (st, d) ∧ (st = 0 ∧ d.length ≠ w.kind.answerLen ∨ 2 ≤ st.toNat ∧ w.kind.isService = false)) →
      exec (.sillTransactionDone t c r) s0 = .next (if w.fails < 2
        then s.setCasement c { x with sill := some { w with fails := w.fails + 1, retry := some (t + usT 100) } }
        else (s.setCasement c { x with sill := none }).sillFailed c w.kind 0x10)) ∧
  (∀ (t : Time) (s0 : State) (c : Fin 48) (w : Sill) (u : Time),
      let s := s0.tick t
      let x := s.casOf c
      x.sill = some w → w.retry = some u → u ≤ t →
      exec (.sillRetry t c) s0 = .next ((s.setCasement c { x with sill := some { w with retry := none } }).send (.sill c (sillWave (sillRequest w.kind))))) ∧
  (∀ (t : Time) (s0 : State) (c : Fin 48),
      let s := s0.tick t
      let x := s.casOf c
      1 < s.modeN → s.configured c = true → x.sillQ = [] → x.sill = none → elapsed x.pollT (msT 100) t = true →
      exec (.headPoll t c) s0 = .next ((s.setCasement c { x with pollT := some t }).sillAsk c .poll))

/-- O14. A thermistor conversion in range is converted through the table and checked against its window, an open or shorted one raises its bit; a supply conversion is scaled by VDDA and checked; a CMS conversion, and a thermistor conversion with no table, only take their slot of the round; a reference conversion gives VDDA; training ends after its time with the TABLE frame; a strobe past its limit ends the pulses and raises the casement-timing fault. (R153, R159, R163, R170, R178, R179, R180, R181, R182) -/
def Obligations.PortEvents : Prop :=
  (∀ (t : Time) (s0 : State) (c : Fin 48) (code : Nat) (rpu rt b : Nat),
      let s := s0.tick t
      let a := { s with adc := tset (fun _ => (0, 0)) s.adc (c.val / 6) ((adcPlace c .cth + 1) % 18, t + nsT 200) }
      let k := a.adcCode (c.val / 6) code
      let x := a.casOf c
      let u := ((((a.analogBit c 0 0xD false).analogBit c 1 0xE false).setCasement c { x with cthBad := false, cthT := some t }).setn (oCas c 6 3) (thermTemp rpu rt b k)).setn (oCas c 6 5) (wrapU 64 s.dev)
      s.adcTurn (c.val / 6) (adcPlace c .cth) t = true → x.table = some (rpu, rt, b) → 15 < k → k < 4080 →
      exec (.adcConversion t c .cth code) s0 = .next (if u.windowKnown c then u.analogBit c 2 0xB (!u.tempIn c u.calNow) else u)) ∧
  (∀ (t : Time) (s0 : State) (c : Fin 48) (code : Nat),
      let s := s0.tick t
      let a := { s with adc := tset (fun _ => (0, 0)) s.adc (c.val / 6) ((adcPlace c .cth + 1) % 18, t + nsT 200) }
      let x := a.casOf c
      let u := (a.setCasement c { x with cthBad := true }).analogBit c 0 0xD false
      s.adcTurn (c.val / 6) (adcPlace c .cth) t = true → x.table.isSome = true → a.adcCode (c.val / 6) code ≤ 15 →
      exec (.adcConversion t c .cth code) s0 = .next (u.analogBit c 1 0xE true)) ∧
  (∀ (t : Time) (s0 : State) (c : Fin 48) (code : Nat),
      let s := s0.tick t
      let a := { s with adc := tset (fun _ => (0, 0)) s.adc (c.val / 6) ((adcPlace c .cth + 1) % 18, t + nsT 200) }
      let x := a.casOf c
      let u := (a.setCasement c { x with cthBad := true }).analogBit c 1 0xE false
      s.adcTurn (c.val / 6) (adcPlace c .cth) t = true → x.table.isSome = true → 4080 ≤ a.adcCode (c.val / 6) code →
      exec (.adcConversion t c .cth code) s0 = .next (u.analogBit c 0 0xD true)) ∧
  (∀ (t : Time) (s0 : State) (c : Fin 48) (code : Nat),
      let s := s0.tick t
      let j := c.val / 6
      let a := { s with adc := tset (fun _ => (0, 0)) s.adc j ((adcPlace c .cvs + 1) % 18, t + nsT 200) }
      let u := ((a.setCasement c { a.casOf c with cvsT := some t }).setn (oCas c 6 4) (a.adcCode j code * a.vddaOf j * a.nat (oCas c 6 2) / (4096 * 65536) : Nat)).setn (oCas c 6 6) (wrapU 64 s.dev)
      s.adcTurn j (adcPlace c .cvs) t = true →
      exec (.adcConversion t c .cvs code) s0 = .next (if u.windowKnown c then u.analogBit c 3 0xC (!u.supplyIn c u.calNow) else u)) ∧
  (∀ (t : Time) (s0 : State) (c : Fin 48) (code : Nat) (pin : AdcPin),
      let s := s0.tick t
      s.adcTurn (c.val / 6) (adcPlace c pin) t = true → (pin = .cms ∨ pin = .cth ∧ (s.casOf c).table = none) →
      exec (.adcConversion t c pin code) s0 = .next { s with adc := tset (fun _ => (0, 0)) s.adc (c.val / 6) ((adcPlace c pin + 1) % 18, t + nsT 200) }) ∧
  (∀ (t : Time) (s0 : State) (j : Fin 8) (code : Nat),
      let s := s0.tick t
      let k := s.adcCode j code
      1 < s.modeN → k ≠ 0 →
      exec (.vddaReferenceConversion t j code) s0 = .next { s with vdda := tset (fun _ => 1800) s.vdda j (1200 * 4096 / k) }) ∧
  (∀ (t : Time) (s0 : State) (c : Fin 48) (w : Nat),
      let s := s0.tick t
      let x := s.casOf c
      let v := s.setCasement c { x with train := none, trained := true, linkT := t + s.longT 64 }
      let u := v.sendSashes c 2 224 (fun _ => v.tableFrame c)
      x.train = some w → x.trainT + usT (s.frcN (oCas c 4 0x0A)) ≤ t → s.pinsDriven c = true →
      exec (.trainingEnd t c) s0 = .next (if w = 2 then u.svcMeasure c else u)) ∧
  (∀ (t : Time) (s0 : State) (c : Fin 48) (v : Bool) (u : Time),
      let s := s0.tick t
      let x := s.casOf c
      s.strobing c t = some u → (v = true ∨ u + usT (s.nat (oCas c 4 0x0B)) ≤ t) → x.meas = none →
      exec (.strobeLimit t c v) s0 = .next
        (((((s.setCasement c { x with opened := x.opened.map (fun m => { m with strobeActed := true }) }).stopPulses c).bump (oCas c 4 0x10)).event c 6 c).fault
          (28 + c.val / 12) (if v then 2 else 1) c 0)) ∧
  (∀ (t : Time) (s0 : State) (c : Fin 48) (v : Bool) (u : Time) (m : Meas),
      let s := s0.tick t
      let x := s.casOf c
      let w := (s.measPulse c m).send (.strobeEnd c t)
      s.strobing c t = some u → (v = true ∨ u + usT (s.nat (oCas c 4 0x0B)) ≤ t) → x.meas = some m → m.start c ≤ t → t < m.stop c →
      exec (.strobeLimit t c v) s0 = .next
        (((((w.setCasement c { w.casOf c with meas := none, opened := x.opened.map (fun m => { m with strobeActed := true }) }).stopPulses c).bump (oCas c 4 0x10)).event c 6 c).fault
          (28 + c.val / 12) (if v then 2 else 1) c 0))

/-- O15. The first waiting line that is ready, whose link is free and whose latest start has not passed starts to load; one whose latest start has passed goes blank, SKIP where only the link held it and LATE otherwise, as a first line is whose latest start passed before its mark was committed; the minimum line periods are published every 100 us while no mark is open. (R160, R189, R191, R192, R193, R194, R195, R211) -/
def Obligations.FiringLoads : Prop :=
  (∀ (t : Time) (s0 : State) (n : Fin 48) (m : Mark) (l : Nat) (u : Int),
      let s := s0.tick t
      let w := s.settleLoads n t
      (w.casOf n).findLine (fun l => l.st == .waiting) = some (m, l) → w.lineReady n m l = true → w.linkFree n m l t = true → w.trigT n m l = some u → (t : Int) ≤ u - (w.leadT n : Int) →
      exec (.lineLoad t n) s0 = .next (w.loadLine n m l t)) ∧
  (∀ (t : Time) (s0 : State) (n : Fin 48) (m : Mark) (l : Nat),
      let s := s0.tick t
      let w := s.settleLoads n t
      (w.casOf n).findLine (fun l => l.st == .waiting) = some (m, l) → w.lineReady n m l = true → w.linkFree n m l t = true → w.trigT n m l = none →
      exec (.lineLoad t n) s0 = .next (w.loadLine n m l t)) ∧
  (∀ (t : Time) (s0 : State) (n : Fin 48) (m : Mark) (l : Nat) (u : Int),
      let s := s0.tick t
      let w := s.settleLoads n t
      (w.casOf n).findLine (fun l => l.st == .waiting) = some (m, l) → w.trigT n m l = some u → u - (w.leadT n : Int) ≤ (t : Int) →
      exec (.loadDeadline t n) s0 = .next (w.blankLine n m l (if ¬(l = 0 ∧ u - (w.leadT n : Int) < (m.tD : Int)) ∧ w.lineReady n m l = true ∧ (!w.linkFree n m l t) = true then .skip else .late))) ∧
  (∀ (t : Time) (s0 : State) (n : Fin 48),
      let s := s0.tick t
      let x := s.casOf n
      let w := s.setCasement n { x with refreshT := some t }
      let m := { Mark.init with cfg := w.snapshot n t }
      x.opened = [] → s.configured n = true → 1 < s.modeN → elapsed x.refreshT (usT 100) t = true →
      exec (.minPeriodRefresh t n) s0 = .next (w.publish n m (w.factors n m).1 (w.factors n m).2 x.hb))

/-- O16. At the freeze of the next loaded line its trigger time is the nearest edge, the factors, the head budget and the minimum periods move and are published, and it goes blank with FAULT where the casement cannot fire and with SKIP where that time is past or its frame, an earlier pulse or a line ahead is not done by then; where its widths fit the gap to the next line at full size, it freezes with those widths, their offsets and its end; where they do not fit and the policy is to skip, it goes blank. At its trigger time the frozen line fires, its latches and pulses leaving on the pins, or goes blank with FAULT. A fired line ends, and a mark whose lines have all ended closes. (R187, R188, R195, R202, R203, R205, R206, R207, R209, R210, R213) -/
def Obligations.FiringLines : Prop :=
  (∀ (t : Time) (s0 : State) (n : Fin 48) (m : Mark) (l : Nat) (u : Int),
      let s := s0.tick t
      let w0 := s.settleLoads n t
      let m1 := { m with minV := min m.minV (w0.nat (oCas n 6 4)), maxT := max m.maxT (w0.num (oCas n 6 3)) }
      let fv := (w0.factors n m1).1
      let ft := (w0.factors n m1).2
      let w := ((w0.setOpen n m1).setn (oCas n 9 3) (fv : Nat)).setn (oCas n 9 4) (ft : Nat)
      let x := m.line l
      let ahead := (w0.casOf n).ahead m l
      let wd := (w.widths n m1 fv ft 32768 32768).1
      let dline := ((x.nj.zip wd).map (fun p => p.1 * p.2)).sum
      let hb := w.budget n m1 ahead dline
      let w2 := ((w.setCasement n { w.casOf n with hb := hb }).setn (oCas n 9 5) (hb : Nat)).publish n m1 fv ft hb
      (w0.casOf n).findLine (fun l => l.st == .loading || l.st == .loaded) = some (m, l) → w0.trigT n m l = some u → u ≤ (t + nsT 200 : Nat) → ahead.any (fun a => a.st == .loading || a.st == .loaded || a.st == .waiting) = false → w2.lineFault n m1 = true →
      exec (.lineFreeze t n) s0 = .next (w2.blankLine n { m1 with strobeActed := true } l .fault)) ∧
  (∀ (t : Time) (s0 : State) (n : Fin 48) (m : Mark) (l : Nat) (u : Int),
      let s := s0.tick t
      let w0 := s.settleLoads n t
      let m1 := { m with minV := min m.minV (w0.nat (oCas n 6 4)), maxT := max m.maxT (w0.num (oCas n 6 3)) }
      let fv := (w0.factors n m1).1
      let ft := (w0.factors n m1).2
      let w := ((w0.setOpen n m1).setn (oCas n 9 3) (fv : Nat)).setn (oCas n 9 4) (ft : Nat)
      let x := m.line l
      let ahead := (w0.casOf n).ahead m l
      let wd := (w.widths n m1 fv ft 32768 32768).1
      let dline := ((x.nj.zip wd).map (fun p => p.1 * p.2)).sum
      let hb := w.budget n m1 ahead dline
      let w2 := ((w.setCasement n { w.casOf n with hb := hb }).setn (oCas n 9 5) (hb : Nat)).publish n m1 fv ft hb
      let tT := nearEdge u
      let setup := if w.portKind n = 1 then nsT (w.headLatch n) else w.longT (w.shiftPeriod n + 2 * w.latchUnits n) / 2 + unitT (w.nat (oCas n 4 7))
      (w0.casOf n).findLine (fun l => l.st == .loading || l.st == .loaded) = some (m, l) → w0.trigT n m l = some u → u ≤ (t + nsT 200 : Nat) → ahead.any (fun a => a.st == .loading || a.st == .loaded || a.st == .waiting) = false → w2.lineFault n m1 = false → (tT < t ∨ tT < x.frameEnd + setup ∨ tT < (w2.casOf n).lastEnd ∨ ahead.any (fun a => decide (tT < a.endT)) = true) →
      exec (.lineFreeze t n) s0 = .next (w2.blankLine n m1 l .skip)) ∧
  (∀ (t : Time) (s0 : State) (n : Fin 48) (m : Mark) (l : Nat) (u : Int),
      let s := s0.tick t
      let w0 := s.settleLoads n t
      let m1 := { m with minV := min m.minV (w0.nat (oCas n 6 4)), maxT := max m.maxT (w0.num (oCas n 6 3)) }
      let fv := (w0.factors n m1).1
      let ft := (w0.factors n m1).2
      let w := ((w0.setOpen n m1).setn (oCas n 9 3) (fv : Nat)).setn (oCas n 9 4) (ft : Nat)
      let x := m.line l
      let ahead := (w0.casOf n).ahead m l
      let wd := (w.widths n m1 fv ft 32768 32768).1
      let dline := ((x.nj.zip wd).map (fun p => p.1 * p.2)).sum
      let hb := w.budget n m1 ahead dline
      let w2 := ((w.setCasement n { w.casOf n with hb := hb }).setn (oCas n 9 5) (hb : Nat)).publish n m1 fv ft hb
      let tT := nearEdge u
      let setup := if w.portKind n = 1 then nsT (w.headLatch n) else w.longT (w.shiftPeriod n + 2 * w.latchUnits n) / 2 + unitT (w.nat (oCas n 4 7))
      let g := m1.nat (oCas n 7 7)
      let v := (w2.widths n m1 fv ft hb 32768).1
      let raised := ((w2.widths n m1 fv ft hb 32768).2.take v.length).filter id
      let m3 := { m1 with minC := min m1.minC 32768, minHb := min m1.minHb hb }
      let w3 := if raised.length = 0 then w2 else (w2.bumpBy (oCas n 4 0x0E) raised.length).event n 5 n
      (w0.casOf n).findLine (fun l => l.st == .loading || l.st == .loaded) = some (m, l) → w0.trigT n m l = some u → u ≤ (t + nsT 200 : Nat) → ahead.any (fun a => a.st == .loading || a.st == .loaded || a.st == .waiting) = false → w2.lineFault n m1 = false → t ≤ tT → x.frameEnd + setup ≤ tT → (w2.casOf n).lastEnd ≤ tT → ahead.any (fun a => decide (tT < a.endT)) = false → w2.fits (w2.need n g v) (w2.nextGap n m1 l) (w2.laxVf 33 (w2.casAxis n)) = true →
      exec (.lineFreeze t n) s0 = .next ((w3.setOpen n (m3.setLine l { x with st := .frozen, tT := tT, w := v, offs := w3.pulseOffs n g v, dline := dline, endT := tT + w3.longT (w3.pulseSpan n g v) })).overspeed n 0)) ∧
  (∀ (t : Time) (s0 : State) (n : Fin 48) (m : Mark) (l : Nat) (u : Int),
      let s := s0.tick t
      let w0 := s.settleLoads n t
      let m1 := { m with minV := min m.minV (w0.nat (oCas n 6 4)), maxT := max m.maxT (w0.num (oCas n 6 3)) }
      let fv := (w0.factors n m1).1
      let ft := (w0.factors n m1).2
      let w := ((w0.setOpen n m1).setn (oCas n 9 3) (fv : Nat)).setn (oCas n 9 4) (ft : Nat)
      let x := m.line l
      let ahead := (w0.casOf n).ahead m l
      let wd := (w.widths n m1 fv ft 32768 32768).1
      let dline := ((x.nj.zip wd).map (fun p => p.1 * p.2)).sum
      let hb := w.budget n m1 ahead dline
      let w2 := ((w.setCasement n { w.casOf n with hb := hb }).setn (oCas n 9 5) (hb : Nat)).publish n m1 fv ft hb
      let tT := nearEdge u
      let setup := if w.portKind n = 1 then nsT (w.headLatch n) else w.longT (w.shiftPeriod n + 2 * w.latchUnits n) / 2 + unitT (w.nat (oCas n 4 7))
      let g := m1.nat (oCas n 7 7)
      let v := (w2.widths n m1 fv ft hb 32768).1
      (w0.casOf n).findLine (fun l => l.st == .loading || l.st == .loaded) = some (m, l) → w0.trigT n m l = some u → u ≤ (t + nsT 200 : Nat) → ahead.any (fun a => a.st == .loading || a.st == .loaded || a.st == .waiting) = false → w2.lineFault n m1 = false → t ≤ tT → x.frameEnd + setup ≤ tT → (w2.casOf n).lastEnd ≤ tT → ahead.any (fun a => decide (tT < a.endT)) = false → w2.fits (w2.need n g v) (w2.nextGap n m1 l) (w2.laxVf 33 (w2.casAxis n)) = false → m1.nat (oCas n 7 4) = 2 →
      exec (.lineFreeze t n) s0 = .next (w2.blankLine n m1 l .skip)) ∧
  (∀ (t : Time) (s0 : State) (n : Fin 48) (m : Mark) (l : Nat),
      let s := s0.tick t
      let w := s.settleLoads n t
      let x := m.line l
      (w.casOf n).findLine (fun l => l.st == .frozen) = some (m, l) → x.tT ≤ t → w.lineFault n m = true →
      exec (.lineTrigger t n) s0 = .next (w.blankLine n { m with strobeActed := true } l .fault)) ∧
  (∀ (t : Time) (s0 : State) (n : Fin 48) (m : Mark) (l : Nat),
      let s := s0.tick t
      let w := s.settleLoads n t
      let x := m.line l
      let fl := if bit (w.laxStatus (w.casAxis n)) 6 = true ∧ (!bit m.flags 7) = true then m.flags + 128 else m.flags
      (w.casOf n).findLine (fun l => l.st == .frozen) = some (m, l) → x.tT ≤ t → w.lineFault n m = false →
      exec (.lineTrigger t n) s0 = .next ((w.setOpen n ({ m with flags := fl }.setLine l { x with st := .firing })).emitLine n x)) ∧
  (∀ (t : Time) (s0 : State) (n : Fin 48),
      let s := s0.tick t
      let w := s.settleLoads n t
      exec (.lineFired t n) s0 = .next ((w.finishLine n t).getD w)) ∧
  (∀ (t : Time) (s0 : State) (n : Fin 48),
      let s := s0.tick t
      exec (.markClose t n) s0 = .next ((s.settleLoads n t).closeMark n))

/-- O17. At the reject position every tag reached drives a pulse in time or in distance, the products are counted and the tags held are those left; a pulse that has ended, with no overrun, goes inactive. (R77, R78, R79, R80) -/
def Obligations.RejectCommands : Prop :=
  (∀ (t : Time) (s0 : State) (r : Fin 8),
      let s := s0.tick t
      let x := s.rejOf r
      let p := s.laxPos (s.nat (oRej r 2)) t
      let hit := x.tags.filter (fun g => decide (0 ≤ sdiff p g.pos))
      let rest := x.tags.filter (fun g => !decide (0 ≤ sdiff p g.pos))
      let y := { x with tags := rest, active := true, untilT := max x.untilT (t + usT (s.nat (oRej r 5))) }
      hit ≠ [] → s.nat (oRej r 4) = 0 →
      exec (.rejectPosition t r) s0 = .next ((((s.setRej r y).bumpBy (oRej r 8) hit.length).setn (oRej r 7) (rest.length : Nat)).rejSettle r p)) ∧
  (∀ (t : Time) (s0 : State) (r : Fin 8),
      let s := s0.tick t
      let x := s.rejOf r
      let p := s.laxPos (s.nat (oRej r 2)) t
      let hit := x.tags.filter (fun g => decide (0 ≤ sdiff p g.pos))
      let rest := x.tags.filter (fun g => !decide (0 ≤ sdiff p g.pos))
      let e := hit.foldl (fun e g => laterPos (some e) (wrapS 64 (g.pos + (s.nat (oRej r 5) : Nat)))) (laterPos x.untilP p)
      hit ≠ [] → s.nat (oRej r 4) ≠ 0 →
      exec (.rejectPosition t r) s0 = .next ((((s.setRej r { x with tags := rest, active := true, untilP := some e }).bumpBy (oRej r 8) hit.length).setn (oRej r 7) (rest.length : Nat)).rejSettle r p)) ∧
  (∀ (t : Time) (s0 : State) (r : Fin 8),
      let s := s0.tick t
      let p := s.laxPos (s.nat (oRej r 2)) t
      let u := s.rejSettle r p
      u.nat (oRej r 0x0B) ≠ 1 → (u.rejOf r).ended t p = true →
      exec (.rejectPulseEnd t r) s0 = .next (u.setRej r { u.rejOf r with active := false, untilP := none }))

/-- O18. Over a path that serves the dictionary: a service measurement accepted in SERVICE starts its power program; a declared or cleared defect, a supply adjustment and a new supply take effect on marks decided from 2 us on, as a host sensor write does where the host is the sensor; an element record is written through the element named; an export or import moves all records. (R218, R229, R230, R236, R238, R240, R245, R331) -/
def Obligations.LedgerCommands : Prop :=
  (∀ (t : Time) (s0 : State) (p : Path) (n : Fin 48),
      let s := s0.tick t
      s.serves p = true → s.modeN = 6 → s.measSvcCheck n 1 = none →
      exec (.serviceFullPass t p n) s0 = .next ((s.answer .ok).measSvcAct n 1)) ∧
  (∀ (t : Time) (s0 : State) (p : Path) (n : Fin 48),
      let s := s0.tick t
      s.serves p = true → s.modeN = 6 → s.measSvcCheck n 2 = none →
      exec (.serviceOneElement t p n) s0 = .next ((s.answer .ok).measSvcAct n 2)) ∧
  (∀ (t : Time) (s0 : State) (p : Path) (n : Fin 48) (e : Nat),
      let s := s0.tick t
      s.serves p = true → s.modeN ≤ 6 → e < s.ne n → e < 2 ^ 32 →
      exec (.defectDeclare t p n e) s0 = .next ((s.answer .ok).addChange (.declare n e))) ∧
  (∀ (t : Time) (s0 : State) (p : Path) (n : Fin 48) (e : Nat),
      let s := s0.tick t
      s.serves p = true → s.modeN ≤ 6 → (e = 0xFFFFFFFF ∨ e < s.ne n) → e < 2 ^ 32 →
      exec (.defectClear t p n e) s0 = .next ((s.answer .ok).addChange (.clear n e))) ∧
  (∀ (t : Time) (s0 : State) (p : Path) (n : Fin 48) (v : Nat),
      let s := s0.tick t
      s.serves p = true → s.modeN ≤ 6 → v < 2 ^ 32 →
      exec (.consumeAdjust t p n v) s0 = .next ((s.answer .ok).addChange (.consume n v))) ∧
  (∀ (t : Time) (s0 : State) (p : Path) (n : Fin 48) (v : Nat),
      let s := s0.tick t
      s.serves p = true → s.modeN ≤ 6 → v < 2 ^ 64 → s.nat (oCas n 0x0F 5) = 2 →
      exec (.hostSensorWrite t p n v) s0 = .next (((s.setDec (oCas n 0x0F 0x0B) (.num v)).answer .ok).addChange (.hostSensor n v))) ∧
  (∀ (t : Time) (s0 : State) (p : Path) (n : Fin 48),
      let s := s0.tick t
      s.serves p = true → s.modeN ≤ 6 →
      exec (.newSupply t p n 1) s0 = .next ((s.answer .ok).addChange (.newSupply n (s.nat (oCas n 0x0F 1))))) ∧
  (∀ (t : Time) (s0 : State) (p : Path) (n : Fin 48) (v : Nat),
      let s := s0.tick t
      s.serves p = true → (s.modeN = 2 ∨ s.modeN = 6) → s.portAIdle n = true → s.nat (oCas n 0x10 1) < s.ne n → v < 2 ^ 32 →
      exec (.recordWrite t p n v) s0 = .next ((s.answer .ok).recordPut n v)) ∧
  (∀ (t : Time) (s0 : State) (p : Path) (n : Fin 48),
      let s := s0.tick t
      s.serves p = true → (s.modeN = 2 ∨ s.modeN = 6) →
      exec (.ledgerExport t p n) s0 = .next ((s.answer .ok).ledgerExport n)) ∧
  (∀ (t : Time) (s0 : State) (p : Path) (n : Fin 48),
      let s := s0.tick t
      s.serves p = true → (s.modeN = 2 ∨ s.modeN = 6) → s.portAIdle n = true →
      exec (.ledgerImport t p n) s0 = .next ((s.answer .ok).ledgerImport n))

/-- O19. A measurement cycle whose pulse has ended turns its three conversions into a code and a result for the element under measurement, in a gap pass and in a service measurement; a gap pass starts when it is due; the scrubber reads one record of every bank and moves on; a ribbon span gives the remaining spool; an ink sensor is polled every 10 s where it is the sensor. (R221, R224, R227, R229, R234, R235, R237, R238) -/
def Obligations.LedgerEvents : Prop :=
  (∀ (t : Time) (s0 : State) (n : Fin 48) (vb vh von : Nat) (m : Meas) (v : Svc),
      let s := s0.tick t
      let j := n.val / 6
      let r := (s.measPulse n m).measCode n (s.adcCode j vb * s.vddaOf j / 4096) (s.adcCode j vh * s.vddaOf j * s.nat (oCas n 6 2) / (4096 * 65536)) (s.adcCode j von * s.vddaOf j / 4096)
      (s.casOf n).svc = some v → v.phase = 2 → s.casState n = 5 → (s.casOf n).meas = some m → m.stop n ≤ t →
      exec (.measureCycle t n vb vh von) s0 = .next (r.2.measResult n r.1 m)) ∧
  (∀ (t : Time) (s0 : State) (n : Fin 48) (vb vh von : Nat) (m : Meas),
      let s := s0.tick t
      let j := n.val / 6
      let r := (s.measPulse n m).measCode n (s.adcCode j vb * s.vddaOf j / 4096) (s.adcCode j vh * s.vddaOf j * s.nat (oCas n 6 2) / (4096 * 65536)) (s.adcCode j von * s.vddaOf j / 4096)
      (s.casOf n).svc = none → s.gapOk n = true → (s.casOf n).pass = true → (s.casOf n).meas = some m → m.stop n ≤ t →
      exec (.measureCycle t n vb vh von) s0 = .next (r.2.measResult n r.1 m)) ∧
  (∀ (t : Time) (s0 : State) (n : Fin 48),
      let s := s0.tick t
      let x := s.casOf n
      s.gapOk n = true → x.pass = false → (∀ u : Time, x.passT = some u → u + secT (s.nat (oCas n 0x0D 7)) ≤ t) →
      exec (.measurePassStart t n) s0 = .next ((s.setCasement n { x with pass := true, passT := some t, seen := [] }).gapGo n none)) ∧
  (∀ (t : Time) (s0 : State),
      let s := s0.tick t
      let q := s.ledScrub
      let u := (List.range 192).foldl (State.scrubBank q) s
      s.nat (ky 0x2020 1) ≠ 0 → 1 < s.modeN → elapsed s.ledScrubT (usT (s.nat (ky 0x2020 1))) t = true →
      exec (.scrubStep t) s0 = .next (if q + 1 = 32768 then { u with ledScrub := (q + 1) % 32768, ledScrubT := some t }.bump (ky 0x2020 2) else { u with ledScrub := (q + 1) % 32768, ledScrubT := some t })) ∧
  (∀ (t : Time) (s0 : State) (n : Fin 48) (p0 : Int),
      let s := s0.tick t
      let x := s.casOf n
      let span := x.span
      let p := s.num (oAx (s.nat (oCas n 0x0F 6)) 1 8)
      let k := (sdiff p p0).natAbs
      let u := s.setCasement n { x with ribbon := x.ribbon - span, spool := some p, span := s.nat (oCas n 0x0F 0x0A) }
      let sc := span * s.nat (oCas n 0x0F 7)
      let dc := s.nat (oCas n 0x0F 8)
      let th := s.nat (oCas n 0x0F 9)
      let num := sc * sc * 250 * (10 ^ 18 * 10 ^ 18) - 3141592653589793238 * 3141592653589793238 * dc * dc * 250 * k * k
      x.spool = some p0 → s.nat (oCas n 1 1) = 1 → s.nat (oCas n 0x0F 5) = 3 → span ≤ x.ribbon → k ≠ 0 →
      exec (.spoolSpan t n) s0 = .next ((u.setn (oCas n 0x0F 4) (num / (3141592653589793238 * k * k * max 1 th * 10 ^ 18) : Nat)).consumableStatus n)) ∧
  (∀ (t : Time) (s0 : State) (n : Fin 48),
      let s := s0.tick t
      let x := s.casOf n
      1 < s.modeN → s.configured n = true → s.casState n ≠ 0 → s.nat (oCas n 1 1) = 2 → s.nat (oCas n 0x0F 5) = 1 → elapsed x.inkT (secT 10) t = true →
      exec (.inkSensorPoll t n) s0 = .next ((s.setCasement n { x with inkT := some t }).sillAsk n (.sensor (s.nat (oCas n 0x0F 6)))))

/-- O20. Over a path that serves the dictionary, in READY, MARKING or SERVICE, each of the nine axis commands that R248 accepts in the axis's state waits for the next tick (a MOVE with the target, a VELOCITY with the velocity written), and a RUN begins the check of its chain with result 0xFF. (R248, R249, R252, R253, R254, R255, R265, R272, R331) -/
def Obligations.AxisCommands : Prop :=
  (∀ (t : Time) (s0 : State) (p : Path) (a : Fin 48),
      let s := s0.tick t
      s.serves p = true → 4 ≤ s.modeN → s.modeN ≤ 6 → s.axCheck a 1 = none →
      exec (.axisEnable t p a) s0 = .next ((s.answer .ok).setAx a { s.axOf a with cmds := (s.axOf a).cmds ++ [.enable] })) ∧
  (∀ (t : Time) (s0 : State) (p : Path) (a : Fin 48),
      let s := s0.tick t
      s.serves p = true → 4 ≤ s.modeN → s.modeN ≤ 6 → s.axCheck a 2 = none →
      exec (.axisDisable t p a) s0 = .next ((s.answer .ok).setAx a { s.axOf a with cmds := (s.axOf a).cmds ++ [.disable] })) ∧
  (∀ (t : Time) (s0 : State) (p : Path) (a : Fin 48),
      let s := s0.tick t
      s.serves p = true → 4 ≤ s.modeN → s.modeN ≤ 6 → s.axCheck a 3 = none →
      exec (.axisMove t p a) s0 = .next ((s.answer .ok).setAx a { s.axOf a with cmds := (s.axOf a).cmds ++ [.move (s.num (oAx a 1 5))] })) ∧
  (∀ (t : Time) (s0 : State) (p : Path) (a : Fin 48),
      let s := s0.tick t
      s.serves p = true → 4 ≤ s.modeN → s.modeN ≤ 6 → s.axCheck a 4 = none →
      exec (.axisVelocity t p a) s0 = .next ((s.answer .ok).setAx a { s.axOf a with cmds := (s.axOf a).cmds ++ [.vel (s.num (oAx a 1 6))] })) ∧
  (∀ (t : Time) (s0 : State) (p : Path) (a : Fin 48),
      let s := s0.tick t
      s.serves p = true → 4 ≤ s.modeN → s.modeN ≤ 6 → s.axCheck a 5 = none →
      exec (.axisRun t p a) s0 = .next (((s.answer .ok).setAx a { s.axOf a with checking := some (s.nat (oAx a 2 2)) }).setn (oAx a 2 4) 0xFF)) ∧
  (∀ (t : Time) (s0 : State) (p : Path) (a : Fin 48),
      let s := s0.tick t
      s.serves p = true → 4 ≤ s.modeN → s.modeN ≤ 6 → s.axCheck a 6 = none →
      exec (.axisStop t p a) s0 = .next ((s.answer .ok).setAx a { s.axOf a with cmds := (s.axOf a).cmds ++ [.stop] })) ∧
  (∀ (t : Time) (s0 : State) (p : Path) (a : Fin 48),
      let s := s0.tick t
      s.serves p = true → 4 ≤ s.modeN → s.modeN ≤ 6 → s.axCheck a 7 = none →
      exec (.axisAlign t p a) s0 = .next ((s.answer .ok).setAx a { s.axOf a with cmds := (s.axOf a).cmds ++ [.align] })) ∧
  (∀ (t : Time) (s0 : State) (p : Path) (a : Fin 48),
      let s := s0.tick t
      s.serves p = true → 4 ≤ s.modeN → s.modeN ≤ 6 → s.axCheck a 8 = none →
      exec (.axisBrake t p a) s0 = .next ((s.answer .ok).setAx a { s.axOf a with cmds := (s.axOf a).cmds ++ [.brake] })) ∧
  (∀ (t : Time) (s0 : State) (p : Path) (a : Fin 48),
      let s := s0.tick t
      s.serves p = true → 4 ≤ s.modeN → s.modeN ≤ 6 → s.axCheck a 9 = none →
      exec (.axisClearFault t p a) s0 = .next ((s.answer .ok).setAx a { s.axOf a with cmds := (s.axOf a).cmds ++ [.clear] })) ∧
  (∀ (t : Time) (s0 : State) (p : Path) (b : Bytes),
      let s := s0.tick t
      s.serves p = true → s.modeN ≤ 6 → b.length = 16 → s.segBusy (s.nat (ky 0x2040 1)) = false →
      exec (.segmentWrite t p b) s0 = .next ((s.answer .ok).segWrite b))

/-- O21. A finished chain check writes its result and arms or queues the run; the run trigger queues an armed run; a limit input in effect queues its command; a tick, one at every microsecond, acts on the queued commands, advances the profile by one tick, writes position and velocity and drives its increments; a following error past its time is flagged and faults the axis; the hold current follows 100 ms of rest; a catch ends with the observed or measured velocity, or brakes first; an alignment ends with the offset in force. (R247, R249, R252, R256, R257, R258, R262, R269, R272) -/
def Obligations.AxisEvents : Prop :=
  (∀ (t : Time) (s0 : State) (a : Fin 48) (n : Nat),
      let s := s0.tick t
      let x := s.axOf a
      let r := s.runCheck a n
      let g := s.nat (oAx a 2 3)
      let u := (s.setAx a { x with checking := none }).setn (oAx a 2 4) 0
      x.checking = some n → r = 0 → 64 ≤ g →
      exec (.runCheckDone t a) s0 = .next (u.setAx a { u.axOf a with cmds := (u.axOf a).cmds ++ [.runStart n] })) ∧
  (∀ (t : Time) (s0 : State) (a : Fin 48) (n : Nat),
      let s := s0.tick t
      let x := s.axOf a
      let r := s.runCheck a n
      x.checking = some n → r ≠ 0 →
      exec (.runCheckDone t a) s0 = .next ((s.setAx a { x with checking := none }).setn (oAx a 2 4) (r : Nat))) ∧
  (∀ (t : Time) (s0 : State) (a : Fin 48) (n : Nat),
      let s := s0.tick t
      let x := s.axOf a
      let r := s.runCheck a n
      let g := s.nat (oAx a 2 3)
      let u := (s.setAx a { x with checking := none }).setn (oAx a 2 4) 0
      x.checking = some n → r = 0 → g < 64 →
      exec (.runCheckDone t a) s0 = .next (u.setAx a { u.axOf a with armed := some (n, g) })) ∧
  (∀ (t : Time) (s0 : State) (a : Fin 48) (n g : Nat),
      let s := s0.tick t
      let x := s.axOf a
      x.armed = some (n, g) → (s.ginOf g).active = true →
      exec (.runTrigger t a) s0 = .next (s.setAx a { x with armed := none, cmds := x.cmds ++ [.runStart n] })) ∧
  (∀ (t : Time) (s0 : State) (a : Fin 48) (v : Bool),
      let s := s0.tick t
      let x := s.axOf a
      s.limitOn a v = true →
      exec (.limitInput t a v) s0 = .next (s.setAx a { x with cmds := x.cmds ++ [.limit v] })) ∧
  (∀ (t : Time) (s0 : State) (a : Fin 48),
      let s := s0.tick t
      let w := ((s.setAx a { s.axOf a with tickT := some t }).applyCmds a).takeVelSet a
      let p := w.axPos a
      let r := w.limitedStep a
      let y := r.2.2.axOf a
      let v := if y.plan = .rest then 0 else r.2.1
      let u := ((r.2.2.setAx a { y with vm := v, frac := (r.1 % step32).toNat, zeroT := if v = 0 then some (y.zeroT.getD t) else none, holdCur := y.holdCur && decide (v = 0) }).setn (oAx a 1 7) (wrapS 64 (r.1 / step32))).setn (oAx a 1 9) (tdiv v 1000)
      1 < s.modeN → s.axKind a ≠ 0 → s.tickDue a t = true →
      exec (.axisTick t a) s0 = .next (((u.axIncs a (crossings p r.1 (t - usT 1)) t).axFeedback a).followTimer a t)) ∧
  (∀ (t : Time) (s0 : State) (a : Fin 48) (b : Time),
      let s := s0.tick t
      (s.axOf a).followT = some b → b + msT (s.nat (oAx a 4 8)) < t → 1 ≤ s.axState a → s.axState a ≤ 3 → s.obit (oAx a 2 6) 5 = false →
      exec (.followingError t a) s0 = .next (((s.setbit (oAx a 2 6) 5 true).axEvent a 0x0204).axisFault a 2 0)) ∧
  (∀ (t : Time) (s0 : State) (a : Fin 48) (z : Time),
      let s := s0.tick t
      let x := s.axOf a
      x.zeroT = some z → s.axKind a = 1 → x.vm = 0 → z + msT 100 ≤ t →
      exec (.holdCurrentTimeout t a) s0 = .next (s.setAx a { x with holdCur := true })) ∧
  (∀ (t : Time) (s0 : State) (a : Fin 48) (b : Time),
      let s := s0.tick t
      let x := s.axOf a
      x.catchT = some b → x.catchBrake = false → b + msT (s.frcN (oAx a 7 0x0B) % 65536) ≤ t → s.onObserver a = true → x.obs.valid = true →
      exec (.catchDone t a) s0 = .next (s.axCaught a (s.obsVel a))) ∧
  (∀ (t : Time) (s0 : State) (a : Fin 48) (b : Time),
      let s := s0.tick t
      let x := s.axOf a
      x.catchT = some b → x.catchBrake = false → b + msT (s.frcN (oAx a 7 0x0B) % 65536) ≤ t → s.onObserver a = true → x.obs.valid = false →
      exec (.catchDone t a) s0 = .next (s.putAx a { x with catchT := some t, catchBrake := true, braking := true })) ∧
  (∀ (t : Time) (s0 : State) (a : Fin 48) (b : Time),
      let s := s0.tick t
      let x := s.axOf a
      let w := msT (s.frcN (oAx a 7 0x0B) % 65536)
      let u := s.axFeedback a
      x.catchT = some b → x.catchBrake = false → b + w ≤ t → s.onObserver a = false →
      exec (.catchDone t a) s0 = .next (u.axCaught a (u.encVel (u.nat (oAx a 0 2)) w t))) ∧
  (∀ (t : Time) (s0 : State) (a : Fin 48) (b : Time),
      let s := s0.tick t
      let x := s.axOf a
      x.catchT = some b → x.catchBrake = true → b + msT (s.frcN (oAx a 7 0x0B) / 65536) ≤ t →
      exec (.catchBrakeExpiry t a) s0 = .next (s.axCaught a 0)) ∧
  (∀ (t : Time) (s0 : State) (a : Fin 48) (b : Time),
      let s := s0.tick t
      let x := s.axOf a
      x.alignT = some b → b + msT (s.nat (oAx a 6 6) / 65536) ≤ t →
      exec (.alignTimeExpiry t a) s0 = .next (((s.putAx a { x with alignT := none }).setn (oAx a 6 4) (wrapS 32 (s.num (oAx a 1 8)))).enforce (oAx a 6 4)))

/-- O22. A chopper phase that is on past its minimum times and at its upper threshold switches off, and the low side of a braking phase over the brake limit opens for the minimum off time; a cycle in OFF that has reached its lower threshold or its longest off time ends no sooner than the frequency limit allows and the next starts with its offset adapted by the measured mean; an IS input at the overcurrent threshold faults the axis at once with its pin, in whatever state it is; an ADC round advances fluxes, angle and validity (the two-axis transform is a constant without a body, log 3); a disagreement that lasts longer than its time is flagged; a start without a valid observer loses the position. (R259, R260, R261, R264, R270, R271, R273, R274, R275) -/
def Obligations.MotorCommands : Prop :=
  (∀ (t : Time) (s0 : State) (a : Fin 16) (ph : Fin 3) (i : Int),
      let s := s0.tick t
      let x := s.axOf a
      let y := tget (fun _ => Chop.init) x.chop ph
      let cfg := s.frcN (oAx a 5 9)
      s.regulates a = true → ph.val < s.phases a → y.on = true → y.t0 + chopT (max (bits cfg 15 0) (bits cfg 31 16)) ≤ t → (y.hi : Int) ≤ i →
      exec (.chopOff t a ph i) s0 = .next (s.putAx a { x with chop := tset (fun _ => Chop.init) x.chop ph { y with on := false, offT := t } })) ∧
  (∀ (t : Time) (s0 : State) (a : Fin 16) (ph : Fin 3) (i : Int),
      let s := s0.tick t
      let x := s.axOf a
      let gi := s.frcI (oAx a 5 1)
      x.braking = true → gi ≠ 0 → ph.val < brakePhases (s.axKind a) → tget (fun _ => 0) x.brk ph ≤ t → (chopCode (tdiv (s.num (oAx a 7 0x0E) * 65536) gi) : Int) < i →
      exec (.chopOff t a ph i) s0 = .next (s.putAx a { x with brk := tset (fun _ => 0) x.brk ph (t + chopT (bits (s.frcN (oAx a 5 9)) 47 32)) })) ∧
  (∀ (t : Time) (s0 : State) (a : Fin 16) (ph : Fin 3) (i : Int) (mean : Fin 4096),
      let s := s0.tick t
      let x := s.axOf a
      let y := tget (fun _ => Chop.init) x.chop ph
      let cfg := s.frcN (oAx a 5 9)
      let dec := s.nat (oAx a 5 8)
      let gi := s.nat (oAx a 5 6)
      let m := s.senseLsb a mean
      let im := if s.senseFlips a ph then -m else m
      let o1 := clampI (s.num (oAx a 5 7)) (y.off + asr (y.iset - im) gi)
      let o2 := if gi = 15 then y.off else o1
      let off := if dec % 4 ≠ y.decay % 4 then 0 else o2
      let v := s.phaseSet a ph 0
      let iset : Int := v.natAbs
      let h := s.num (oAx a 5 5) / 2
      let u := s.putAx a { x with chop := tset (fun _ => Chop.init) x.chop ph { on := true, neg := decide (v < 0), t0 := s.now, offT := s.now, hi := chopCode (iset + off + h), lo := chopCode (iset - off - h), off := off, iset := iset, decay := dec, mean := im }, sector := sectorOf ((s.axTheta a + 85 + s.nat (oAx a 6 3)) % 1024) }
      s.regulates a = true → ph.val < s.phases a → y.on = false → (y.offT + chopT (bits cfg 47 32) ≤ t ∧ i ≤ (y.lo : Int) ∨ y.offT + chopT (bits cfg 63 48) ≤ t) → y.t0 * s.frcN (oAx a 5 0x0A) + msT 1 ≤ t * s.frcN (oAx a 5 0x0A) → y ≠ Chop.init → s.frcI (oAx a 5 1) ≠ 0 →
      exec (.chopCycleEnd t a ph (i, mean)) s0 = .next (if ph.val = 0 then u.setn (oAx a 5 0x0C) off else u)) ∧
  (∀ (t : Time) (s0 : State) (a : Fin 16) (pin : Fin 4) (code : Fin 256),
      let s := s0.tick t
      let st := s.axState a
      1 ≤ s.axKind a → s.axKind a ≤ 3 → s.nat (oAx a 5 4) ≤ code.val → st ≠ 0 → st ≠ 4 →
      exec (.overcurrent t a (pin, code)) s0 = .next ((s.axFault a 4 false).axisFault a 1 pin)) ∧
  (∀ (t : Time) (s0 : State) (a : Fin 16) (pin : Fin 4) (code : Fin 256),
      let s := s0.tick t
      let st := s.axState a
      1 ≤ s.axKind a → s.axKind a ≤ 3 → s.nat (oAx a 5 4) ≤ code.val → st = 4 →
      exec (.overcurrent t a (pin, code)) s0 = .next (((s.putAx a { s.axOf a with gates := false, braking := false, chop := [] }).setbit (oAx a 2 6) 4 true).axisFault a 1 pin)) ∧
  (∀ (t : Time) (s0 : State) (a : Fin 16) (pin : Fin 4) (code : Fin 256),
      let s := s0.tick t
      let st := s.axState a
      1 ≤ s.axKind a → s.axKind a ≤ 3 → s.nat (oAx a 5 4) ≤ code.val → st = 0 →
      exec (.overcurrent t a (pin, code)) s0 = .next (((s.axDisable a).setbit (oAx a 2 6) 4 true).axisFault a 1 pin)) ∧
  (∀ (t : Time) (s0 : State) (a : Fin 16) (is01 is23 vp01 : Fin 4096 × Fin 4096) (vp2 : Fin 4096),
      let s := s0.tick t
      let i := [is01.1, is01.2, is23.1, is23.2].map (fun c => s.senseMa a c)
      let v := [vp01.1, vp01.2, vp2].map (fun c => s.senseUv a c)
      let va := (Config.alphaBeta v).1
      let vb := (Config.alphaBeta v).2
      let ia := (Config.alphaBeta (i.take 3)).1
      let ib := (Config.alphaBeta (i.take 3)).2
      let w := s.setAx a { s.axOf a with round := i, roundT := some t }
      let x := w.axOf a
      let o := x.obs
      let pa := o.psiA + (va - w.frcI (oAx a 7 1) * ia) * 14 / 10 - asr o.psiA (w.frcN (oAx a 7 4))
      let pb := o.psiB + (vb - w.frcI (oAx a 7 1) * ib) * 14 / 10 - asr o.psiB (w.frcN (oAx a 7 4))
      let fa := pa - w.frcI (oAx a 7 2) * ia * 1000
      let fb := pb - w.frcI (oAx a 7 2) * ib * 1000
      let th := obsAngle fb fa
      let dt := angDiff th o.theta
      let o1 := { o with psiA := pa, psiB := pb, theta := th }
      let o2 := if dt = 0 then o1 else { o1 with per := t - o1.chgT, chgT := t, dth := dt }
      let valid := w.obsValid a o2 fa fb
      let rounds := if valid then min (o2.rounds + 1) 64 else 0
      let far := valid && decide ((w.nat (oAx a 7 6) % 65536 : Nat) < (angDiff (w.axTheta a) th).natAbs)
      s.axKind a = 2 → s.axEnc a = true → s.onObserver a = false → elapsed (s.axOf a).roundT (nsT 1400) t = true →
      exec (.observerUpdate t a is01 is23 vp01 vp2) s0 = .next (w.setAx a { x with obs := { o2 with valid := valid, rounds := rounds }, obsRem := 0, startT := if rounds = 64 then none else x.startT, disagreeT := if far then some (x.disagreeT.getD t) else none })) ∧
  (∀ (t : Time) (s0 : State) (a : Fin 16) (b : Time),
      let s := s0.tick t
      let x := s.axOf a
      x.disagreeT = some b → x.obs.valid = true → b + msT (s.nat (oAx a 7 6) / 65536) < t → s.axState a ≠ 0 → s.axState a ≠ 4 → s.obit (oAx a 2 6) 3 = false →
      exec (.observerDisagreement t a) s0 = .next (((s.setAx a { x with disagreeT := none }).setbit (oAx a 2 6) 3 true).axEvent a 0x0205)) ∧
  (∀ (t : Time) (s0 : State) (a : Fin 16) (b : Time),
      let s := s0.tick t
      let x := s.axOf a
      x.startT = some b → b + msT (s.frcN (oAx a 7 9)) ≤ t → x.obs.valid = false →
      exec (.startTimeout t a) s0 = .next ((s.setAx a { x with startT := none }).positionLost a))

/-- O23. Over a path that serves the dictionary a 1 applies the staged coefficients of a slot and a 0 clears OVERRUN. A tick of the loop engine, one at every 20,000 ns, counts N, runs the slots whose divisor and phase N meets, in order, within the pass, publishes the slots that ran, records the pass used and the greatest, and where a slot did not fit raises the overrun event and the fault of bit 38. The planned pass is refreshed. (R277, R278, R281, R286, R287, R288, R289, R290, R291, R331) -/
def Obligations.LoopCommands : Prop :=
  (∀ (t : Time) (s0 : State) (p : Path) (n : Fin 64),
      let s := s0.tick t
      s.serves p = true → s.modeN ≤ 6 →
      exec (.coefficientApply t p n 1) s0 = .next ((s.answer .ok).loopApply n)) ∧
  (∀ (t : Time) (s0 : State) (p : Path),
      let s := s0.tick t
      s.serves p = true → s.modeN ≤ 6 →
      exec (.loopOverrunClear t p 0) s0 = .next ((s.setn (ky 0x2030 6) 0).answer .ok)) ∧
  (∀ (t : Time) (s0 : State),
      let s := s0.tick t
      let w0 := { s with clk := { s.clk with loopT := some t } }
      let N := (s.nat (ky 0x2030 7) + 1) % 2 ^ 32
      let w := w0.setn (ky 0x2030 7) (N : Nat)
      let due := (List.range 64).filter (fun n => decide (N % max 1 (w.nat (oLoop n 0 2)) = w.nat (oLoop n 0 3)))
      let r := due.foldl (fun (a : State × Pass) n => State.passSlot a.1.loopBudget a.1 a.2 n) (w, ⟨80, [], none⟩)
      let u := r.2.done.foldl (fun s n => s.loopPublish n) r.1
      let v := (u.setn (ky 0x2030 3) (r.2.used : Nat)).setn (ky 0x2030 4) (max (u.nat (ky 0x2030 4)) r.2.used : Nat)
      3 ≤ s.modeN → t % nsT 20000 = 0 → (∀ l : Time, s.clk.loopT = some l → l < t) →
      exec (.loopTick t) s0 = .next (match r.2.miss with
        | none => v
        | some n => (((v.bump (ky 0x2030 5)).setn (ky 0x2030 6) 1).loopEvent n 0x0403).fault 38 1 n r.2.used)) ∧
  (∀ (t : Time) (s0 : State),
      let s := s0.tick t
      1 < s.modeN →
      exec (.plannedPassRefresh t) s0 = .next (s.setn (ky 0x2030 2) (s.plannedPass : Nat)))

/-- O24. An aligned BAR0 write of 4 or 8 bytes acts on the register words it covers; an access inside the BAR2 window and installed DRAM writes or reads it, a read with an uncorrectable error answering poisoned and latching its fault bit; a dictionary write that its row, its relations and the state accept takes its value and acts; DRAM data goes through object 0x2070; a doorbell in range moves its queue's index over BAR0 or over the dictionary. (R293, R294, R301, R327, R330, R331, R333, R355) -/
def Obligations.AccessCommands : Prop :=
  (∀ (t : Time) (s0 : State) (off : Nat) (v : BitVec 64),
      let s := s0.tick t
      s.modeN ≠ 0 → off % 4 = 0 →
      exec (.registerWrite t off false v) s0 = .next ((s.answer .ok).regWord off (v.toNat % 2 ^ 32))) ∧
  (∀ (t : Time) (s0 : State) (off : Nat) (v : BitVec 64),
      let s := s0.tick t
      s.modeN ≠ 0 → off % 8 = 0 →
      exec (.registerWrite t off true v) s0 = .next (((s.answer .ok).regWord off (v.toNat % 2 ^ 32)).regWord (off + 4) (v.toNat / 2 ^ 32))) ∧
  (∀ (t : Time) (s0 : State) (off len : Nat) (b : Bytes) (bad : Bool),
      let s := s0.tick t
      let a := s.host.bar2 * 1048576 + off
      s.modeN ≠ 0 → off + b.length ≤ 268435456 → s.inDram a b.length = true →
      exec (.bar2Access t off (some b) len bad) s0 = .next ((s.dramWrite a b).answer .ok)) ∧
  (∀ (t : Time) (s0 : State) (off len : Nat),
      let s := s0.tick t
      let a := s.host.bar2 * 1048576 + off
      s.modeN ≠ 0 → off + len ≤ 268435456 → s.inDram a len = true →
      exec (.bar2Access t off none len false) s0 = .next (s.answer (.data (s.dramRead a len)))) ∧
  (∀ (t : Time) (s0 : State) (off len : Nat),
      let s := s0.tick t
      let a := s.host.bar2 * 1048576 + off
      s.modeN ≠ 0 → off + len ≤ 268435456 → s.inDram a len = true →
      exec (.bar2Access t off none len true) s0 = .next ((s.fault 16 1 3 (a / 1048576)).answer (.poisoned (s.dramRead a len)))) ∧
  (∀ (t : Time) (s0 : State) (p : Path) (idx : BitVec 16) (sub : BitVec 8) (b : Bytes) (base i : Nat) (row : Row) (v : Val),
      let s := s0.tick t
      let u := s.writeVal (ky idx.toNat sub.toNat) row v
      s.serves p = true → s.writeParse idx.toNat sub.toNat b = .ok (base, i, row, v) → u.relCheck base i sub.toNat v b = none →
      exec (.dictionaryWrite t p idx sub b) s0 = .next (State.act s (u.answer .ok) p true idx.toNat base i sub.toNat v b)) ∧
  (∀ (t : Time) (s0 : State) (p : Path) (b : Bytes),
      let s := s0.tick t
      s.serves p = true → s.modeN ≤ 6 → 1 ≤ b.length → b.length ≤ 1024 → s.dramAccess b.length = true →
      exec (.dramDataWrite t p b) s0 = .next ((s.answer .ok).dramWrite (s.nat (ky 0x2070 1)) b)) ∧
  (∀ (t : Time) (s0 : State) (p : Path),
      let s := s0.tick t
      s.serves p = true → s.dramAccess (s.nat (ky 0x2070 3)) = true →
      exec (.dramDataRead t p false) s0 = .next (s.answer (.data (s.dramRead (s.nat (ky 0x2070 1)) (s.nat (ky 0x2070 3)))))) ∧
  (∀ (t : Time) (s0 : State) (q : Nat) (v : BitVec 32),
      let s := s0.tick t
      1 < s.modeN → q < 16384 → s.doorbellCheck q v.toNat = none →
      exec (.doorbellWrite t .bar0 q v) s0 = .next ((s.answer .ok).doorbell q v.toNat)) ∧
  (∀ (t : Time) (s0 : State) (p : Path) (q : Nat) (v : BitVec 32),
      let s := s0.tick t
      s.serves p = true → s.modeN ≤ 6 → q < 16384 → s.doorbellCheck q v.toNat = none →
      exec (.doorbellWrite t p q v) s0 = .next ((((s.setn (ky 0x2504 1) q).setn (ky 0x2504 2) v.toNat).answer .ok).doorbell q v.toNat))

/-- O25. A user queue is enabled and disabled; the interrupt moderation time signals the vector; the Porter grants the queue its order picks, fetches one entry and starts the aging anew; aging promotes one class; an accepted mark request pairs with a product (or, in trigger source 2, makes its anchor) and frees its entry; an accepted record joins its pool, one whose data cannot be read is malformed; completions are moved to their queue, up to 8 at a time; a pending event is written to its queue; a mailbox request is taken, and served by the firmware. (R298, R299, R303, R304, R306, R307, R309, R310, R314, R316) -/
def Obligations.QueueCommands : Prop :=
  (∀ (t : Time) (s0 : State) (q : Nat),
      let s := s0.tick t
      1 < s.modeN → 16 ≤ q → q < 16384 → (s.qOf q).enabled = false →
      exec (.queueEnable t q) s0 = .next ((s.queueEnable q).answer .ok)) ∧
  (∀ (t : Time) (s0 : State) (q : Nat),
      let s := s0.tick t
      1 < s.modeN → 16 ≤ q → q < 16384 →
      exec (.queueDisable t q) s0 = .next ((s.queueDisable q).answer .ok)) ∧
  (∀ (t : Time) (s0 : State) (q : Nat),
      let s := s0.tick t
      let x := s.qOf q
      x.irqEn = true → 0 < x.unsig → x.unsigT + usT x.irqTime ≤ t →
      exec (.irqModerationTimeout t q) s0 = .next ((s.setQ q { x with unsig := 0 }).msix x.vector)) ∧
  (∀ (t : Time) (s0 : State) (ok : Bool) (q k : Nat) (fresh : Bool),
      let s := s0.tick t
      let w := s.porterScan
      let n := if fresh then 1 else (w.host.grants[k]?).getD 0 + 1
      let u := { w with host := { w.host with pointer := w.host.pointer.set k q, grants := w.host.grants.set k n, grantT := t + clocks480 8 } }
      let x := u.qOf q
      1 < w.modeN → w.inFlight < 32 → w.host.grantT ≤ t → w.porterPick = some (q, k, fresh) →
      exec (.porterGrant t ok) s0 = .next ((((u.setQ q { x with eff := x.cls, agedAt := none }).bump (ky 0x2502 1)).fetched q ok).porterScan)) ∧
  (∀ (t : Time) (s0 : State) (q : Nat) (a : Time),
      let s := s0.tick t
      let w := s.porterScan
      let x := w.qOf q
      x.agedAt = some a → 0 < x.eff → a + usT (w.nat (ky 0x2502 (x.eff + 1))) ≤ t →
      exec (.agingPromotion t q) s0 = .next (w.setQ q { x with eff := x.eff - 1, agedAt := some t })) ∧
  (∀ (t : Time) (s0 : State) (q : Nat) (ok : Bool) (b : Bytes) (r : List Bytes) (n : Nat) (ovr : Option (Nat × Bytes)),
      let s := s0.tick t
      let x := s.qOf q
      let e : ReqEntry := { queue := q, index := x.cons, template := if bit (byteAt b 1) 4 then some (fieldLE b 4 2) else none, tag := fieldLE b 8 4, cookie := fieldLE b 0x0C 4, anchor := wrapS 64 (fieldLE b 0x10 8), ovr := ovr, t := t }
      let u := (s.setQ q { x with count := (x.count + 1) % 2 ^ 32 }).popEntry q
      let y := u.casOf n
      x.got = b :: r → s.requestCas q = some n → x.typ = 1 → s.blocked q = false → s.override b ok = some ovr → u.nat (oCas n 0 1) ≠ 2 →
      exec (.markRequestAccept t q ok) s0 = .next (((u.setCasement n { y with reqs := y.reqs ++ [e] }).pair n).blockEvent q)) ∧
  (∀ (t : Time) (s0 : State) (q : Nat) (ok : Bool) (b : Bytes) (r : List Bytes) (n : Nat) (ovr : Option (Nat × Bytes)),
      let s := s0.tick t
      let x := s.qOf q
      let e : ReqEntry := { queue := q, index := x.cons, template := if bit (byteAt b 1) 4 then some (fieldLE b 4 2) else none, tag := fieldLE b 8 4, cookie := fieldLE b 0x0C 4, anchor := wrapS 64 (fieldLE b 0x10 8), ovr := ovr, t := t }
      let u := (s.setQ q { x with count := (x.count + 1) % 2 ^ 32 }).popEntry q
      x.got = b :: r → s.requestCas q = some n → x.typ = 1 → s.blocked q = false → s.override b ok = some ovr → u.nat (oCas n 0 1) = 2 →
      exec (.markRequestAccept t q ok) s0 = .next (((u.anchorsFirst n t).leadAnchor n (.request q x.cons) e.anchor t (some e)).blockEvent q)) ∧
  (∀ (t : Time) (s0 : State) (q : Nat) (ok : Bool) (b : Bytes) (r : List Bytes),
      let s := s0.tick t
      let x := s.qOf q
      let a := fieldLE b 0x10 8
      let n := byteAt b 2
      let d := if bit (byteAt b 1) 0 then s.memRead (bit (byteAt b 1) 1) a n else sliceB b 0x10 n
      let u := s.setQ q { x with count := (x.count + 1) % 2 ^ 32, pool := x.pool ++ [(d, fieldLE b 8 8, t)] }
      let v := { u with comp := { u.comp with changes := u.comp.changes ++ [(t, Change.record q)] } }
      x.got = b :: r → x.typ = 2 → s.blocked q = false → (bit (byteAt b 1) 0 = true → ok = true ∧ (bit (byteAt b 1) 1 = true → s.inDram a n = true)) →
      exec (.recordAccept t q ok) s0 = .next ((v.popEntry q).blockEvent q)) ∧
  (∀ (t : Time) (s0 : State) (q : Nat) (ok : Bool) (b : Bytes) (r : List Bytes),
      let s := s0.tick t
      let x := s.qOf q
      x.got = b :: r → x.typ = 2 → s.blocked q = false → bit (byteAt b 1) 0 = true → (ok = false ∨ bit (byteAt b 1) 1 = true ∧ s.inDram (fieldLE b 0x10 8) (byteAt b 2) = false) →
      exec (.recordAccept t q ok) s0 = .next ((s.malformed q x.cons 0x10).popEntry q)) ∧
  (∀ (t : Time) (s0 : State) (q : Nat),
      let s := s0.tick t
      let x := s.qOf q
      let k := takeEntries q (min 8 (min (2 ^ x.z - x.level) (2 ^ x.z - x.prod % 2 ^ x.z))) s.host.buffer
      let u := { s with host := { s.host with buffer := k.2, drainT := t + usT k.1.length / 64 } }
      x.enabled = true → x.typ = 3 → x.atEnd = false → s.host.drainT ≤ t → k.1 ≠ [] →
      exec (.completionDrain t q) s0 = .next ((u.setn (ky 0x2501 1) (u.occupancy : Nat)).produce q k.1)) ∧
  (∀ (t : Time) (s0 : State) (e : Nat) (r : EvRec),
      let s := s0.tick t
      let w := s.holdEvents (s.host.events.map Prod.fst)
      let q := w.routeOf e
      let u := ({ w with host := { w.host with events := tdel w.host.events e, eventT := t + clocks480 1 } }).produce q [eventEntry e r]
      let k := tget (fun _ => 0) u.host.routes e
      w.host.events.find? (fun p => w.routeOf p.1 != 0 && !w.eventHeld p.1) = some (e, r) → w.host.eventT ≤ t →
      exec (.eventWrite t) s0 = .next (if bit k 24 = true then u.msix (bits k 23 16) else u)) ∧
  (∀ (t : Time) (s0 : State) (v : BitVec 32),
      let s := s0.tick t
      1 < s.modeN → v.getLsbD 0 = true → s.host.mboxBusy = false →
      exec (.mailboxSubmit t v) s0 = .next (s.mboxSubmit.answer .ok)) ∧
  (∀ (t : Time) (s0 : State) (r : DReq) (l : List DReq),
      let s := s0.tick t
      let u := { s with host := { s.host with reqs := l } }
      let w := u.serveEntry .mailbox r.entry
      1 < s.modeN → s.deaf = false → s.host.reqs = r :: l → r.queue = none →
      exec (.dictionaryRequest t) s0 = .next { w.2 with host := { w.2.host with mbox := w.1, mboxBusy := false } }) ∧
  (∀ (t : Time) (s0 : State) (r : DReq) (l : List DReq) (q : Nat),
      let s := s0.tick t
      let u := { s with host := { s.host with reqs := l } }
      let w := u.serveEntry (.queue q) r.entry
      let x := w.2.qOf q
      let v := w.2.memWrite x.dram (x.slot r.index) w.1
      1 < s.modeN → s.deaf = false → s.host.reqs = r :: l → r.queue = some q →
      exec (.dictionaryRequest t) s0 = .next (((v.setQ q { x with count := (x.count + 1) % 2 ^ 32 }).popEntry q).queueIrq q 1))

/-- O26. A DMA channel is started and aborted; a ready channel that no four higher ones hold moves one burst, whole; a host reset puts the host interface into its reset state and raises its event, a loss of the link also its live bit and fault bit 20; the link coming up shows speed and width. (R317, R318, R319, R320, R322, R323, R325, R326) -/
def Obligations.LinkCommands : Prop :=
  (∀ (t : Time) (s0 : State) (n : Fin 64),
      let s := s0.tick t
      s.modeN ≠ 0 →
      exec (.dmaStart t n) s0 = .next ((s.dmaStart n).answer .ok)) ∧
  (∀ (t : Time) (s0 : State) (n : Fin 64),
      let s := s0.tick t
      s.modeN ≠ 0 →
      exec (.dmaAbort t n) s0 = .next ((s.dmaAbort n).answer .ok)) ∧
  (∀ (t : Time) (s0 : State) (n : Fin 64) (ok : Bool),
      let s := s0.tick t
      let u := s.dmaSettle
      u.modeN ≠ 0 → u.dmaReady n = true → u.dmaWaits n = false →
      exec (.dmaBurst t n ok) s0 = .next ((u.dmaMove n ok).dmaSettle)) ∧
  (∀ (t : Time) (s0 : State) (k : HostResetKind),
      let s := s0.tick t
      s.modeN ≠ 0 → k ≠ .linkLoss →
      exec (.hostReset t k) s0 = .next ((s.hostResetAll.setn (ky 0x2101 2) 6).event 0xE9 0 0)) ∧
  (∀ (t : Time) (s0 : State),
      let s := s0.tick t
      let u := s.hostResetAll.setn (ky 0x2101 2) 6
      s.modeN ≠ 0 →
      exec (.hostReset t .linkLoss) s0 = .next ((((({ u with host := { u.host with linkUp := false } }.setn (ky 0x2500 1) 0).setn (ky 0x2500 2) 0).event 0xE8 0 0).setLive 20 true).fault 20 1 0 0)) ∧
  (∀ (t : Time) (s0 : State) (v w : Nat),
      let s := s0.tick t
      s.modeN ≠ 0 →
      exec (.pcieLinkUp t v w) s0 = .next (((({ s with host := { s.host with linkUp := true } }.setn (ky 0x2500 1) 1).setn (ky 0x2500 2) (v % 256 * 256 + w % 256 : Nat)).event 0xE8 0 0).setLive 20 false))

/-- O27. A port that comes up starts anew and the node's ports are announced; one that goes down takes the failover of its tree link; a FAILOVER is passed on; a failed link whose port has been up for 100 ms is rediscovered; HELLO goes out every 10 us on every port that is up and, received, is acknowledged and sets the neighbour, the roots, a conflict of node numbers and a fabric mismatch; a control frame received again is acknowledged and does nothing else; a newer TOPOLOGY enters the view and is flooded; a view stable for 1 ms joins the node and, at the root, schedules a tree; a newer TREE is flooded and staged; a staged tree is applied at its time. (R358, R359, R361, R363, R364, R366) -/
def Obligations.FabricLinks : Prop :=
  (∀ (t : Time) (s0 : State) (p : Fin 4),
      let s := s0.tick t
      let x := s.portOf p
      s.portOn p = true → x.up = false →
      exec (.portUp t p) s0 = .next ((((s.setPort p { FPort.init with up := true, since := t, nb := x.nb }).setLive (48 + p) false).event (0xD0 + p) 0x0701 p).portsChanged)) ∧
  (∀ (t : Time) (s0 : State) (p : Fin 4) (k : DownCause),
      let s := s0.tick t
      let x := s.portOf p
      let u := (s.setPort p { x with up := false, replay := [], since := s.now }).event (0xD0 + p) 0x0702 p
      let w := if k = .replay then u.event (0xD0 + p) 0x0703 p else u
      let v := if s.nodeState = 2 then (w.setLive (48 + p) true).fault (48 + p) (downCode k) p 0 else w
      x.up = true →
      exec (.portDown t p k) s0 = .next (match s.linkOf p with
        | some l => if s.fab.tree.any (fun e => linkId e = linkId l) then v.passFailover (linkId l) (some p.val) else v
        | none => v).portsChanged) ∧
  (∀ (t : Time) (s0 : State) (p : Fin 4) (l : Nat),
      let s := s0.tick t
      s.usable p = true →
      exec (.failover t p l) s0 = .next (s.passFailover l (some p.val))) ∧
  (∀ (t : Time) (s0 : State) (l : Nat),
      let s := s0.tick t
      let u := { s with fab := { s.fab with failed := s.fab.failed.filter (· != l), failSeen := s.fab.failSeen.filter (· != l), redisc := true } }
      s.fab.failed.contains l = true → (List.range 4).any (fun p => (s.portOf p).up && decide ((s.portOf p).since + msT 100 ≤ t) && decide (s.linkOf p |>.any (fun x => linkId x = l))) = true →
      exec (.rediscoveryStart t l) s0 = .next ((u.event 0xD4 0x0714 l).portsChanged)) ∧
  (∀ (t : Time) (s0 : State),
      let s := s0.tick t
      let w := s.sentAt 0 t
      s.fabricOn = true → s.sendDue 0 10000 t = true →
      exec (.helloSend t) s0 = .next ((List.range 4).foldl (fun s p => if (s.portOf p).up then
        s.sendCtl p 3 0 0xFF (leBytes 2 (s.frcN (ky 0x2400 3)) ++ leBytes 1 p ++ leBytes 1 (s.frcN (ky 0x2400 4)) ++ leBytes 8 (s.nat (ky 0x2000 5))) else s) w)) ∧
  (∀ (t : Time) (s0 : State) (p : Fin 4) (q src fid np : Nat) (root : Bool) (serial : Nat),
      let s := s0.tick t
      let a := s.taken p q
      let x := a.portOf p
      let v := if src = a.node ∧ serial ≠ a.nat (ky 0x2000 5) then a.enterConflict else a
      let u := { v with fab := { v.fab with roots := (if root then [src] else []) ++ v.fab.roots.filter (· != src) } }
      (s.portOf p).up = true → s.linkNew p q = true → fid = a.frcN (ky 0x2400 3) →
      exec (.hello t p q src fid np root serial) s0 = .next (
        if x.nb = some (src, np) ∧ x.mismatch = false ∧ u.fab.view.any (fun n => n.node = u.node ∧
          n.entries.any (fun e => e.port = p.val ∧ e.nbNode = src ∧ e.nbPort = np)) then u
        else (u.setPort p { x with nb := some (src, np), mismatch := false }).portsChanged)) ∧
  (∀ (t : Time) (s0 : State) (p : Fin 4) (q src fid np : Nat) (root : Bool) (serial : Nat),
      let s := s0.tick t
      let a := s.taken p q
      let x := a.portOf p
      (s.portOf p).up = true → s.linkNew p q = true → fid ≠ a.frcN (ky 0x2400 3) →
      exec (.hello t p q src fid np root serial) s0 = .next (if x.mismatch = true then a else ((a.setPort p { x with mismatch := true, nb := some (src, np) }).event (0xD0 + p) 0x0704 p).portsChanged)) ∧
  (∀ (t : Time) (s0 : State) (p : Fin 4) (q src fid np : Nat) (root : Bool) (serial : Nat),
      let s := s0.tick t
      (s.portOf p).up = true → s.linkNew p q = false →
      exec (.hello t p q src fid np root serial) s0 = .next (s.send (.fabric p (ackSet q)))) ∧
  (∀ (t : Time) (s0 : State) (p : Fin 4) (q src v : Nat) (l : List TopoEntry),
      let s := s0.tick t
      let a := s.taken p q
      let u := a.setView ⟨src, v, l⟩
      let back := l.filterMap (fun e => if e.state = 1 ∨ e.state = 2 then some (linkId (src * 4 + e.port, e.nbNode * 4 + e.nbPort)) else none)
      let own := (List.range 4).filterMap (fun q => (u.linkOf q).map linkId)
      let f := u.fab.failed.filter (fun l => own.contains l || !back.contains l)
      let w := { u with fab := { u.fab with failed := f, redisc := u.fab.redisc || f != u.fab.failed } }
      (s.portOf p).up = true → s.linkNew p q = true → a.usable p = true → src ≠ a.node → (a.fab.view.any (fun x => x.node = src ∧ v ≤ x.version) = false) →
      exec (.topology t p q src v l) s0 = .next ((w.flood 4 (topoBytes v l) (some p.val) src).discovering)) ∧
  (∀ (t : Time) (s0 : State),
      let s := s0.tick t
      let u := (s.setn (ky 0x2400 6) 2).event 0xD4 0x0711 s.node
      s.nodeState = 1 → s.fab.viewT + msT 1 ≤ t → u.newTree.1 ≠ u.node →
      exec (.viewStable t) s0 = .next u) ∧
  (∀ (t : Time) (s0 : State),
      let s := s0.tick t
      let u := (s.setn (ky 0x2400 6) 2).event 0xD4 0x0711 s.node
      let r := u.newTree.1
      let old := u.nat (ky 0x2400 7)
      let e := if old / 256 = r then old % 256 else (old + 1) % 256
      let v := u.fab.treeVersion + 1
      let w := (wrapU 64 (u.ftime + 200000)).toNat
      s.nodeState = 1 → s.fab.viewT + msT 1 ≤ t → r = u.node →
      exec (.viewStable t) s0 = .next ((u.flood 5 (treeBytes v w r e) none u.node).stageTree v w r e)) ∧
  (∀ (t : Time) (s0 : State) (p : Fin 4) (q v at_ r e : Nat),
      let s := s0.tick t
      let a := s.taken p q
      (s.portOf p).up = true → s.linkNew p q = true → a.usable p = true → (a.fab.staged = none ∧ (a.nat (ky 0x2400 7) / 256 ≠ r ∨ a.fab.treeVersion < v) ∨ ∃ y, a.fab.staged = some y ∧ (y.2.2.1 ≠ r ∨ y.1 < v)) →
      exec (.tree t p q v at_ r e) s0 = .next ((a.flood 5 (treeBytes v at_ r e) (some p.val) r).stageTree v at_ r e)) ∧
  (∀ (t : Time) (s0 : State) (v at_ r e : Nat),
      let s := s0.tick t
      let old := s.nat (ky 0x2400 7)
      let u := ({ s with fab := { s.fab with staged := none, treeVersion := v, tree := s.newTree.2, failSeen := s.fab.failed, redisc := false } }).setn (ky 0x2400 7) (r * 256 + e : Nat)
      let w := if r = u.node then u.setn (ky 0x2400 8) 0 else u
      s.fab.staged = some (v, at_, r, e) → (at_ : Int) ≤ s.ftime →
      exec (.treeApply t) s0 = .next (if old / 256 = r then w else w.event 0xD7 0x0741 r).showPorts.stitchResend)

/-- O28. An ACK frees its frame and lets the next go out; a NAK or a frame unanswered for 2 us is sent again; TIME_SYNC goes toward the root every 100 us; the exchange, less the own receive latency, sets the delay and moves FOFF by an eighth, and the parent answers one that came from its child; a shared axis sends its position every 1 us with the next sequence number; a fresh POSITION of the present epoch is stored, passed on and taken by the axes that follow it, or faults their source where its status says so; a silent source is faulted. (R359, R361, R365, R367, R368, R369, R370, R371, R381) -/
def Obligations.FabricFrames : Prop :=
  (∀ (t : Time) (s0 : State) (p : Fin 4) (q : Nat),
      let s := s0.tick t
      let x := s.portOf p
      exec (.ack t p q) s0 = .next ((s.setPort p { x with replay := x.replay.filter (fun f => !(decide (f.seq = q ∧ f.tries ≠ 0))) }).portFlush p)) ∧
  (∀ (t : Time) (s0 : State) (p : Fin 4) (q : Nat),
      let s := s0.tick t
      exec (.nak t p q) s0 = .next (s.resendFrame p q)) ∧
  (∀ (t : Time) (s0 : State) (p : Fin 4) (f : Sent),
      let s := s0.tick t
      ((s.portOf p).replay.find? (fun f => f.tries ≠ 0 ∧ f.at_ + usT 2 ≤ t) = some f) →
      exec (.replayTimeout t p) s0 = .next (s.resendFrame p f.seq)) ∧
  (∀ (t : Time) (s0 : State) (p : Fin 4),
      let s := s0.tick t
      let w := s.sentAt (1 + p) t
      s.childOn p = true → s.sendDue (1 + p) 100000 t = true →
      exec (.timeSyncSend t p) s0 = .next (w.sendCtl p 2 0 0xFF (leBytes 8 (wrapU 64 (10 * s.dev)).toNat ++ leBytes 8 0 ++ leBytes 8 0))) ∧
  (∀ (t : Time) (s0 : State) (p : Fin 4) (q : Nat) (t1 t2 t3 t4 fp : Int),
      let s := s0.tick t
      let a := s.taken p q
      let dl := tdiv ((t4 - a.num (oPort p 0x30) - t1) - (t3 - t2)) 2
      let fo := a.num (ky 0x2400 8)
      (s.portOf p).up = true → s.linkNew p q = true → a.childOn p = true →
      exec (.timeSync t p q t1 t2 t3 t4 fp) s0 = .next ((a.setn (oPort p 3) (wrapU 32 dl)).setn (ky 0x2400 8) (fo + asr (fp + tdiv (t2 - t1 - dl) 10 - fo) 3))) ∧
  (∀ (t : Time) (s0 : State) (p : Fin 4) (q : Nat) (t1 t2 t3 t4 fp : Int),
      let s := s0.tick t
      let a := s.taken p q
      (s.portOf p).up = true → s.linkNew p q = true → a.childOn p = false → a.fabricOn = true → a.portStateOf p = 1 →
      exec (.timeSync t p q t1 t2 t3 t4 fp) s0 = .next (a.sendCtl p 2 0 0xFF (leBytes 8 (wrapU 64 t1).toNat ++ leBytes 8 (wrapU 64 (t2 - a.num (oPort p 0x30))).toNat ++ leBytes 8 (wrapU 64 t3).toNat))) ∧
  (∀ (t : Time) (s0 : State) (j : Fin 8),
      let s := s0.tick t
      let k := s.frcN (ky (0x2408 + j) 1)
      let q := tget (fun _ => 0) s.fab.slotSeq j
      let b := posBytes j k (s.posStatus k) (s.nat (ky 0x2400 7) % 256) (wrapU 64 s.ftime).toNat (s.laxPos k t) (s.laxVf 33 k)
      let u := { s with fab := { s.fab with slotSeq := tset (fun _ => 0) s.fab.slotSeq j ((q + 1) % 65536) } }
      s.fabricOn = true → k ≤ 31 → s.fab.conflict = false → s.fab.slotConflict.contains j.val = false → s.treePorts ≠ [] → s.sendDue (8 + j) 1000 t = true →
      exec (.positionSend t j) s0 = .next ((u.sentAt (8 + j) t).sendPos s.node q b none)) ∧
  (∀ (t : Time) (s0 : State) (p : Fin 4) (f : PosFrame),
      let s := s0.tick t
      let u := s.sendPos f.src f.seq (posBytes f.slot f.axis f.status f.epoch f.ftime f.pos f.vel) (some p.val)
      let n := f.src * 32 + f.axis
      let last := tget (fun _ => 65536) u.fab.axisSeq n
      let b := u.fab
      let w := { u with fab := { b with axisSeq := tset (fun _ => 65536) b.axisSeq n (f.seq % 65536), axisT := tset (fun _ => 0) b.axisT n t, axisTb := tset (fun _ => 0) b.axisTb n ((f.ftime : Int) - u.num (ky 0x2400 8)), poss := tset (fun _ => 0) b.poss n f.pos, vels := tset (fun _ => 0) b.vels n f.vel } }
      s.fabricOn = true → s.portStateOf p = 1 → 8 ≤ f.slot → f.epoch = u.nat (ky 0x2400 7) % 256 → (last = 65536 ∨ 0 < wrapS 16 ((f.seq : Int) - last)) →
      exec (.position t p f) s0 = .next ((w.followers n).foldl (fun s k => if bit f.status 0 then s.takePos k f else s.sourceFault k t) w)) ∧
  (∀ (t : Time) (s0 : State) (k : Fin 32),
      let s := s0.tick t
      let x := s.laxOf k
      x.kind = 3 → s.sourceFaulty k = true → max x.ownT (tget (fun _ => 0) s.fab.axisT x.inst) + usT (s.nat (ky 0x2410 1)) ≤ t →
      exec (.positionLossTimeout t k) s0 = .next (s.sourceFault k t))

/-- O29. Every frame is acknowledged first. An ANCHOR for this node is taken by every participant casement whose trigger source it is, one for another is sent on; a vote for a lead here is counted, another is sent on; at the cut-off missing votes abort the mark and are counted; GO and ABORT for another lead are passed on and act here; a REPORT for a lead here is recorded, and the mark is settled or closed with the last one; the GO deadline expires a waiting participant; at the report margin missing reports are acted on. (R373, R374, R375, R376, R377) -/
def Obligations.StitchCommands : Prop :=
  (∀ (t : Time) (s0 : State) (p : Fin 4) (q ds : Nat) (id : MarkId) (r : Nat) (ar : Int) (ft tp tg : Nat),
      let s := s0.tick t
      let a := s.taken p q
      (s.portOf p).up = true → s.linkNew p q = true → a.portStateOf p = 1 → ds = a.node → a.captures = true →
      exec (.anchor t p q ds id r ar ft tp tg) s0 = .next ((List.range 48).foldl (fun s c => if s.role c = 2 ∧ s.nat (oCas c 0 1) = 3 then (s.anchorFirst c s.now).takeAnchor c id r ar ft tp tg else s) a)) ∧
  (∀ (t : Time) (s0 : State) (p : Fin 4) (q ds : Nat) (id : MarkId) (r : Nat) (ar : Int) (ft tp tg : Nat),
      let s := s0.tick t
      let a := s.taken p q
      (s.portOf p).up = true → s.linkNew p q = true → a.portStateOf p = 1 → ds ≠ a.node →
      exec (.anchor t p q ds id r ar ft tp tg) s0 = .next (a.unicast 0x10 ds (anchorBytes id r ar ft tp tg) (some id.node))) ∧
  (∀ (t : Time) (s0 : State) (p : Fin 4) (q : Nat) (id : MarkId) (src n : Nat) (y : Bool) (it dl : Nat),
      let s := s0.tick t
      let a := s.taken p q
      (s.portOf p).up = true → s.linkNew p q = true → a.portStateOf p = 1 → id.node = a.node →
      exec (.voteReceive t p q id src n y it dl) s0 = .next (a.addVote id src n y dl).takeCommands) ∧
  (∀ (t : Time) (s0 : State) (p : Fin 4) (q : Nat) (id : MarkId) (src n : Nat) (y : Bool) (it dl : Nat),
      let s := s0.tick t
      let a := s.taken p q
      (s.portOf p).up = true → s.linkNew p q = true → a.portStateOf p = 1 → id.node ≠ a.node →
      exec (.voteReceive t p q id src n y it dl) s0 = .next (a.unicast 0x11 id.node (idBytes id ++ leBytes 1 (b2n (!y)) ++ leBytes 1 0 ++ leBytes 2 (it % 512) ++ leBytes 8 dl) (some src)).takeCommands) ∧
  (∀ (t : Time) (s0 : State) (n : Fin 48) (x : Stitch),
      let s := s0.tick t
      let m := (s.members n).filter (fun q => !x.votes.any (fun v => v.1 = q.1 ∧ v.2.1 = q.2))
      (s.fab.stitches.find? (fun x => x.id.casement = n.val ∧ x.decided.isNone ∧
        (x.deadline.any (fun d => decide (d - s.goTravel n < s.count)))) = some x) → m ≠ [] →
      exec (.voteCutoff t n) s0 = .next (((s.bumpBy (oStitch n 0x11) m.length).event 0xD6 0x0731 n).stitchDecide x false).takeCommands) ∧
  (∀ (t : Time) (s0 : State) (n : Fin 48) (m : Mark),
      let s := s0.tick t
      ((s.casOf n).pend.find? (fun m => m.stitch.isSome ∧ m.vote.isSome) = some m) → s.role n = 2 → s.goPassed n m.s0 = true →
      exec (.goDeadline t n) s0 = .next ((s.expire n m).takeCommand n)) ∧
  (∀ (t : Time) (s0 : State) (p : Fin 4) (q : Nat) (id : MarkId),
      let s := s0.tick t
      let a := s.taken p q
      (s.portOf p).up = true → s.linkNew p q = true → a.portStateOf p = 1 → id.node ≠ a.node →
      exec (.go t p q id) s0 = .next ((a.multicast 0x12 (idBytes id) (some p.val) id.node).decisionIn id true).takeCommands) ∧
  (∀ (t : Time) (s0 : State) (p : Fin 4) (q : Nat) (id : MarkId),
      let s := s0.tick t
      let a := s.taken p q
      (s.portOf p).up = true → s.linkNew p q = true → a.portStateOf p = 1 → id.node ≠ a.node →
      exec (.abort t p q id) s0 = .next ((a.multicast 0x13 (idBytes id) (some p.val) id.node).decisionIn id false).takeCommands) ∧
  (∀ (t : Time) (s0 : State) (p : Fin 4) (q : Nat) (id : MarkId) (src n : Nat) (fl : BitVec 32) (late : Nat),
      let s := s0.tick t
      let a := s.taken p q
      (s.portOf p).up = true → s.linkNew p q = true → a.portStateOf p = 1 → id.node ≠ a.node →
      exec (.report t p q id src n fl late) s0 = .next (a.unicast 0x14 id.node (idBytes id ++ leBytes 1 n ++ leBytes 1 0 ++ leBytes 4 fl.toNat ++ leBytes 2 late ++ leBytes 2 0) (some src))) ∧
  (∀ (t : Time) (s0 : State) (p : Fin 4) (q : Nat) (id : MarkId) (src n : Nat) (fl : BitVec 32) (late : Nat) (x : Stitch),
      let s := s0.tick t
      let a := s.taken p q
      let u := a.setStitch { x with reports := (src, n) :: x.reports, bad := x.bad || bit fl.toNat 15 || bit fl.toNat 11 || decide (a.nat (oCas id.casement 0 0x0C) < late) }
      (s.portOf p).up = true → s.linkNew p q = true → a.portStateOf p = 1 → id.node = a.node → a.stitchOf id = some x →
      exec (.report t p q id src n fl late) s0 = .next (if (x.closed && u.allReported id.casement id) = true then { u with fab := { u.fab with stitches := u.fab.stitches.filter (fun y => y.id != id) } } else u.leadTry id)) ∧
  (∀ (t : Time) (s0 : State) (n : Fin 48) (x : Stitch),
      let s := s0.tick t
      let r := s.nat (oCas n 0 0x0B)
      let q := s.laxPos (s.nat (oRej r 2)) t
      (s.fab.stitches.find? (fun x => x.id.casement = n.val ∧ !s.allReported n x.id) = some x) → r < 8 → 0 ≤ sdiff q (wrapS 64 (x.a + s.num (oRej r 3) - s.num (oRej r 6))) →
      exec (.reportMarginReached t n) s0 = .next (s.reportMissing n x))

/-- O30. A rail that shows power-good while it ramps becomes GOOD, one that loses it while GOOD stops the pulses of its casement and takes the rail fault; a power-good timeout is a rail fault; a retry delay that ends ramps the rail again; ten seconds of GOOD clear the retry count. (R383, R385, R386, R387, R388) -/
def Obligations.RailCommands : Prop :=
  (∀ (t : Time) (s0 : State) (n : Fin 64) (v : Bool),
      let s := s0.tick t
      let u := s.setRail n { s.railOf n with pg := v }
      u.railState n = 1 → u.pgGood n = true →
      exec (.pgChange t n v) s0 = .next (u.railGood n)) ∧
  (∀ (t : Time) (s0 : State) (n : Fin 64) (v : Bool),
      let s := s0.tick t
      let u := s.setRail n { s.railOf n with pg := v }
      let k := u.railOwner n
      u.railState n = 2 → u.pgGood n = false →
      exec (.pgChange t n v) s0 = .next ((if k < 48 then u.stopPulses k else u).railFault n 0x0501)) ∧
  (∀ (t : Time) (s0 : State) (n : Fin 64),
      let s := s0.tick t
      let x := s.railOf n
      s.railState n = 1 → x.timed = false → x.due ≤ t →
      exec (.pgTimeout t n) s0 = .next (s.railFault n 0x0502)) ∧
  (∀ (t : Time) (s0 : State) (n : Fin 64),
      let s := s0.tick t
      s.railState n = 3 → (s.railOf n).due ≤ t →
      exec (.retryDelayExpiry t n) s0 = .next (s.railRamp n)) ∧
  (∀ (t : Time) (s0 : State) (n : Fin 64),
      let s := s0.tick t
      let x := s.railOf n
      s.railState n = 2 → x.goodT + secT 10 ≤ t →
      exec (.retryCountReset t n) s0 = .next (s.setRail n { x with att := 0 }))

/-- O31. At its step the executor runs its instruction: END ends the program with its status; ENABLE and DISABLE switch the rails named and go on after 1 us (ENABLE on a casement executor under the lock ends it with 0xF2); WAIT goes on after its time; WAIT_PG goes on once every rail named shows the level; CHECK_JUMP jumps where its condition holds; SYNC_STEP without LSYNC sets the step, with LSYNC passes a step reached, ends a program that skips one with 0xF6, and else releases LSYNC. (R388, R389, R390, R391, R393, R394, R395, R396) -/
def Obligations.ProgramSteps : Prop :=
  (∀ (t : Time) (s0 : State) (x : Fin 49),
      let s := s0.tick t
      s.atOp x 0 = true →
      exec (.end_ t x) s0 = .next (s.endProgram x (bits (s.stepWord x) 7 0))) ∧
  (∀ (t : Time) (s0 : State) (x : Fin 49),
      let s := s0.tick t
      s.atOp x 1 = true → (x.val = sysEx ∨ s.lamp.locked = false) →
      exec (.enable t x) s0 = .next (((s.named x (s.stepWord x)).foldl State.railEnable s).goNext x 1)) ∧
  (∀ (t : Time) (s0 : State) (x : Fin 49),
      let s := s0.tick t
      s.atOp x 1 = true → x.val ≠ sysEx → s.lamp.locked = true →
      exec (.enable t x) s0 = .next (s.endProgram x 0xF2)) ∧
  (∀ (t : Time) (s0 : State) (x : Fin 49),
      let s := s0.tick t
      s.atOp x 2 = true →
      exec (.disable t x) s0 = .next (((s.named x (s.stepWord x)).foldl State.railOff s).goNext x 1)) ∧
  (∀ (t : Time) (s0 : State) (x : Fin 49),
      let s := s0.tick t
      s.atOp x 3 = true → (s.exOf x).stepT + usT (bits (s.stepWord x) 23 0) ≤ t →
      exec (.wait t x) s0 = .next (s.goNext x 0)) ∧
  (∀ (t : Time) (s0 : State) (x : Fin 49),
      let s := s0.tick t
      let w := s.stepWord x
      s.atOp x 4 = true → (s.named x w).all (s.showsLevel (bit w 25)) = true →
      exec (.waitPg t x) s0 = .next (s.goNext x 1)) ∧
  (∀ (t : Time) (s0 : State) (x : Fin 49),
      let s := s0.tick t
      let w := s.stepWord x
      let e := s.exOf x
      let l := s.named x w
      s.atOp x 4 = true → l.all (s.showsLevel (bit w 25)) = false → bit w 25 = false → bits w 23 8 ≠ 0 → e.stepT + usT (100 * bits w 23 8) ≤ t → e.expired = false →
      exec (.waitPg t x) s0 = .next (l.foldl (fun s n => if s.railState n = 1 ∧ !(s.railOf n).timed then s.railFault n 0x0502 else s) (s.setEx x { e with expired := true }))) ∧
  (∀ (t : Time) (s0 : State) (x : Fin 49),
      let s := s0.tick t
      let w := s.stepWord x
      s.atOp x 5 = true →
      exec (.checkJump t x) s0 = .next (if s.condition x w then s.goTo x (bits w 8 0) 1 else s.goNext x 1)) ∧
  (∀ (t : Time) (s0 : State) (x : Fin 49),
      let s := s0.tick t
      s.atOp x 6 = true → s.lsyncOn = false →
      exec (.syncStep t x) s0 = .next ((s.setn (ky 0x2143 2) (bits (s.stepWord x) 7 0 : Nat)).goNext x 1)) ∧
  (∀ (t : Time) (s0 : State) (x : Fin 49),
      let s := s0.tick t
      let n := bits (s.stepWord x) 7 0
      s.atOp x 6 = true → s.lsyncOn = true → n ≤ s.nat (ky 0x2143 2) →
      exec (.syncStep t x) s0 = .next (s.goNext x 0)) ∧
  (∀ (t : Time) (s0 : State) (x : Fin 49),
      let s := s0.tick t
      let n := bits (s.stepWord x) 7 0
      s.atOp x 6 = true → s.lsyncOn = true → s.nat (ky 0x2143 2) + 1 < n →
      exec (.syncStep t x) s0 = .next (s.endProgram x 0xF6)) ∧
  (∀ (t : Time) (s0 : State) (x : Fin 49),
      let s := s0.tick t
      let w := s.stepWord x
      let e := s.exOf x
      let u := s.setEx x { e with released := true, due := e.stepT + usT (100 * (if bits w 23 8 = 0 then s.nat (ky 0x2143 3) else bits w 23 8)) }
      s.atOp x 6 = true → s.lsyncOn = true → bits w 7 0 = s.nat (ky 0x2143 2) + 1 → e.released = false → s.lamp.qualT = none →
      exec (.syncStep t x) s0 = .next { u with lamp := { u.lamp with lsyncLow := false } })

/-- O32. LSYNC qualified sets the step and goes on; it is driven low again 8 us later; a sync timeout ends the program with 0xF3, a program past its limit with 0xF4; contention on LSYNC raises bit 42; a press is recorded with the long-press time of that instant, a short one starts the program of its action, a long one forces all rails off and ends a shutdown that runs; a manual reset runs the shutdown first; a start write starts its program and a commit of the store takes the shadow copy. (R388, R392, R393, R395, R396, R397, R398, R400, R331) -/
def Obligations.LampCommands : Prop :=
  (∀ (t : Time) (s0 : State) (x : Nat),
      let s := s0.tick t
      let u := (s.setn (ky 0x2143 2) (bits (s.stepWord x) 7 0 : Nat)).setn (ky 0x2143 4) 1
      s.syncing = some x →
      exec (.lsyncQualify t) s0 = .next ({ u with lamp := { u.lamp with qualT := some t } }.goNext x 0)) ∧
  (∀ (t : Time) (s0 : State) (q : Time),
      let s := s0.tick t
      s.lamp.qualT = some q → q + usT 8 ≤ t →
      exec (.lsyncRedrive t) s0 = .next ({ s with lamp := { s.lamp with qualT := none, lsyncLow := true } }.setn (ky 0x2143 4) 0)) ∧
  (∀ (t : Time) (s0 : State) (x : Fin 49),
      let s := s0.tick t
      let e := s.exOf x
      s.exBusy x = true → e.released = true → e.due ≤ t →
      exec (.syncTimeout t x) s0 = .next (s.endProgram x 0xF3)) ∧
  (∀ (t : Time) (s0 : State),
      let s := s0.tick t
      s.lsyncOn = true → s.lamp.lsyncLow = true → 1 < s.modeN →
      exec (.contention t) s0 = .next (((s.setn (ky 0x2143 4) 1).event 0xC5 0x0552 0).fault 42 2 0 (s.nat (ky 0x2143 2)))) ∧
  (∀ (t : Time) (s0 : State) (x : Fin 49),
      let s := s0.tick t
      let e := s.exOf x
      s.exBusy x = true → e.entry ≠ 2 → e.startT + secT e.limit ≤ t →
      exec (.programTimeLimit t x) s0 = .next ((s.event 0xC3 0x0533 (exInst x)).endProgram x 0xF4)) ∧
  (∀ (t : Time) (s0 : State),
      let s := s0.tick t
      let e := s.exOf sysEx
      s.exBusy sysEx = true → e.entry = 2 → e.startT + msT e.limit ≤ t →
      exec (.shutdownTimeLimit t) s0 = .next ((s.event 0xC3 0x0533 0xFF).endProgram sysEx 0xF4)) ∧
  (∀ (t : Time) (s0 : State),
      let s := s0.tick t
      s.modeN ≠ 0 →
      exec (.pressed t) s0 = .next ({ s with lamp := { s.lamp with pressT := some t, longS := s.nat (ky 0x2144 2), forced := false } }.event 0xC4 0x0541 0)) ∧
  (∀ (t : Time) (s0 : State) (p : Time),
      let s := s0.tick t
      let u := { s with lamp := { s.lamp with pressT := none, forced := false } }.event 0xC4 0x0542 0
      let e := u.nat (ky 0x2144 3)
      s.lamp.pressT = some p → s.lamp.forced = false → t < p + secT s.lamp.longS →
      exec (.short t) s0 = .next (if e ≠ 0xFF ∧ (!u.exBusy sysEx) = true then u.startProgram sysEx e else u)) ∧
  (∀ (t : Time) (s0 : State) (p : Time),
      let s := s0.tick t
      let u := ((List.range 49).foldl State.abandon { s with lamp := { s.lamp with forced := true, locked := true, upOk := false } }).allOff
      let w := (u.event 0xC4 0x0543 0).fault 43 1 0 0
      s.lamp.pressT = some p → s.lamp.forced = false → p + secT s.lamp.longS ≤ t →
      exec (.forceOff t) s0 = .next (if s.exBusy sysEx = true ∧ (s.exOf sysEx).entry = 2 ∧ w.exBusy sysEx = false then w.shutdownEnded else w)) ∧
  (∀ (t : Time) (s0 : State),
      let s := s0.tick t
      s.modeN ≠ 0 → s.lamp.mr = false →
      exec (.manualReset t) s0 = .next (({ s with lamp := { s.lamp with mr := true } }.event 0xC6 0x0561 0).resetAfterShutdown 3)) ∧
  (∀ (t : Time) (s0 : State) (p : Path) (v : Nat),
      let s := s0.tick t
      s.serves p = true → s.modeN ≤ 6 → (v ≤ 2 ∨ (6 ≤ v ∧ v ≤ 15)) → s.startCheck v = none →
      exec (.programStart t p v) s0 = .next ((s.answer .ok).startAct v)) ∧
  (∀ (t : Time) (s0 : State) (p : Path),
      let s := s0.tick t
      s.serves p = true → (s.modeN = 2 ∨ s.modeN = 3 ∨ s.modeN = 6) → s.anyExec = false →
      exec (.storeCommit t p 1) s0 = .next ((s.answer .ok).lampCommit))

/-- O33. A read and a margin read show the row; a user row, a lifecycle step, RESTRICT, the debug lock, a firmware key revocation and a security counter that pass their checks are given to the engine; a burned row ends its job with its result, or starts the next row; an update that passes its check begins, ends with its result, is activated by a restart and confirmed after ten seconds; a host load is taken while BOOT waits for one. (R404, R405, R406, R407, R412, R414, R415, R416, R417, R418, R331) -/
def Obligations.OtpCommands : Prop :=
  (∀ (t : Time) (s0 : State),
      let s := s0.tick t
      s.modeN ≠ 0 →
      exec (.otpRead t) s0 = .next s.otpRead) ∧
  (∀ (t : Time) (s0 : State) (w : BitVec 39),
      let s := s0.tick t
      s.modeN ≠ 0 →
      exec (.otpMarginRead t w) s0 = .next (s.otpMargin w)) ∧
  (∀ (t : Time) (s0 : State) (p : Path),
      let s := s0.tick t
      s.serves p = true → s.modeN = 2 → s.otpProgramCheck = none →
      exec (.otpProgram t p 1) s0 = .next ((s.answer .ok).otpProgramAct)) ∧
  (∀ (t : Time) (s0 : State) (w : Bool) (j : OtpJob),
      let s := s0.tick t
      let r := s.otpBurn j.row j.value w
      let u := r.2.otpFinish j r.1
      s.otp.job = some j → (j.rest = [] ∨ r.1 ≠ 0) →
      exec (.otpProgramDone t w) s0 = .next { u with otp := { u.otp with job := u.otp.owed.head?, owed := u.otp.owed.drop 1 } }) ∧
  (∀ (t : Time) (s0 : State) (w : Bool) (j : OtpJob) (q v : Nat) (l : List (Nat × Nat)),
      let s := s0.tick t
      let r := s.otpBurn j.row j.value w
      s.otp.job = some j → j.rest = (q, v) :: l → r.1 = 0 →
      exec (.otpProgramDone t w) s0 = .next { r.2 with otp := { r.2.otp with job := some ⟨q, v, j.why, l⟩ } }) ∧
  (∀ (t : Time) (s0 : State) (p : Path),
      let s := s0.tick t
      s.serves p = true → s.modeN = 2 → s.lifecycleCheck = none →
      exec (.lifecycleAdvance t p 90) s0 = .next ((s.answer .ok).lifecycleAct)) ∧
  (∀ (t : Time) (s0 : State) (p : Path),
      let s := s0.tick t
      s.serves p = true → s.modeN = 2 → s.otpSysCheck = none →
      exec (.setRestrict t p) s0 = .next ((s.answer .ok).policyAct false)) ∧
  (∀ (t : Time) (s0 : State) (p : Path),
      let s := s0.tick t
      s.serves p = true → s.modeN = 2 → s.otpSysCheck = none →
      exec (.setDebugLock t p) s0 = .next ((s.answer .ok).policyAct true)) ∧
  (∀ (t : Time) (s0 : State) (p : Path) (k : Nat),
      let s := s0.tick t
      s.serves p = true → s.modeN = 2 → k ≤ 3 → s.revokeKeyCheck k = none →
      exec (.revokeFirmwareKey t p k) s0 = .next ((s.answer .ok).revokeKeyAct k)) ∧
  (∀ (t : Time) (s0 : State) (p : Path) (v : Nat),
      let s := s0.tick t
      s.serves p = true → s.modeN ≤ 3 → 1 ≤ v → v ≤ 64 → s.securityCheck v = none →
      exec (.advanceSecurityCounter t p v) s0 = .next ((s.answer .ok).securityAct v)) ∧
  (∀ (t : Time) (s0 : State) (p : Path),
      let s := s0.tick t
      s.serves p = true → s.modeN ≤ 6 → s.updateCheck = none →
      exec (.updateExecute t p 1) s0 = .next ((s.answer .ok).updateAct)) ∧
  (∀ (t : Time) (s0 : State) (a n : Nat),
      let s := s0.tick t
      let u := { s with otp := { s.otp with updating := none } }
      s.otp.updating = some (a, n) →
      exec (.updateDone t false) s0 = .next (u.setn (ky 0x2625 4) 7)) ∧
  (∀ (t : Time) (s0 : State) (a n : Nat),
      let s := s0.tick t
      let u := { s with otp := { s.otp with updating := none } }
      let o := u.otherSlot
      let h := u.dramRead a 4096
      let run := match u.otp.image with | some i => (if i.slot ≤ 2 then leNat (u.flashRead (slotBase i.slot + 0xF14) 4) else 0) | none => 0
      let w := (u.flashWrite (slotBase o) (h.take 0xF00 ++ (List.replicate 16 255#8 ++ leBytes 4 0xFFFFFFFF ++ leBytes 4 ((run + 1) % 2 ^ 32) ++ List.replicate 232 255#8))).flashWrite (slotBase o + 0x1000) (u.dramRead (a + 0x1000) (min (fieldLE h 0x10 4) (n - 0x1000)))
      let x := w.slotCheck o
      s.otp.updating = some (a, n) →
      exec (.updateDone t true) s0 = .next (({ w with otp := { w.otp with codeA := if o = 0 then x else w.otp.codeA, codeB := if o = 1 then x else w.otp.codeB } }.setn (ky 0x2625 4) (x : Nat)).showSlots)) ∧
  (∀ (t : Time) (s0 : State) (p : Path),
      let s := s0.tick t
      s.serves p = true → s.modeN ≤ 6 → s.otp.updating = none → s.nat (ky 0x2625 4) = 0 →
      exec (.activate t p 1) s0 = .next ((s.answer .ok).beginRestart)) ∧
  (∀ (t : Time) (s0 : State) (i : Image),
      let s := s0.tick t
      let u := s.flashWrite (slotBase i.slot + 0xF10) (leBytes 4 0x4B4F4E43)
      s.otp.image = some i → 1 < s.modeN → i.confirmed = false → s.net.restarting = false → s.flt.clusterHeld = false → i.slot < 3 → i.startT + secT 10 ≤ t →
      exec (.confirmed t) s0 = .next (({ u with otp := { u.otp with image := some { i with confirmed := true } } }.event 0xFE 0x0C23 0).showSlots)) ∧
  (∀ (t : Time) (s0 : State) (n : BitVec 32),
      let s := s0.tick t
      s.modeN ≠ 0 → s.otp.hostBoot = true →
      exec (.hostBootLoad t n) s0 = .next ((s.hostBootLen n.toNat).answer .ok))

/-- O34. A source kind that fits the written instance waits for its switch; a pulse ratio of at most 1 comes into force, a new M rescaling the phase; a time write is staged or applied at once; a tally write within the limit sets the value and lifts the hold, and is a change for the marks decided from 2 us on. (R30, R33, R122, R123, R129, R131, R330, R331) -/
def Obligations.SettingCommands : Prop :=
  (∀ (t : Time) (s0 : State) (p : Path) (k : Fin 32) (v : Nat),
      let s := s0.tick t
      let u := (s.setn (oLax k 1) v).answer .ok
      s.serves p = true → s.modeN ≤ 6 → v ≤ 4 → sourceFits v (s.nat (oLax k 2)) = true →
      exec (.sourceKindWrite t p k v) s0 = .next (u.setLax k { u.laxOf k with pend := some (v, s.nat (oLax k 2)) })) ∧
  (∀ (t : Time) (s0 : State) (p : Path) (n : Fin 8) (v : Nat),
      let s := s0.tick t
      s.serves p = true → s.modeN ≤ 5 → 1 ≤ v → v ≤ s.nat (oPls n 3) → v ≤ 65535 →
      exec (.plsRatioWrite t p n false v) s0 = .next ((s.setn (oPls n 2) v).answer .ok)) ∧
  (∀ (t : Time) (s0 : State) (p : Path) (n : Fin 8) (v : Nat),
      let s := s0.tick t
      s.serves p = true → s.modeN ≤ 5 → 1 ≤ v → s.nat (oPls n 2) ≤ v → v ≤ 65535 →
      exec (.plsRatioWrite t p n true v) s0 = .next (((s.setn (oPls n 3) v).answer .ok).plsRescale n (s.nat (oPls n 3)) v)) ∧
  (∀ (t : Time) (s0 : State) (p : Path),
      let s := s0.tick t
      s.serves p = true → s.modeN ≤ 6 → s.timeWriteCheck = none →
      exec (.timeWriteStaged t p) s0 = .next ({ s.answer .ok with clk := { s.clk with staged := some (s.nat (ky 0x2301 1), s.now) } })) ∧
  (∀ (t : Time) (s0 : State) (p : Path),
      let s := s0.tick t
      s.serves p = true → s.modeN ≤ 6 → s.timeWriteCheck = none →
      exec (.timeWriteImmediate t p) s0 = .next ((s.answer .ok).applyTime (s.nat (ky 0x2301 1)))) ∧
  (∀ (t : Time) (s0 : State) (p : Path) (n : Fin 256) (v : Nat),
      let s := s0.tick t
      s.serves p = true → s.modeN ≤ 6 → v ≤ s.talLimit n → v < 2 ^ 64 →
      exec (.tallyWrite t p n v) s0 = .next ((((s.setn (oTal n 0) v).answer .ok).talWrite n v).addChange (.tally n)))

/-- O35. Over a path that serves the dictionary a request for each of the modes 2 to 7 is accepted in CONFIGURE to SERVICE, a request for STANDBY also in SAFE; what it does is State.modeRequest, which writes the result of R423 and raises MODE_REFUSED where it is refused (ModeGraph says what it answers). (R420, R421, R422, R423, R331, R6) -/
def Obligations.ModeRequests : Prop :=
  (∀ (t : Time) (s0 : State) (p : Path),
      let s := s0.tick t
      s.serves p = true → s.modeN ≤ 6 →
      exec (.requestConfigure t p) s0 = .next ((s.answer .ok).modeRequest 2)) ∧
  (∀ (t : Time) (s0 : State) (p : Path),
      let s := s0.tick t
      s.serves p = true → s.modeN ≤ 7 →
      exec (.requestStandby t p) s0 = .next ((s.answer .ok).modeRequest 3)) ∧
  (∀ (t : Time) (s0 : State) (p : Path),
      let s := s0.tick t
      s.serves p = true → s.modeN ≤ 6 →
      exec (.requestReady t p) s0 = .next ((s.answer .ok).modeRequest 4)) ∧
  (∀ (t : Time) (s0 : State) (p : Path),
      let s := s0.tick t
      s.serves p = true → s.modeN ≤ 6 →
      exec (.requestMarking t p) s0 = .next ((s.answer .ok).modeRequest 5)) ∧
  (∀ (t : Time) (s0 : State) (p : Path),
      let s := s0.tick t
      s.serves p = true → s.modeN ≤ 6 →
      exec (.requestService t p) s0 = .next ((s.answer .ok).modeRequest 6)) ∧
  (∀ (t : Time) (s0 : State) (p : Path),
      let s := s0.tick t
      s.serves p = true → s.modeN ≤ 6 →
      exec (.requestSafe t p) s0 = .next ((s.answer .ok).modeRequest 7))

/-- O36. A request for the mode the device is in succeeds and changes nothing; a request while a transition waits is busy unless it names SAFE; SAFE is entered from every mode from CONFIGURE to SERVICE (unless an integrity failure with RESTRICT holds CONFIGURE) and pre-empts a waiting transition; a pair of modes with no transition answers 1; STANDBY to READY answers the READY condition and enters READY where it holds; READY and MARKING change without a condition; every refused request leaves the mode as it is. (R420, R423) -/
def Obligations.ModeGraph : Prop :=
  (∀ s : State, s.modeAsk s.modeN = (0, s)) ∧
  (∀ (s : State) (m : Nat), m ≠ s.modeN → m ≠ 7 → ¬(s.modeN = 2 ∧ s.restricted = true) → s.mode.trans.isSome = true → s.modeAsk m = (2, s)) ∧
  (∀ s : State, 2 ≤ s.modeN → s.modeN ≤ 6 → ¬(s.modeN = 2 ∧ s.restricted = true) → s.modeAsk 7 = (0, s.enterSafe)) ∧
  (∀ (s : State) (m : Nat), m ≠ 2 → s.modeN = 2 → s.restricted = true → s.modeAsk m = (7, s)) ∧
  (∀ (s : State) (m : Nat), s.mode.trans = none → m ≠ s.modeN → ¬(s.modeN = 2 ∧ s.restricted = true) →
      (s.modeN, m) ∈ [(2, 4), (2, 5), (2, 6), (3, 5), (4, 2), (5, 2), (5, 3), (5, 6), (6, 2), (6, 5), (7, 2), (7, 4), (7, 5), (7, 6)] →
      s.modeAsk m = (1, s)) ∧
  (∀ s : State, s.mode.trans = none → s.modeN = 3 ∨ s.modeN = 6 →
      s.modeAsk 4 = (if s.readyCode = 0 then (0, s.enterMode 4) else (s.readyCode, s))) ∧
  (∀ s : State, s.mode.trans = none → s.modeN = 4 → s.modeAsk 5 = (0, s.enterMode 5)) ∧
  (∀ s : State, s.mode.trans = none → s.modeN = 5 → s.modeAsk 4 = (0, s.enterMode 4)) ∧
  (∀ (s : State) (m : Nat), (s.modeAsk m).1 ≠ 0 → (s.modeAsk m).1 ≠ 0xFF → (s.modeAsk m).2.modeN = s.modeN)

/-- O37. A waiting transition to STANDBY completes once all is quiet, one to CONFIGURE once the system executor is idle; PORST_N low clears the device, its release with the straps and the end of the internal reset start it; the reset command runs the shutdown first, the restart command begins a firmware restart; its end selects the image again and serves what waited; a start-up target of STANDBY is done once STANDBY is entered. (R409, R413, R420, R424, R425, R426, R427) -/
def Obligations.ModeEvents : Prop :=
  (∀ (t : Time) (s0 : State),
      let s := s0.tick t
      s.mode.trans = some 3 → s.quiet = true →
      exec (.modeTransitionComplete t) s0 = .next (({ s with mode := { s.mode with trans := none } }.enterStandby).setn (ky 0x2100 3) 0)) ∧
  (∀ (t : Time) (s0 : State),
      let s := s0.tick t
      let u := { s with mode := { s.mode with trans := none } }
      s.mode.trans = some 2 → s.exBusy sysEx = false →
      exec (.modeTransitionComplete t) s0 = .next ((((List.range 48).foldl State.axLeave u).enterMode 2).setn (ky 0x2100 3) 0)) ∧
  (∀ (t : Time) (s0 : State),
      let s := s0.tick t
      exec (.porstLow t) s0 = .next (s.cleared true)) ∧
  (∀ (t : Time) (s0 : State) (straps : BitVec 3),
      let s := s0.tick t
      s.mode.porstLow = true →
      exec (.porstRelease t straps) s0 = .next ({ s with otp := { s.otp with straps := straps.toNat } }.bootRun 1)) ∧
  (∀ (t : Time) (s0 : State) (cause : Nat) (z : Time),
      let s := s0.tick t
      s.mode.resetHold = some (cause, z) → z + usT 100 ≤ t →
      exec (.resetHoldEnd t) s0 = .next (s.bootRun cause)) ∧
  (∀ (t : Time) (s0 : State) (g : Nat),
      let s := s0.tick t
      let r := s.modeAsk 3
      let u := r.2.setn (ky 0x2100 3) r.1
      s.mode.startup = some g → s.modeN = 2 → r.1 = 0 → g ≠ 4 →
      exec (.startupStandbyRequest t) s0 = .next { u with mode := { u.mode with startup := none } }) ∧
  (∀ (t : Time) (s0 : State) (p : Path),
      let s := s0.tick t
      s.serves p = true → s.modeN ≤ 7 →
      exec (.deviceResetCommand t p) s0 = .next ((s.answer .ok).resetAfterShutdown 4)) ∧
  (∀ (t : Time) (s0 : State) (p : Path),
      let s := s0.tick t
      s.serves p = true → s.modeN ≤ 7 → s.otp.updating = none →
      exec (.firmwareRestartCommand t p) s0 = .next ((s.answer .ok).beginRestart)) ∧
  (∀ (t : Time) (s0 : State),
      let s := s0.tick t
      let u := s.selectImage
      s.net.restarting = true → s.flt.clusterHeld = false →
      exec (.restartEnd t) s0 = .next (if u.otp.image.isSome = true then u.serveAgain else u))

/-- O38. An error line that fires acts as its source and latches its bit; a clear over BAR0 or the dictionary clears the bits whose condition is absent; a read of a low half answers it and latches the high half; the watchdog, once its period is over, latches bit 52 outside SAFE and holds the cluster, whose restart begins once the system executor is idle; a lockstep mismatch drops the SAFE pins; a die temperature, one a millisecond, is stored and sets or lifts bit 54; a lost reference is bit 46 or 47; an injection is armed, and made good at the next write; in heartbeat mode the pins toggle every 50 us. (R435, R438, R441, R442, R443, R444, R445, R446, R447, R448) -/
def Obligations.FaultCommands : Prop :=
  (∀ (t : Time) (s0 : State) (b : Fin 64) (cause k dt : Nat),
      let s := s0.tick t
      s.modeN ≠ 0 →
      exec (.faultOccurrence t b cause k dt) s0 = .next (s.errorLine b cause k dt)) ∧
  (∀ (t : Time) (s0 : State) (mask : BitVec 64),
      let s := s0.tick t
      s.modeN ≠ 0 →
      exec (.faultClear t .bar0 mask) s0 = .next ((s.answer .ok).clearFaults mask)) ∧
  (∀ (t : Time) (s0 : State) (p : Path) (mask : BitVec 64),
      let s := s0.tick t
      s.serves p = true → s.modeN ≤ 7 →
      exec (.faultClear t p mask) s0 = .next ((s.answer .ok).clearFaults mask)) ∧
  (∀ (t : Time) (s0 : State),
      let s := s0.tick t
      s.modeN ≠ 0 →
      exec (.fswLoRead t false) s0 = .next ({ s with flt := { s.flt with latchHi := s.flt.fsw.toNat / 2 ^ 32 } }.answer (.data (leBytes 4 s.flt.fsw.toNat)))) ∧
  (∀ (t : Time) (s0 : State),
      let s := s0.tick t
      s.modeN ≠ 0 →
      exec (.fswLoRead t true) s0 = .next ({ s with flt := { s.flt with latchLive := s.liveNow.toNat / 2 ^ 32 } }.answer (.data (leBytes 4 s.liveNow.toNat)))) ∧
  (∀ (t : Time) (s0 : State) (code : Nat),
      let s := s0.tick t
      let u := (if s.modeN = 7 then s else s.fault 52 1 0 code).event 0xCC 0x0641 0
      1 < s.modeN → s.flt.clusterHeld = false → s.flt.wdogT + msT s.flt.wdogMs ≤ t →
      exec (.watchdog t code) s0 = .next { u with flt := { u.flt with clusterHeld := true }, net := { u.net with restarting := false } }) ∧
  (∀ (t : Time) (s0 : State),
      let s := s0.tick t
      let u := s.beginRestart
      s.flt.clusterHeld = true → s.exBusy sysEx = false →
      exec (.watchdogRestartStart t) s0 = .next { u with flt := { u.flt with wdogRestart := true } }) ∧
  (∀ (t : Time) (s0 : State) (group : Nat),
      let s := s0.tick t
      s.modeN ≠ 0 →
      exec (.lockstepMismatch t group) s0 = .next ((s.fault 55 1 0 group).dropSafe)) ∧
  (∀ (t : Time) (s0 : State) (v : Int),
      let s := s0.tick t
      let u := { s with flt := { s.flt with tempT := some t } }.setn (ky 0x2200 8) (wrapS 16 v)
      s.modeN ≠ 0 → elapsed s.flt.tempT (msT 1) t = true → s.num (ky 0x2200 7) < wrapS 16 v →
      exec (.dieTemperatureMeasure t v) s0 = .next ((u.setLive 54 true).fault 54 1 0 (wrapU 16 (wrapS 16 v)).toNat)) ∧
  (∀ (t : Time) (s0 : State) (v : Int),
      let s := s0.tick t
      let u := { s with flt := { s.flt with tempT := some t } }.setn (ky 0x2200 8) (wrapS 16 v)
      s.modeN ≠ 0 → elapsed s.flt.tempT (msT 1) t = true → wrapS 16 v ≤ s.num (ky 0x2200 7) - 5 →
      exec (.dieTemperatureMeasure t v) s0 = .next (u.setLive 54 false)) ∧
  (∀ (t : Time) (s0 : State) (v : Int),
      let s := s0.tick t
      let u := { s with flt := { s.flt with tempT := some t } }.setn (ky 0x2200 8) (wrapS 16 v)
      s.modeN ≠ 0 → elapsed s.flt.tempT (msT 1) t = true → wrapS 16 v ≤ s.num (ky 0x2200 7) → s.num (ky 0x2200 7) - 5 < wrapS 16 v →
      exec (.dieTemperatureMeasure t v) s0 = .next u) ∧
  (∀ (t : Time) (s0 : State) (i : Fin 2),
      let s := s0.tick t
      s.modeN ≠ 0 →
      exec (.referenceLost t (some i)) s0 = .next (s.errorLine 46 1 i 0)) ∧
  (∀ (t : Time) (s0 : State),
      let s := s0.tick t
      s.modeN ≠ 0 →
      exec (.referenceLost t none) s0 = .next (s.errorLine 47 1 0 0)) ∧
  (∀ (t : Time) (s0 : State) (p : Path),
      let s := s0.tick t
      s.serves p = true → (s.modeN = 2 ∨ s.modeN = 3 ∨ s.modeN = 6) → s.injectCheck = none →
      exec (.injectionExecute t p) s0 = .next ((s.answer .ok).injectAct)) ∧
  (∀ (t : Time) (s0 : State) (b i dt k : Nat),
      let s := s0.tick t
      let u := { s with flt := { s.flt with arm := none } }.setn (ky 0x2260 6) 0
      let w := if k = 2 ∨ b = 55 then u.injectDouble b i dt else u.injectSingle b i dt
      s.flt.arm = some (b, i, dt, k) →
      exec (.injectionRewrite t) s0 = .next { w with flt := { w.flt with injected := w.flt.injected.filter (· != b) } }) ∧
  (∀ (t : Time) (s0 : State),
      let s := s0.tick t
      s.frcN (ky 0x2200 6) = 1 → (s.flt.safeA = true ∨ s.flt.safeB = true) → s.flt.beatT + usT 50 ≤ t →
      exec (.safeHeartbeat t) s0 = .next { s with flt := { s.flt with phase := !s.flt.phase, beatT := t } })

/-- O39. A save takes the values of this instant and answers once its bank is written; the finished save's bank is in place; a restore marks the next reset; a second after the last one an automatic save that is owed starts. (R334, R335, R336, R337, R331) -/
def Obligations.StoreCommands : Prop :=
  (∀ (t : Time) (s0 : State) (p : Path),
      let s := s0.tick t
      s.serves p = true → s.modeN ≤ 6 → s.saveCheck = none →
      exec (.storeSave t p 1702257011) s0 = .next ((s.answer .ok).saveAct p)) ∧
  (∀ (t : Time) (s0 : State) (p : Path),
      let s := s0.tick t
      s.serves p = true → s.modeN ≤ 6 →
      exec (.storeRestore t p 1684107116) s0 = .next ({ s.answer .ok with store := { s.store with restoreDefaults := true } })) ∧
  (∀ (t : Time) (s0 : State) (b : Bank),
      let s := s0.tick t
      let u := s.putBank b
      s.store.saving = some (b, false) →
      exec (.storeSaveDone t) s0 = .next ({ u with store := { u.store with saving := none, path := none } }.answer .ok)) ∧
  (∀ (t : Time) (s0 : State) (b : Bank),
      let s := s0.tick t
      let u := s.putBank b
      s.store.saving = some (b, true) →
      exec (.storeSaveDone t) s0 = .next { u with store := { u.store with saving := none, path := none } }) ∧
  (∀ (t : Time) (s0 : State) (l : Time),
      let s := s0.tick t
      1 < s.modeN → s.deaf = false → s.store.autoOwed = true → s.store.saving = none → s.store.lastAuto = some l → l + secT 1 ≤ t →
      exec (.autoSave t) s0 = .next { s with store := { s.store with saving := some (s.nextBank, true), lastAuto := some t, autoOwed := false } })

/-- O40. A USDO write or read is a dictionary access of its node; an asynchronous RPDO whose writes are all accepted is applied, a synchronous one waits for SYNC; a TPDO event past its inhibit time sends the mapped objects, one of type 0 waits for SYNC; a SYNC is counted, its TPDOs are sent and the waiting RPDOs applied; the node produces SYNC and heartbeats at their periods, reports a missing one, and sends a waiting EMCY once the inhibit time has passed. (R340, R341, R342, R343, R344, R330) -/
def Obligations.CanCommands : Prop :=
  (∀ (t : Time) (s0 : State) (i : Fin 2) (idx : BitVec 16) (sub : BitVec 8) (b : Bytes) (r : Nat × Nat × Row × Val),
      let s := s0.tick t
      let v := s.writeVal (ky idx.toNat sub.toNat) r.2.2.1 r.2.2.2
      s.serves (.usdo i) = true → s.writeParse idx.toNat sub.toNat b = .ok r → v.relCheck r.1 r.2.1 sub.toNat r.2.2.2 b = none →
      exec (.usdoRequest t i idx sub (some b)) s0 = .next (State.act s (v.answer .ok) (.usdo i) true idx.toNat r.1 r.2.1 sub.toNat r.2.2.2 b)) ∧
  (∀ (t : Time) (s0 : State) (i : Fin 2) (idx : BitVec 16) (sub : BitVec 8) (x : Bytes),
      let s := s0.tick t
      s.serves (.usdo i) = true → s.dictRead idx.toNat sub.toNat = .ok x →
      exec (.usdoRequest t i idx sub none) s0 = .next (s.answer (.data x))) ∧
  (∀ (t : Time) (s0 : State) (i : Fin 2) (n : Fin 16) (data : Bytes),
      let s := s0.tick t
      let g := s.groupWrite (.usdo i) (pdoWrites (s.pdoMap 0x1600 n) data)
      let x := g.1.canOf i
      s.pdoServed false i n = true → s.deaf = false → 240 < s.nat (ky (0x1400 + n) 2) → g.2.all Option.isNone = true →
      exec (.rpdoReceive t i n data) s0 = .next { g.1.setCan i { x with rpdoBad := x.rpdoBad.filter (· != n.val) } with resp := s.resp }) ∧
  (∀ (t : Time) (s0 : State) (i : Fin 2) (n : Fin 16) (data : Bytes),
      let s := s0.tick t
      let x := s.canOf i
      s.pdoServed false i n = true → s.deaf = false → s.nat (ky (0x1400 + n) 2) ≤ 240 → (s.groupWrite (.usdo i) (pdoWrites (s.pdoMap 0x1600 n) data)).2.all Option.isNone = true →
      exec (.rpdoReceive t i n data) s0 = .next (s.setCan i { x with rpdoWait := tset (fun _ => []) x.rpdoWait n data })) ∧
  (∀ (t : Time) (s0 : State) (i : Fin 2) (n : Fin 16),
      let s := s0.tick t
      let x := s.canOf i
      s.pdoServed true i n = true → 240 < s.nat (ky (0x1800 + n) 2) → tget (fun _ => 0) x.tpdoLast n + usT (100 * s.nat (ky (0x1800 + n) 3)) ≤ t →
      exec (.tpdoTransmit t i n) s0 = .next ((s.setCan i { x with tpdoLast := tset (fun _ => 0) x.tpdoLast n s.now }).send (.tpdo i n (s.tpdoData n)))) ∧
  (∀ (t : Time) (s0 : State) (i : Fin 2) (n : Fin 16),
      let s := s0.tick t
      let x := s.canOf i
      s.pdoServed true i n = true → s.nat (ky (0x1800 + n) 2) = 0 →
      exec (.tpdoTransmit t i n) s0 = .next (s.setCan i { x with tpdoSync := tset (fun _ => 0) x.tpdoSync n 1 })) ∧
  (∀ (t : Time) (s0 : State) (i : Fin 2) (k : Nat),
      let s := s0.tick t
      s.canUp i = true → (s.canOf i).nmt = 5 →
      exec (.syncReceive t i k) s0 = .next ((s.setCan i { s.canOf i with sync := k }).syncOn i k)) ∧
  (∀ (t : Time) (s0 : State) (i : Fin 2),
      let s := s0.tick t
      let x := s.canOf i
      let top := s.nat (ky 0x1019 0)
      let k := if 2 ≤ top then x.sync % top + 1 else 0
      s.canUp i = true → x.nmt ≠ 4 → bit (s.nat (ky 0x1005 0)) 30 = true → s.nat (ky 0x1006 0) ≠ 0 → elapsed x.syncT (usT (s.nat (ky 0x1006 0))) t = true →
      exec (.syncProduce t i) s0 = .next (((s.setCan i { x with sync := k, syncT := some t }).send (.canSync i k)).syncOn i k)) ∧
  (∀ (t : Time) (s0 : State) (i : Fin 2) (slot : Fin 8),
      let s := s0.tick t
      let e := s.nat (ky 0x1016 (slot + 1))
      s.canUp i = true → e % 65536 ≠ 0 → bits e 22 16 ≠ 0 →
      exec (.heartbeatTimeout t i slot) s0 = .next (s.event (0xF8 + i) 0x0B05 i [BitVec.ofNat 8 (bits e 22 16)])) ∧
  (∀ (t : Time) (s0 : State) (i : Fin 2),
      let s := s0.tick t
      let x := s.canOf i
      s.canUp i = true → s.nat (ky 0x1017 0) ≠ 0 → elapsed x.hbT (msT (s.nat (ky 0x1017 0))) t = true →
      exec (.heartbeatProduce t i) s0 = .next ((s.setCan i { x with hbT := some t }).send (.heartbeat i x.nmt))) ∧
  (∀ (t : Time) (s0 : State) (i : Fin 2) (e : Nat × Bytes) (l : List (Nat × Bytes)),
      let s := s0.tick t
      let x := s.canOf i
      x.emcyWait = e :: l → s.canUp i = true → x.nmt ≠ 4 → x.inhibitEnd ≤ s.now →
      exec (.emcyInhibitExpiry t i) s0 = .next ((s.setCan i { x with emcyWait := l, inhibitEnd := s.now + usT (100 * s.nat (ky 0x1015 0)) }).send (.emcy i e.1 e.2)))

/-- O41. Start asks for READY from STANDBY and is ignored in every other mode; enter pre-operational asks for STANDBY from READY, makes both nodes pre-operational in SAFE and else is ignored; stop asks for SAFE where 0x2062:01 is 1 and else is ignored; reset communication and reset node give the communication objects their saved values, reset node also restarting where 0x2062:02 is 1; an ignored command is counted with event NMT_IGNORED; a node goes bus-off and recovers, and becomes error-passive and active again. (R340, R342, R344) -/
def Obligations.NmtCommands : Prop :=
  (∀ (t : Time) (s0 : State) (i : Fin 2),
      let s := s0.tick t
      s.canUp i = true → s.deaf = false →
      exec (.nmtStartRemoteNode t i) s0 = .next (if s.modeN = 3 then s.modeRequest 4 else s.nmtIgnored i)) ∧
  (∀ (t : Time) (s0 : State) (i : Fin 2),
      let s := s0.tick t
      s.canUp i = true → s.deaf = false → s.modeN ≠ 7 →
      exec (.nmtEnterPreoperational t i) s0 = .next (if s.modeN = 4 then s.modeRequest 3 else s.nmtIgnored i)) ∧
  (∀ (t : Time) (s0 : State) (i : Fin 2),
      let s := s0.tick t
      let u := s.setCan 0 { s.canOf 0 with nmt := 0x7F }
      s.canUp i = true → s.deaf = false → s.modeN = 7 →
      exec (.nmtEnterPreoperational t i) s0 = .next (u.setCan 1 { u.canOf 1 with nmt := 0x7F })) ∧
  (∀ (t : Time) (s0 : State) (i : Fin 2),
      let s := s0.tick t
      s.canUp i = true → s.deaf = false →
      exec (.nmtStopRemoteNode t i) s0 = .next (if s.nat (ky 0x2062 1) = 1 then s.modeRequest 7 else s.nmtIgnored i)) ∧
  (∀ (t : Time) (s0 : State) (i : Fin 2),
      let s := s0.tick t
      s.canUp i = true → s.deaf = false →
      exec (.nmtResetCommunication t i) s0 = .next (s.commReset i)) ∧
  (∀ (t : Time) (s0 : State) (i : Fin 2),
      let s := s0.tick t
      let u := s.commReset i
      s.canUp i = true → s.deaf = false →
      exec (.nmtResetNode t i) s0 = .next (if u.nat (ky 0x2062 2) = 1 then u.beginRestart else u)) ∧
  (∀ (t : Time) (s0 : State) (i : Fin 2),
      let s := s0.tick t
      s.canUp i = true →
      exec (.busOff t i) s0 = .next (((s.setn (ky (0x2060 + i) 6) 2).errReg).event (0xF8 + i) 0x0B01 i)) ∧
  (∀ (t : Time) (s0 : State) (i : Fin 2),
      let s := s0.tick t
      s.nat (ky (0x2060 + i) 6) = 2 →
      exec (.busOffRecovery t i) s0 = .next (((s.setn (ky (0x2060 + i) 6) 0).errReg).emcyNext i)) ∧
  (∀ (t : Time) (s0 : State) (i : Fin 2) (v : Bool),
      let s := s0.tick t
      s.canUp i = true → s.nat (ky (0x2060 + i) 6) ≠ b2n v →
      exec (.errorPassive t i v) s0 = .next (((s.setn (ky (0x2060 + i) 6) (b2n v : Nat)).errReg).event (0xF8 + i) 0x0B02 i))

/-- O42. A link comes up at its speed (a configured speed fixes it) and goes down; ARP and ICMP echo requests to the MAC's address are answered; a KDP request that fits is served; queued KDP events go to the enabled subscribers and the consumer index advances; a PTP message of the configured domain is taken; without an Announce the port becomes master or listens; a slave sends its delay request and a master its Announce and Sync. (R339, R346, R347, R352, R353, R354) -/
def Obligations.EthernetCommands : Prop :=
  (∀ (t : Time) (s0 : State) (m : Fin 2) (speed : Nat),
      let s := s0.tick t
      let cfg := s.frcN (ky (0x2068 + m) 2)
      let v := if cfg = 0 then speed else cfg
      s.frcN (ky (0x2068 + m) 1) = 1 → 1 < s.modeN → (v = 1 ∨ v = 2) → s.nat (ky (0x2068 + m) 9) ≠ v →
      exec (.ethernetLinkUp t m speed) s0 = .next ((s.setn (ky (0x2068 + m) 9) (v : Nat)).event (0xFA + m) 0x0B06 m [BitVec.ofNat 8 v])) ∧
  (∀ (t : Time) (s0 : State) (m : Fin 2),
      let s := s0.tick t
      s.macUp m = true →
      exec (.ethernetLinkDown t m) s0 = .next ((s.setn (ky (0x2068 + m) 9) 0).event (0xFA + m) 0x0B07 m)) ∧
  (∀ (t : Time) (s0 : State) (m : Fin 2) (target sender : BitVec 32) (senderMac : BitVec 48),
      let s := s0.tick t
      s.macUp m = true → target.toNat = s.frcN (ky (0x2068 + m) 4) →
      exec (.arpRequest t m target sender senderMac) s0 = .next (s.send (.arp m (s.frcN (ky (0x2068 + m) 3)) target.toNat senderMac.toNat sender.toNat))) ∧
  (∀ (t : Time) (s0 : State) (m : Fin 2) (src dst : BitVec 32) (data : Bytes),
      let s := s0.tick t
      s.macUp m = true → dst.toNat = s.frcN (ky (0x2068 + m) 4) →
      exec (.icmpEcho t m src dst data) s0 = .next (s.send (.icmp m src.toNat data))) ∧
  (∀ (t : Time) (s0 : State) (m : Fin 2) (src : BitVec 32) (port : BitVec 16) (b : Bytes),
      let s := s0.tick t
      s.macUp m = true → s.frcN (ky (0x2068 + m) 7) = 1 → b.length ≤ 1472 → s.deaf = false →
      exec (.kdpRequest t m src port b) s0 = .next (s.kdpServe m src.toNat port.toNat b)) ∧
  (∀ (t : Time) (s0 : State),
      let s := s0.tick t
      let q := s.nat (ky 0x206A 0x0B)
      let x := s.qOf q
      let n := min 22 x.level
      let entries := (List.range n).map (fun j => s.memRead x.dram (x.slot (x.cons + j)) 64)
      q ≠ 0 → x.enabled = true → x.typ = 4 → n ≠ 0 → s.deaf = false → (s.macUp 0 = true ∧ s.frcN (ky 0x2068 7) = 1 ∨ s.macUp 1 = true ∧ s.frcN (ky 0x2069 7) = 1) →
      exec (.kdpEventSend t) s0 = .next (((s.kdpEventTo entries 1).kdpEventTo entries 2).doorbell q ((x.cons + n) % 2 ^ 32))) ∧
  (∀ (t : Time) (s0 : State) (m : Fin 2) (msg : PtpMsg),
      let s := s0.tick t
      s.ptpOn m = true →
      exec (.ptpMessage t m (s.nat (ky 0x2308 4)) msg) s0 = .next (s.ptpTake msg)) ∧
  (∀ (t : Time) (s0 : State),
      let s := s0.tick t
      (s.ptpOn 0 = true ∨ s.ptpOn 1 = true) → s.net.ptp.lastAnnounce + s.nat (ky 0x2308 8) * s.announceInterval ≤ t → (s.ptpSlave = true ∨ s.ptpState = 4) →
      exec (.ptpAnnounceTimeout t) s0 = .next (s.ptpTo (if s.nat (ky 0x2308 6) = 1 then 4 else 6))) ∧
  (∀ (t : Time) (s0 : State),
      let s := s0.tick t
      let p := s.net.ptp
      (s.ptpOn 0 = true ∨ s.ptpOn 1 = true) → s.ptpSlave = true →
      exec (.ptpTransmit t .delayReq) s0 = .next ({ s with net := { s.net with ptp := { p with reqSeq := (p.reqSeq + 1) % 65536, reqTx := s.ptpOut } } }.send (.ptp .delayReq))) ∧
  (∀ (t : Time) (s0 : State) (m : PtpSend),
      let s := s0.tick t
      (s.ptpOn 0 = true ∨ s.ptpOn 1 = true) → s.ptpState = 6 → m ≠ .delayReq →
      exec (.ptpTransmit t m) s0 = .next (s.send (.ptp m)))

/-- O43. A datagram that is shorter than its header, names another magic, version or type, or counts no or more than 32 operations is counted as dropped with event KDP_DROPPED and nothing else happens; one from a source that no entry of the list in use matches is counted as dropped and nothing else happens; one with the SEQUENCE of the cached answer is answered with that answer and the CACHED flag, and nothing is executed again: objects but the counter, memory, casements, axes and faults stay; one with an earlier SEQUENCE is counted as dropped and nothing else happens. (R347, R350, R351) -/
def Obligations.KdpRequests : Prop :=
  (∀ (s : State) (m src port : Nat) (b : Bytes), b.length < 16 ∨ fieldLE b 0 4 ≠ 0x5044444B ∨ fieldLE b 4 1 ≠ 1 ∨ fieldLE b 5 1 ≠ 1 ∨
        fieldLE b 7 1 = 0 ∨ 32 < fieldLE b 7 1 →
      s.kdpServe m src port b = (s.bump (ky (0x2068 + m) 0x0A)).event (0xFA + m) 0x0B08 m) ∧
  (∀ (s : State) (m src port : Nat) (b : Bytes) (ops : List KOp), 16 ≤ b.length → fieldLE b 0 4 = 0x5044444B → fieldLE b 4 1 = 1 →
      fieldLE b 5 1 = 1 → 1 ≤ fieldLE b 7 1 → fieldLE b 7 1 ≤ 32 → kdpOps (fieldLE b 7 1) (b.drop 16) = some ops → s.kdpAccess src = none →
      s.kdpServe m src port b = s.bump (ky (0x2068 + m) 0x0A)) ∧
  (∀ (s : State) (m src port : Nat) (b : Bytes) (ops : List KOp) (x : KdpClient), 16 ≤ b.length → fieldLE b 0 4 = 0x5044444B →
      fieldLE b 4 1 = 1 → fieldLE b 5 1 = 1 → 1 ≤ fieldLE b 7 1 → fieldLE b 7 1 ≤ 32 → kdpOps (fieldLE b 7 1) (b.drop 16) = some ops →
      s.kdpAccess src ≠ none →
      s.net.kdp.find? (fun x => x.src == src && x.port == port && x.session == fieldLE b 8 4) = some x →
      (fieldLE b 12 4 = x.seq → ∃ r, (s.kdpServe m src port b).out = .kdp m src port r :: s.out ∧
        r = kdpResponse b true x.resp ∧ (s.kdpServe m src port b).mem = s.mem ∧ (s.kdpServe m src port b).cas = s.cas ∧
        (s.kdpServe m src port b).axes = s.axes ∧ (s.kdpServe m src port b).flt = s.flt ∧
        ∀ k, k ≠ ky 0x206A 0x0C → (s.kdpServe m src port b).val k = s.val k) ∧
      (fieldLE b 12 4 ≠ x.seq → wrapS 32 ((fieldLE b 12 4 : Int) - x.seq) < 0 → s.kdpServe m src port b = s.bump (ky (0x2068 + m) 0x0A)))

/-- O44. For every command and state, a step with the command at the front of the queue is the command's own effect on the state with the queue's rest (log 1). (95_what_each_step_holds.md) -/
def Obligations.StepRunsFront : Prop :=
  ∀ (k : Instr) (rest : List Instr) (s : State), step { s with pending := k :: rest } = exec k { s with pending := rest }

/-- O45. On an empty queue a step leaves the state as it is: the model's own choice, since what happens at a time is a command of the table (log 1). (95_what_each_step_holds.md) -/
def Obligations.EmptyQueueIdles : Prop :=
  ∀ s : State, s.pending = [] → step s = .next s

/-- O46. At reset the device is OFF, no status bit is set and FIRST_FAULT reads 255, both SAFE pins are low, every casement is ABSENT and every axis DISABLED, no object has been written, no queue is enabled, all memory is as the log says unwritten memory reads (log 12), and nothing waits. The values that the spec does not give (log 6, 12, 15, 16) are the model's own and not stated here. (R419, R440, R445, R424, R438) -/
def Obligations.ResetValues : Prop :=
  State.reset.modeN = 0 ∧ State.reset.flt.fsw = 0 ∧ State.reset.nat (ky 0x2200 3) = 255 ∧
  State.reset.flt.safeA = false ∧ State.reset.flt.safeB = false ∧ State.reset.pending = [] ∧ State.reset.obj = [] ∧
  (∀ c : Fin 48, State.reset.casState c = 0 ∧ (State.reset.casOf c).pend = [] ∧ (State.reset.casOf c).opened = []) ∧
  (∀ a : Fin 48, State.reset.axState a = 0) ∧ (∀ q : Nat, (State.reset.qOf q).enabled = false) ∧
  (∀ a : Nat, State.reset.dramRead a 1 = [0] ∧ State.reset.hostRead a 1 = [0] ∧ State.reset.flashRead a 1 = [255])

/-- O47. State.Inv, which StepKeepsInvariant says every step keeps, holds of the state after reset. (R5, R432) -/
def Obligations.ResetInvariant : Prop :=
  State.reset.Inv

/-- O48. From every state in which the three memories are in canonical form and the reserved bits 56 to 63 of the Fault Status Word read 0, every step that answers a next state leaves the memories in canonical form and those bits 0. That bits 56 to 63 stay 0 is R5 and R432; the canonical form is the model's own. (R5, R432, R355) -/
def Obligations.StepKeepsInvariant : Prop :=
  ∀ s u : State, s.Inv → step s = .next u → u.Inv

/-- O49. For every command and every state, exec answers a next state: no command stops the block. The queue of waiting commands is left alone, and the monotonic count is never less than it was (R119). (R119) -/
def Obligations.EveryCommandRuns : Prop :=
  ∀ (k : Instr) (s : State), ∃ u, exec k s = .next u ∧ u.pending = s.pending ∧ s.clk.mono ≤ u.clk.mono

/-- O50. Over a path that serves the dictionary, a write to an object in a mode that its row does not list is refused, and nothing else changes: the object keeps its value. A read of any object is answered with its value in every mode in which the dictionary is served (DRAM data, 0x2070:02, also needs a window inside the installed DRAM). (R6) -/
def Obligations.WriteOutsideTheListedModes : Prop :=
  (∀ (t : Time) (s0 : State) (p : Path) (idx : BitVec 16) (sub : BitVec 8) (b : Bytes) (x : Nat × Nat × Row),
      let s := s0.tick t
      s.serves p = true → findRow idx.toNat sub.toNat = some x → modeTakes s.modeN x.2.2.acc = false →
      ∃ r, exec (.dictionaryWrite t p idx sub b) s0 = .next (s.answer (.refused r)) ∧ (r = .mode ∨ r = .readOnly)) ∧
  (∀ (s : State) (p : Path) (idx sub : Nat) (x : Nat × Nat × Row), s.serves p = true → findRow idx sub = some x →
      (idx = 0x2070 → sub = 2 → s.dramAccess (s.nat (ky 0x2070 3)) = true) →
      s.dictReadOn p idx sub false = (s.readSide idx sub).answer (.data (encodeVal x.2.2.ty (s.readVal idx sub x.1 x.2.1 x.2.2)))) ∧
  (∀ (t : Time) (s0 : State) (i : Fin 2) (idx : BitVec 16) (sub : BitVec 8),
      exec (.usdoRequest t i idx sub none) s0 = .next ((s0.tick t).dictReadOn (.usdo i) idx.toNat sub.toNat false))

/-- O51. In the order of its checks: an index that the dictionary does not hold, a sub-index that the index does not hold, a read-only object, a mode that the row does not list, a length other than the type's, the number of a reserved queue, a value outside the row's range. A write that fails one of them changes nothing but its answer. In OFF and BOOT no path of the dictionary answers; no BAR0 register carries a dictionary write; over a firmware restart a write waits behind those that came before it. That a read-only object is refused as such before the mode is looked at, and the order of the checks, are the model's readings (log 21). (R18, R329, R330, R331, R332) -/
def Obligations.WriteRefusals : Prop :=
  (∀ (t : Time) (s0 : State) (p : Path) (idx : BitVec 16) (sub : BitVec 8) (b : Bytes) (r : Refuse),
      let s := s0.tick t
      s.serves p = true → s.writeParse idx.toNat sub.toNat b = .error r →
      exec (.dictionaryWrite t p idx sub b) s0 = .next (s.answer (.refused r))) ∧
  (∀ (s : State) (idx sub : Nat) (b : Bytes), findRow idx sub = none →
      s.writeParse idx sub b = .error (if hasIndex idx then .absentSub else .absent)) ∧
  (∀ (s : State) (idx sub : Nat) (b : Bytes) (x : Nat × Nat × Row), findRow idx sub = some x → s.modeN ≠ 7 → x.2.2.acc = 0 →
      s.writeParse idx sub b = .error .readOnly) ∧
  (∀ (s : State) (idx sub : Nat) (b : Bytes) (x : Nat × Nat × Row), findRow idx sub = some x → modeTakes s.modeN x.2.2.acc = true →
      decodeVal x.2.2.ty b = none → s.writeParse idx sub b = .error .length) ∧
  (∀ (s : State) (idx sub : Nat) (b : Bytes) (x : Nat × Nat × Row) (v : Val), findRow idx sub = some x →
      modeTakes s.modeN x.2.2.acc = true → decodeVal x.2.2.ty b = some v → namesQueue (ky idx sub) = true → 0 ≤ v.int → v.int < 16 → rowRange x.2.2 v = false →
      s.writeParse idx sub b = .error .reservedQueue) ∧
  (∀ (s : State) (idx sub : Nat) (b : Bytes) (x : Nat × Nat × Row) (v : Val), findRow idx sub = some x →
      modeTakes s.modeN x.2.2.acc = true → decodeVal x.2.2.ty b = some v →
      ¬(namesQueue (ky idx sub) = true ∧ 0 ≤ v.int ∧ v.int < 16) → rowRange x.2.2 v = false → s.writeParse idx sub b = .error .range) ∧
  (∀ (t : Time) (s0 : State) (p : Path) (idx : BitVec 16) (sub : BitVec 8) (b : Bytes),
      let s := s0.tick t
      s.modeN ≤ 1 → p ≠ .bar0 → exec (.dictionaryWrite t p idx sub b) s0 = .next (s.answer .none)) ∧
  (∀ (t : Time) (s0 : State) (idx : BitVec 16) (sub : BitVec 8) (b : Bytes),
      exec (.dictionaryWrite t .bar0 idx sub b) s0 = .next ((s0.tick t).answer (.refused .absent))) ∧
  (∀ (t : Time) (s0 : State) (p : Path) (idx : BitVec 16) (sub : BitVec 8) (b : Bytes),
      let s := s0.tick t
      2 ≤ s.modeN → s.deaf = true → p ≠ .bar0 → (∀ i, p = .usdo i → s.usdoServed i = true) →
      exec (.dictionaryWrite t p idx sub b) s0 =
        .next ({ s with net := { s.net with held := s.net.held ++ [Held.write p idx.toNat sub.toNat b] } }.answer .waits))

/-- O52. An accepted write of DRAM data stores its bytes at the address of 0x2070:01 on; every other byte of DRAM reads as before, host memory and flash are unchanged, and so are the objects, the casements, the axes and the faults. (R355) -/
def Obligations.DramWindowFrame : Prop :=
  ∀ (t : Time) (s0 : State) (p : Path) (b : Bytes),
    let s := s0.tick t
    s.serves p = true → s.modeN ≤ 6 → 1 ≤ b.length → b.length ≤ 1024 → s.dramAccess b.length = true →
    ∃ u, exec (.dramDataWrite t p b) s0 = .next u ∧
      (∀ x : Nat, u.dramRead x 1 = (if s.nat (ky 0x2070 1) ≤ x ∧ x < s.nat (ky 0x2070 1) + b.length
        then [b.getD (x - s.nat (ky 0x2070 1)) 0] else s.dramRead x 1)) ∧
      (∀ x : Nat, u.hostRead x 1 = s.hostRead x 1 ∧ u.flashRead x 1 = s.flashRead x 1) ∧
      u.obj = s.obj ∧ u.force = s.force ∧ u.cas = s.cas ∧ u.axes = s.axes ∧ u.flt = s.flt ∧ u.clk = s.clk ∧ u.host = s.host

/-- O53. An occurrence of bit b sets that bit of the Fault Status Word and no other. The first one after none was set is FIRST_FAULT; where some bit was set FIRST_FAULT stays, unless a lower bit is set on the very clock of the first one. An occurrence of a bit that was clear makes its count 1 and its first syndrome and time those of the occurrence; one of a bit that was set counts up to 2^32 - 1 and leaves the first syndrome and time, unless it comes on the clock that set the bit with a lower INSTANCE and DETAIL; the last syndrome and time are always those of the occurrence. (R436, R438, R439, R432) -/
def Obligations.FaultLatch : Prop :=
  ∀ (s : State) (b cause k dt cls : Nat) (inj : Bool), b < 56 →
    let u := s.latchFault b cause k dt inj cls
    let syn := b2n inj * 2147483648 + (cause % 128) * 16777216 + (k % 256) * 65536 + dt % 65536
    (∀ j : Nat, u.flt.fsw.getLsbD j = (s.flt.fsw.getLsbD j || decide (j = b))) ∧
    u.nat (ky 0x2200 3) = (if s.flt.fsw = 0 ∨ s.flt.fsw.getLsbD b = false ∧ clock160 s.flt.firstT = clock160 s.now ∧ b < s.nat (ky 0x2200 3)
      then b else s.nat (ky 0x2200 3)) ∧
    (s.flt.fsw.getLsbD b = false → u.nat (oFlt b 5) = 1 ∧ u.nat (oFlt b 3) = syn ∧ u.nat (oFlt b 4) = s.dev.toNat) ∧
    (s.flt.fsw.getLsbD b = true → u.nat (oFlt b 5) = min (s.nat (oFlt b 5) + 1) (2 ^ 32 - 1) ∧
      u.nat (oFlt b 3) = (if onClock s.flt.setT b s.now = true ∧ syn % 2 ^ 24 < s.nat (oFlt b 3) % 2 ^ 24 then syn else s.nat (oFlt b 3)) ∧ u.nat (oFlt b 4) = s.nat (oFlt b 4)) ∧
    u.nat (oFlt b 6) = syn ∧ u.nat (oFlt b 7) = s.dev.toNat ∧ u.mem = s.mem ∧ u.cas = s.cas ∧ u.axes = s.axes

/-- O54. Of the bits 0 to 54 a clear lifts those that its mask names, that are set and whose live condition is absent; an occurrence on the clock of the clear leaves its bit set, with a count of 1 and itself as first and last; every other bit, and bit 55 whatever the mask, stays. FIRST_FAULT becomes 255 where no bit is left and else stays. (R441, R443) -/
def Obligations.FaultClearing : Prop :=
  ∀ (s : State) (m : BitVec 64),
    (∀ b : Nat, (s.clearFaults m).flt.fsw.getLsbD b =
      (s.flt.fsw.getLsbD b && !(decide (b < 55) && m.getLsbD b && !s.liveNow.getLsbD b && !onClock s.flt.lastT b s.now))) ∧
    (∀ b : Nat, b < 55 → m.getLsbD b = true → s.flt.fsw.getLsbD b = true → onClock s.flt.lastT b s.now = true →
      (s.clearFaults m).nat (oFlt b 5) = 1 ∧ (s.clearFaults m).nat (oFlt b 3) = s.nat (oFlt b 6) ∧ (s.clearFaults m).nat (oFlt b 4) = s.nat (oFlt b 7)) ∧
    (s.clearFaults m).nat (ky 0x2200 3) = (if (s.clearFaults m).flt.fsw = 0 then 255 else s.nat (ky 0x2200 3)) ∧
    (s.clearFaults m).flt.live = s.flt.live ∧ (s.clearFaults m).cas = s.cas ∧ (s.clearFaults m).mem = s.mem

/-- O55. An occurrence of bit 28 to 31 with CAUSE 3 takes class 1 DEGRADE whatever class the bit has, and every casement keeps its state; the mode and the axes stay as well. (R433) -/
def Obligations.StuckInputsDegrade : Prop :=
  ∀ (t : Time) (s0 : State) (b : Fin 64) (k dt : Nat),
    let s := s0.tick t
    28 ≤ b.val → b.val ≤ 31 → s.modeN ≠ 0 →
    s.faultTakes b 3 k = (1, none) ∧
      ∃ u, exec (.faultOccurrence t b 3 k dt) s0 = .next u ∧ u.cas = s.cas ∧ u.axes = s.axes ∧ u.modeN = s.modeN ∧
        ∀ c : Nat, c < 48 → u.casState c = s.casState c

/-- O56. Where the DROP flag of a bit is set, an occurrence of the bit leaves SAFE_A and SAFE_B low, whatever class reacts. After reset DROP is set for bit 55 and for no other; a write of the flags of bit 55, over the dictionary or BAR0, leaves its DROP set. (R437) -/
def Obligations.DropFlag : Prop :=
  (∀ (s : State) (b cause k dt : Nat), b ≤ 55 → s.obit (oFlt b 2) 1 = true →
      (s.fault b cause k dt).flt.safeA = false ∧ (s.fault b cause k dt).flt.safeB = false) ∧
  (∀ b : Nat, b < 56 → State.reset.obit (oFlt b 2) 1 = decide (b = 55)) ∧
  (∀ (t : Time) (s0 : State) (p : Path) (b : Bytes), s0.obit (oFlt 55 2) 1 = true →
      ∃ u, exec (.dictionaryWrite t p 0x2247 2 b) s0 = .next u ∧ u.obit (oFlt 55 2) 1 = true) ∧
  (∀ (t : Time) (s0 : State) (v : BitVec 64), s0.obit (oFlt 55 2) 1 = true →
      ∃ u, exec (.registerWrite t 0x307E0 false v) s0 = .next u ∧ u.obit (oFlt 55 2) 1 = true)

/-- O57. A power-on reset and a device reset clear the Fault Status Word, and the syndromes, times and counts of every bit and FIRST_FAULT read as after reset; the beginning of a firmware restart, the image's selection and the end of the restart leave them as they are. Memory of the device is cleared by both resets, flash is not. (R440, R424) -/
def Obligations.WhatClearsTheFaults : Prop :=
  (∀ (t : Time) (s0 : State), ∃ u, exec (.porstLow t) s0 = .next u ∧ u.flt.fsw = 0 ∧ u.nat (ky 0x2200 3) = 255 ∧ u.mem.dram = [] ∧
      u.mem.flash = s0.mem.flash ∧ ∀ b j : Nat, b < 64 → 3 ≤ j → j ≤ 7 → u.nat (oFlt b j) = State.reset.nat (oFlt b j)) ∧
  (∀ (s : State) (cause : Nat), (s.beginReset cause).flt.fsw = 0 ∧ (s.beginReset cause).nat (ky 0x2200 3) = 255 ∧
      (s.beginReset cause).mem.dram = [] ∧ (s.beginReset cause).mem.flash = s.mem.flash ∧
      ∀ b j : Nat, b < 64 → 3 ≤ j → j ≤ 7 → (s.beginReset cause).nat (oFlt b j) = State.reset.nat (oFlt b j)) ∧
  (∀ s : State, s.beginRestart.flt.fsw = s.flt.fsw ∧ s.restartServes.flt.fsw = s.flt.fsw ∧
      ∀ k : Nat, k = ky 0x2200 3 ∨ (∃ b j : Nat, b < 64 ∧ 3 ≤ j ∧ j ≤ 7 ∧ k = oFlt b j) →
        s.beginRestart.nat k = s.nat k ∧ s.restartServes.nat k = s.nat k)

/-- O58. Over a path that serves the dictionary an advance to more than the SEC_VERSION of the running image (0 where none runs) is refused and changes nothing else; an accepted advance to no more than the present count changes nothing but its answer. (R417) -/
def Obligations.SecurityCounter : Prop :=
  (∀ (t : Time) (s0 : State) (p : Path) (v : Nat),
      let s := s0.tick t
      s.serves p = true → (s.otp.image.map Image.sec).getD 0 < v →
      ∃ r, exec (.advanceSecurityCounter t p v) s0 = .next (s.answer (.refused r))) ∧
  (∀ (t : Time) (s0 : State) (p : Path) (v : Nat),
      let s := s0.tick t
      s.serves p = true → s.modeN ≤ 3 → 1 ≤ v → v ≤ 64 → s.securityCheck v = none → v ≤ s.otpSecurity →
      exec (.advanceSecurityCounter t p v) s0 = .next (s.answer .ok))

/-- O59. In incremental mode an edge (not an illegal transition) less than 16 ns after the one before is counted by one in its direction after OVERSPEED has been set, with the fault and the event of a status bit that was clear; a fault of bit 7 leaves the bit set, and a count moves the position by its increment. (R22) -/
def Obligations.CloseEdges : Prop :=
  (∀ (t : Time) (s0 : State) (e : Fin 16) (a b : Bool) (l : Time),
      let s := s0.tick t
      let x := s.encOf e
      let d := (quad a b + 4 - quad x.a x.b) % 4
      let u := (s.setEnc e { x with a := a, b := b, last := some (edgeTime t) }).encFault e 7
      let sg : Int := if d = 1 then 1 else -1
      s.nat (oEnc e 1) = 1 → ¬(x.a = a ∧ x.b = b) → x.last = some l → edgeTime t < l + nsT 16 → d ≠ 2 →
      exec (.encoderEdge t e a b) s0 = .next (u.encCount e (if u.nat (oEnc e 2) = 1 then -sg else sg) (edgeTime t))) ∧
  (∀ (s : State) (e : Fin 16), bit ((s.encFault e 7).encOf e).st 7 = true) ∧
  (∀ (s : State) (e : Fin 16) (d : Int) (ts : Time), (s.encCount e d ts).num (oEnc e 0x0A) = wrapS 64 (s.num (oEnc e 0x0A) + d) ∧
      bit ((s.encCount e d ts).encOf e).st 7 = bit (s.encOf e).st 7)

/-- O60. At its decision point, behind the triggers and closes of the same clock (R14), an unstitched anchor whose nine items all pass becomes an open mark of its casement, with its demand reserved, and the casement's other marks stay; where an item fails no open mark of any casement changes, so that no line of it can fire, and the casement stays in its state. No other casement is touched either way. (That the product of a refused mark is tagged is said by the completion statements.) (R9, R62, R68, R70) -/
def Obligations.AdmissionAllOrNothing : Prop :=
  ∀ (t : Time) (s0 : State) (c : Fin 48) (m : Mark),
    let s := ((s0.tick t).applyChanges t).closesFirst c t
    let m1 := { m with cfg := s.snapshot c s.now, tD := s.now, tdDev := s.dev }
    let m2 := { m1 with reserve := s.demand c m1 }
    let fails := s.items c m2 s.now
    (s.casOf c).pend.find? (fun m => m.vote.isNone) = some m → s.reached c m = true → m.stitch = none →
    ∃ u, exec (.decisionPoint t c) s0 = .next u ∧ (∀ k : Nat, k ≠ c.val → u.casOf k = s.casOf k) ∧
      (fails = 0 → ∃ w : Mark, (u.casOf c).opened = (s.casOf c).opened ++ [w] ∧ w.order = m.order ∧ w.reserve = m2.reserve) ∧
      (fails ≠ 0 → (u.casOf c).opened = (s.casOf c).opened ∧ u.casState c = s.casState c)
end

