-- ==== Sys2Proof/Laws/Tables.lean ====
section
/-! SUPPORT. Sparse tables and memories: a read after a write, and the canonical form that every write keeps. -/

namespace Sys2Proof.Machine

variable {α : Type}

theorem tget_tdel_self (d : Nat → α) (m : Tbl α) (k : Nat) : tget d (tdel m k) k = d k := by
  induction m with
  | nil => rfl
  | cons p m ih =>
    by_cases h : p.1 = k
    · simpa [tdel, h] using ih
    · simpa [tdel, h, tget] using ih

theorem tget_tdel_ne (d : Nat → α) (m : Tbl α) {k j : Nat} (h : j ≠ k) : tget d (tdel m k) j = tget d m j := by
  induction m with
  | nil => rfl
  | cons p m ih =>
    by_cases hp : p.1 = k
    · have : p.1 ≠ j := fun e => h (e ▸ hp)
      simpa [tdel, hp, tget, this, Ne.symm h] using ih
    · by_cases hj : p.1 = j
      · subst hj; simp [tdel, hp, tget]
      · simpa [tdel, hp, tget, hj] using ih

theorem tget_tinsert_ne (d : Nat → α) (m : Tbl α) {k j : Nat} (v : α) (h : j ≠ k) :
    tget d (tinsert m k v) j = tget d m j := by
  induction m with
  | nil => simp [tinsert, tget, Ne.symm h]
  | cons p m ih =>
    by_cases hk : k < p.1
    · simp [tinsert, hk, tget, Ne.symm h]
    · have : tinsert (p :: m) k v = p :: tinsert m k v := by simp [tinsert, hk]
      rw [this]
      by_cases hj : p.1 = j
      · simp [tget, hj]
      · simpa [tget, hj] using ih

theorem tget_tinsert_self (d : Nat → α) (m : Tbl α) (k : Nat) (v : α) (h : ∀ p ∈ m, p.1 ≠ k) :
    tget d (tinsert m k v) k = v := by
  induction m with
  | nil => simp [tinsert, tget]
  | cons p m ih =>
    have hp : p.1 ≠ k := h p (by simp)
    by_cases hk : k < p.1
    · simp [tinsert, hk, tget]
    · simpa [tinsert, hk, tget, hp] using ih (fun q hq => h q (by simp [hq]))

theorem ne_of_mem_tdel {m : Tbl α} {k : Nat} {p : Nat × α} (h : p ∈ tdel m k) : p.1 ≠ k := by
  have := (List.mem_filter.mp h).2
  simpa using this

variable [DecidableEq α]

/-- A read after a write of a table. -/
theorem tget_tset (d : Nat → α) (m : Tbl α) (k : Nat) (v : α) (j : Nat) :
    tget d (tset d m k v) j = if j = k then v else tget d m j := by
  unfold tset
  by_cases hv : v = d k <;> by_cases hj : j = k
  · subst hj; simp [hv, tget_tdel_self]
  · simp [hv, hj, tget_tdel_ne d m hj]
  · subst hj
    simp only [hv, if_false, if_true]
    exact tget_tinsert_self d _ _ v (fun p hp => ne_of_mem_tdel hp)
  · simp [hv, hj, tget_tinsert_ne d _ v hj, tget_tdel_ne d m hj]

@[simp] theorem tget_tset_self (d : Nat → α) (m : Tbl α) (k : Nat) (v : α) : tget d (tset d m k v) k = v := by
  simp [tget_tset]

theorem tget_tset_ne (d : Nat → α) (m : Tbl α) {k j : Nat} (v : α) (h : j ≠ k) : tget d (tset d m k v) j = tget d m j := by
  simp [tget_tset, h]

/-- The canonical form, as propositions. -/
theorem twf_cons (d : Nat → α) (p : Nat × α) (m : Tbl α) :
    twf d (p :: m) = true ↔ (∀ q ∈ m, p.1 < q.1) ∧ p.2 ≠ d p.1 ∧ twf d m = true := by
  obtain ⟨i, v⟩ := p
  simp [twf, Bool.and_eq_true, List.all_eq_true, and_assoc]

theorem twf_tdel (d : Nat → α) (m : Tbl α) (k : Nat) (h : twf d m = true) : twf d (tdel m k) = true := by
  induction m with
  | nil => rfl
  | cons p m ih =>
    obtain ⟨h1, h2, h3⟩ := (twf_cons d p m).mp h
    by_cases hp : p.1 = k
    · simpa [tdel, hp] using ih h3
    · have : tdel (p :: m) k = p :: tdel m k := by simp [tdel, hp]
      rw [this, twf_cons]
      exact ⟨fun q hq => h1 q (List.mem_of_mem_filter hq), h2, ih h3⟩

omit [DecidableEq α] in
theorem mem_tinsert {m : Tbl α} {k : Nat} {v : α} {p : Nat × α} (h : p ∈ tinsert m k v) : p = (k, v) ∨ p ∈ m := by
  induction m with
  | nil => simpa [tinsert] using h
  | cons q m ih =>
    by_cases hk : k < q.1
    · simpa [tinsert, hk] using h
    · rcases (by simpa [tinsert, hk] using h : p = q ∨ p ∈ tinsert m k v) with h | h
      · exact .inr (by simp [h])
      · rcases ih h with h | h
        · exact .inl h
        · exact .inr (by simp [h])

theorem twf_tinsert (d : Nat → α) (m : Tbl α) (k : Nat) (v : α) (h : twf d m = true) (hk : ∀ p ∈ m, p.1 ≠ k)
    (hv : v ≠ d k) : twf d (tinsert m k v) = true := by
  induction m with
  | nil => simp [tinsert, twf, hv]
  | cons p m ih =>
    obtain ⟨h1, h2, h3⟩ := (twf_cons d p m).mp h
    by_cases hlt : k < p.1
    · have : tinsert (p :: m) k v = (k, v) :: p :: m := by simp [tinsert, hlt]
      rw [this, twf_cons]
      refine ⟨fun q hq => ?_, hv, h⟩
      rcases List.mem_cons.mp hq with rfl | hq
      · exact hlt
      · exact hlt.trans (h1 q hq)
    · have : tinsert (p :: m) k v = p :: tinsert m k v := by simp [tinsert, hlt]
      rw [this, twf_cons]
      have hne : p.1 ≠ k := hk p (by simp)
      refine ⟨fun q hq => ?_, h2, ih h3 (fun q hq => hk q (by simp [hq]))⟩
      rcases mem_tinsert hq with rfl | hq
      · exact lt_of_le_of_ne (not_lt.mp hlt) hne
      · exact h1 q hq

/-- A write of a table keeps the canonical form. -/
theorem twf_tset (d : Nat → α) (m : Tbl α) (k : Nat) (v : α) (h : twf d m = true) : twf d (tset d m k v) = true := by
  unfold tset
  by_cases hv : v = d k
  · simpa [hv] using twf_tdel d m k h
  · simpa [hv] using twf_tinsert d _ k v (twf_tdel d m k h) (fun p hp => ne_of_mem_tdel hp) hv

/-- Dropping entries keeps the canonical form. -/
theorem twf_filter (d : Nat → α) (f : Nat × α → Bool) (m : Tbl α) (h : twf d m = true) : twf d (m.filter f) = true := by
  induction m with
  | nil => rfl
  | cons p m ih =>
    obtain ⟨h1, h2, h3⟩ := (twf_cons d p m).mp h
    by_cases hf : f p
    · rw [List.filter_cons_of_pos hf, twf_cons]
      exact ⟨fun q hq => h1 q (List.mem_of_mem_filter hq), h2, ih h3⟩
    · rw [List.filter_cons_of_neg hf]
      exact ih h3

/-- Writing bytes keeps the canonical form. -/
theorem twf_writeCells (d : Nat → Byte) (m : List Host.Cell) (a : Nat) (b : Bytes) (h : twf d m = true) :
    twf d (writeCells d m a b) = true := by
  induction b generalizing m a with
  | nil => exact h
  | cons x b ih => exact ih _ _ (twf_tset d m a x h)

/-- One byte read after bytes were written: outside the written bytes it is the old one. -/
theorem tget_writeCells (d : Nat → Byte) (m : List Host.Cell) (a : Nat) (b : Bytes) (x : Nat) :
    tget d (writeCells d m a b) x = if a ≤ x ∧ x < a + b.length then b.getD (x - a) 0 else tget d m x := by
  induction b generalizing m a with
  | nil =>
    have : ¬(a ≤ x ∧ x < a + ([] : Bytes).length) := by simp
    rw [if_neg this]; rfl
  | cons y b ih =>
    rw [writeCells, ih, tget_tset]
    by_cases h1 : x = a
    · subst h1; simp
    · by_cases h2 : a + 1 ≤ x ∧ x < a + 1 + b.length
      · obtain ⟨k, hk⟩ : ∃ k, x - a = k + 1 := ⟨x - a - 1, by omega⟩
        have h3 : x - (a + 1) = k := by omega
        have h4 : a ≤ x ∧ x < a + (y :: b).length := by rw [List.length_cons]; omega
        rw [if_pos h2, if_pos h4, hk, h3]
        simp
      · have h4 : ¬(a ≤ x ∧ x < a + (y :: b).length) := by rw [List.length_cons]; omega
        rw [if_neg h2, if_neg h4, if_neg h1]

/-- Bytes read back one by one. -/
theorem readCells_length (d : Nat → Byte) (m : List Host.Cell) (a n : Nat) : (readCells d m a n).length = n := by
  induction n generalizing a with
  | zero => rfl
  | succ n ih => simp [readCells, ih]

end Sys2Proof.Machine
end

