-- ==== Sys2Proof/Laws/State.lean ====
section
/-! SUPPORT. What the named updates of State leave alone, field by field and reader by reader, and what they set. -/

namespace Sys2Proof.Machine

/-- An event changes the host interface alone. -/
theorem State.eventAt_host_only (s : State) (d : Int) (src cause inst : Nat) (data : Bytes) :
    ∃ h, s.eventAt d src cause inst data = { s with host := h } := by
  simp only [State.eventAt]
  split <;> exact ⟨_, rfl⟩

theorem State.event_host_only (s : State) (src cause inst : Nat) (data : Bytes) :
    ∃ h, s.event src cause inst data = { s with host := h } := s.eventAt_host_only _ src cause inst data

@[simp] theorem State.tick_pending (s : State) (t : Time) : (s.tick t).pending = s.pending := rfl
@[simp] theorem State.tick_freeIx (s : State) (t : Time) : (s.tick t).freeIx = s.freeIx := rfl
@[simp] theorem State.tick_out (s : State) (t : Time) : (s.tick t).out = s.out := rfl
@[simp] theorem State.tick_resp (s : State) (t : Time) : (s.tick t).resp = s.resp := rfl
@[simp] theorem State.tick_obj (s : State) (t : Time) : (s.tick t).obj = s.obj := rfl
@[simp] theorem State.tick_force (s : State) (t : Time) : (s.tick t).force = s.force := rfl
@[simp] theorem State.tick_waits (s : State) (t : Time) : (s.tick t).waits = s.waits := rfl
@[simp] theorem State.tick_enc (s : State) (t : Time) : (s.tick t).enc = s.enc := rfl
@[simp] theorem State.tick_lax (s : State) (t : Time) : (s.tick t).lax = s.lax := rfl
@[simp] theorem State.tick_gin (s : State) (t : Time) : (s.tick t).gin = s.gin := rfl
@[simp] theorem State.tick_pls (s : State) (t : Time) : (s.tick t).pls = s.pls := rfl
@[simp] theorem State.tick_snap (s : State) (t : Time) : (s.tick t).snap = s.snap := rfl
@[simp] theorem State.tick_tal (s : State) (t : Time) : (s.tick t).tal = s.tal := rfl
@[simp] theorem State.tick_axes (s : State) (t : Time) : (s.tick t).axes = s.axes := rfl
@[simp] theorem State.tick_loops (s : State) (t : Time) : (s.tick t).loops = s.loops := rfl
@[simp] theorem State.tick_segs (s : State) (t : Time) : (s.tick t).segs = s.segs := rfl
@[simp] theorem State.tick_host (s : State) (t : Time) : (s.tick t).host = s.host := rfl
@[simp] theorem State.tick_mem (s : State) (t : Time) : (s.tick t).mem = s.mem := rfl
@[simp] theorem State.tick_net (s : State) (t : Time) : (s.tick t).net = s.net := rfl
@[simp] theorem State.tick_store (s : State) (t : Time) : (s.tick t).store = s.store := rfl
@[simp] theorem State.tick_fab (s : State) (t : Time) : (s.tick t).fab = s.fab := rfl
@[simp] theorem State.tick_lamp (s : State) (t : Time) : (s.tick t).lamp = s.lamp := rfl
@[simp] theorem State.tick_mode (s : State) (t : Time) : (s.tick t).mode = s.mode := rfl
@[simp] theorem State.tick_flt (s : State) (t : Time) : (s.tick t).flt = s.flt := rfl
@[simp] theorem State.tick_cas (s : State) (t : Time) : (s.tick t).cas = s.cas := rfl
@[simp] theorem State.tick_rej (s : State) (t : Time) : (s.tick t).rej = s.rej := rfl
@[simp] theorem State.tick_vdda (s : State) (t : Time) : (s.tick t).vdda = s.vdda := rfl
@[simp] theorem State.tick_adc (s : State) (t : Time) : (s.tick t).adc = s.adc := rfl
@[simp] theorem State.tick_comp (s : State) (t : Time) : (s.tick t).comp = s.comp := rfl
@[simp] theorem State.tick_notary (s : State) (t : Time) : (s.tick t).notary = s.notary := rfl
@[simp] theorem State.tick_otp (s : State) (t : Time) : (s.tick t).otp = s.otp := rfl
@[simp] theorem State.tick_led (s : State) (t : Time) : (s.tick t).led = s.led := rfl
@[simp] theorem State.tick_ledScrub (s : State) (t : Time) : (s.tick t).ledScrub = s.ledScrub := rfl
@[simp] theorem State.tick_ledScrubT (s : State) (t : Time) : (s.tick t).ledScrubT = s.ledScrubT := rfl

@[simp] theorem State.answer_pending (s : State) (r : Resp) : (s.answer r).pending = s.pending := rfl
@[simp] theorem State.answer_freeIx (s : State) (r : Resp) : (s.answer r).freeIx = s.freeIx := rfl
@[simp] theorem State.answer_out (s : State) (r : Resp) : (s.answer r).out = s.out := rfl
@[simp] theorem State.answer_clk (s : State) (r : Resp) : (s.answer r).clk = s.clk := rfl
@[simp] theorem State.answer_obj (s : State) (r : Resp) : (s.answer r).obj = s.obj := rfl
@[simp] theorem State.answer_force (s : State) (r : Resp) : (s.answer r).force = s.force := rfl
@[simp] theorem State.answer_waits (s : State) (r : Resp) : (s.answer r).waits = s.waits := rfl
@[simp] theorem State.answer_enc (s : State) (r : Resp) : (s.answer r).enc = s.enc := rfl
@[simp] theorem State.answer_lax (s : State) (r : Resp) : (s.answer r).lax = s.lax := rfl
@[simp] theorem State.answer_gin (s : State) (r : Resp) : (s.answer r).gin = s.gin := rfl
@[simp] theorem State.answer_pls (s : State) (r : Resp) : (s.answer r).pls = s.pls := rfl
@[simp] theorem State.answer_snap (s : State) (r : Resp) : (s.answer r).snap = s.snap := rfl
@[simp] theorem State.answer_tal (s : State) (r : Resp) : (s.answer r).tal = s.tal := rfl
@[simp] theorem State.answer_axes (s : State) (r : Resp) : (s.answer r).axes = s.axes := rfl
@[simp] theorem State.answer_loops (s : State) (r : Resp) : (s.answer r).loops = s.loops := rfl
@[simp] theorem State.answer_segs (s : State) (r : Resp) : (s.answer r).segs = s.segs := rfl
@[simp] theorem State.answer_host (s : State) (r : Resp) : (s.answer r).host = s.host := rfl
@[simp] theorem State.answer_mem (s : State) (r : Resp) : (s.answer r).mem = s.mem := rfl
@[simp] theorem State.answer_net (s : State) (r : Resp) : (s.answer r).net = s.net := rfl
@[simp] theorem State.answer_store (s : State) (r : Resp) : (s.answer r).store = s.store := rfl
@[simp] theorem State.answer_fab (s : State) (r : Resp) : (s.answer r).fab = s.fab := rfl
@[simp] theorem State.answer_lamp (s : State) (r : Resp) : (s.answer r).lamp = s.lamp := rfl
@[simp] theorem State.answer_mode (s : State) (r : Resp) : (s.answer r).mode = s.mode := rfl
@[simp] theorem State.answer_flt (s : State) (r : Resp) : (s.answer r).flt = s.flt := rfl
@[simp] theorem State.answer_cas (s : State) (r : Resp) : (s.answer r).cas = s.cas := rfl
@[simp] theorem State.answer_rej (s : State) (r : Resp) : (s.answer r).rej = s.rej := rfl
@[simp] theorem State.answer_vdda (s : State) (r : Resp) : (s.answer r).vdda = s.vdda := rfl
@[simp] theorem State.answer_adc (s : State) (r : Resp) : (s.answer r).adc = s.adc := rfl
@[simp] theorem State.answer_comp (s : State) (r : Resp) : (s.answer r).comp = s.comp := rfl
@[simp] theorem State.answer_notary (s : State) (r : Resp) : (s.answer r).notary = s.notary := rfl
@[simp] theorem State.answer_otp (s : State) (r : Resp) : (s.answer r).otp = s.otp := rfl
@[simp] theorem State.answer_led (s : State) (r : Resp) : (s.answer r).led = s.led := rfl
@[simp] theorem State.answer_ledScrub (s : State) (r : Resp) : (s.answer r).ledScrub = s.ledScrub := rfl
@[simp] theorem State.answer_ledScrubT (s : State) (r : Resp) : (s.answer r).ledScrubT = s.ledScrubT := rfl

@[simp] theorem State.send_pending (s : State) (o : Out) : (s.send o).pending = s.pending := rfl
@[simp] theorem State.send_freeIx (s : State) (o : Out) : (s.send o).freeIx = s.freeIx := rfl
@[simp] theorem State.send_resp (s : State) (o : Out) : (s.send o).resp = s.resp := rfl
@[simp] theorem State.send_clk (s : State) (o : Out) : (s.send o).clk = s.clk := rfl
@[simp] theorem State.send_obj (s : State) (o : Out) : (s.send o).obj = s.obj := rfl
@[simp] theorem State.send_force (s : State) (o : Out) : (s.send o).force = s.force := rfl
@[simp] theorem State.send_waits (s : State) (o : Out) : (s.send o).waits = s.waits := rfl
@[simp] theorem State.send_enc (s : State) (o : Out) : (s.send o).enc = s.enc := rfl
@[simp] theorem State.send_lax (s : State) (o : Out) : (s.send o).lax = s.lax := rfl
@[simp] theorem State.send_gin (s : State) (o : Out) : (s.send o).gin = s.gin := rfl
@[simp] theorem State.send_pls (s : State) (o : Out) : (s.send o).pls = s.pls := rfl
@[simp] theorem State.send_snap (s : State) (o : Out) : (s.send o).snap = s.snap := rfl
@[simp] theorem State.send_tal (s : State) (o : Out) : (s.send o).tal = s.tal := rfl
@[simp] theorem State.send_axes (s : State) (o : Out) : (s.send o).axes = s.axes := rfl
@[simp] theorem State.send_loops (s : State) (o : Out) : (s.send o).loops = s.loops := rfl
@[simp] theorem State.send_segs (s : State) (o : Out) : (s.send o).segs = s.segs := rfl
@[simp] theorem State.send_host (s : State) (o : Out) : (s.send o).host = s.host := rfl
@[simp] theorem State.send_mem (s : State) (o : Out) : (s.send o).mem = s.mem := rfl
@[simp] theorem State.send_net (s : State) (o : Out) : (s.send o).net = s.net := rfl
@[simp] theorem State.send_store (s : State) (o : Out) : (s.send o).store = s.store := rfl
@[simp] theorem State.send_fab (s : State) (o : Out) : (s.send o).fab = s.fab := rfl
@[simp] theorem State.send_lamp (s : State) (o : Out) : (s.send o).lamp = s.lamp := rfl
@[simp] theorem State.send_mode (s : State) (o : Out) : (s.send o).mode = s.mode := rfl
@[simp] theorem State.send_flt (s : State) (o : Out) : (s.send o).flt = s.flt := rfl
@[simp] theorem State.send_cas (s : State) (o : Out) : (s.send o).cas = s.cas := rfl
@[simp] theorem State.send_rej (s : State) (o : Out) : (s.send o).rej = s.rej := rfl
@[simp] theorem State.send_vdda (s : State) (o : Out) : (s.send o).vdda = s.vdda := rfl
@[simp] theorem State.send_adc (s : State) (o : Out) : (s.send o).adc = s.adc := rfl
@[simp] theorem State.send_comp (s : State) (o : Out) : (s.send o).comp = s.comp := rfl
@[simp] theorem State.send_notary (s : State) (o : Out) : (s.send o).notary = s.notary := rfl
@[simp] theorem State.send_otp (s : State) (o : Out) : (s.send o).otp = s.otp := rfl
@[simp] theorem State.send_led (s : State) (o : Out) : (s.send o).led = s.led := rfl
@[simp] theorem State.send_ledScrub (s : State) (o : Out) : (s.send o).ledScrub = s.ledScrub := rfl
@[simp] theorem State.send_ledScrubT (s : State) (o : Out) : (s.send o).ledScrubT = s.ledScrubT := rfl

@[simp] theorem State.setEnc_pending (s : State) (e : Nat) (v : Enc) : (s.setEnc e v).pending = s.pending := rfl
@[simp] theorem State.setEnc_freeIx (s : State) (e : Nat) (v : Enc) : (s.setEnc e v).freeIx = s.freeIx := rfl
@[simp] theorem State.setEnc_out (s : State) (e : Nat) (v : Enc) : (s.setEnc e v).out = s.out := rfl
@[simp] theorem State.setEnc_resp (s : State) (e : Nat) (v : Enc) : (s.setEnc e v).resp = s.resp := rfl
@[simp] theorem State.setEnc_clk (s : State) (e : Nat) (v : Enc) : (s.setEnc e v).clk = s.clk := rfl
@[simp] theorem State.setEnc_obj (s : State) (e : Nat) (v : Enc) : (s.setEnc e v).obj = s.obj := rfl
@[simp] theorem State.setEnc_force (s : State) (e : Nat) (v : Enc) : (s.setEnc e v).force = s.force := rfl
@[simp] theorem State.setEnc_waits (s : State) (e : Nat) (v : Enc) : (s.setEnc e v).waits = s.waits := rfl
@[simp] theorem State.setEnc_lax (s : State) (e : Nat) (v : Enc) : (s.setEnc e v).lax = s.lax := rfl
@[simp] theorem State.setEnc_gin (s : State) (e : Nat) (v : Enc) : (s.setEnc e v).gin = s.gin := rfl
@[simp] theorem State.setEnc_pls (s : State) (e : Nat) (v : Enc) : (s.setEnc e v).pls = s.pls := rfl
@[simp] theorem State.setEnc_snap (s : State) (e : Nat) (v : Enc) : (s.setEnc e v).snap = s.snap := rfl
@[simp] theorem State.setEnc_tal (s : State) (e : Nat) (v : Enc) : (s.setEnc e v).tal = s.tal := rfl
@[simp] theorem State.setEnc_axes (s : State) (e : Nat) (v : Enc) : (s.setEnc e v).axes = s.axes := rfl
@[simp] theorem State.setEnc_loops (s : State) (e : Nat) (v : Enc) : (s.setEnc e v).loops = s.loops := rfl
@[simp] theorem State.setEnc_segs (s : State) (e : Nat) (v : Enc) : (s.setEnc e v).segs = s.segs := rfl
@[simp] theorem State.setEnc_host (s : State) (e : Nat) (v : Enc) : (s.setEnc e v).host = s.host := rfl
@[simp] theorem State.setEnc_mem (s : State) (e : Nat) (v : Enc) : (s.setEnc e v).mem = s.mem := rfl
@[simp] theorem State.setEnc_net (s : State) (e : Nat) (v : Enc) : (s.setEnc e v).net = s.net := rfl
@[simp] theorem State.setEnc_store (s : State) (e : Nat) (v : Enc) : (s.setEnc e v).store = s.store := rfl
@[simp] theorem State.setEnc_fab (s : State) (e : Nat) (v : Enc) : (s.setEnc e v).fab = s.fab := rfl
@[simp] theorem State.setEnc_lamp (s : State) (e : Nat) (v : Enc) : (s.setEnc e v).lamp = s.lamp := rfl
@[simp] theorem State.setEnc_mode (s : State) (e : Nat) (v : Enc) : (s.setEnc e v).mode = s.mode := rfl
@[simp] theorem State.setEnc_flt (s : State) (e : Nat) (v : Enc) : (s.setEnc e v).flt = s.flt := rfl
@[simp] theorem State.setEnc_cas (s : State) (e : Nat) (v : Enc) : (s.setEnc e v).cas = s.cas := rfl
@[simp] theorem State.setEnc_rej (s : State) (e : Nat) (v : Enc) : (s.setEnc e v).rej = s.rej := rfl
@[simp] theorem State.setEnc_vdda (s : State) (e : Nat) (v : Enc) : (s.setEnc e v).vdda = s.vdda := rfl
@[simp] theorem State.setEnc_adc (s : State) (e : Nat) (v : Enc) : (s.setEnc e v).adc = s.adc := rfl
@[simp] theorem State.setEnc_comp (s : State) (e : Nat) (v : Enc) : (s.setEnc e v).comp = s.comp := rfl
@[simp] theorem State.setEnc_notary (s : State) (e : Nat) (v : Enc) : (s.setEnc e v).notary = s.notary := rfl
@[simp] theorem State.setEnc_otp (s : State) (e : Nat) (v : Enc) : (s.setEnc e v).otp = s.otp := rfl
@[simp] theorem State.setEnc_led (s : State) (e : Nat) (v : Enc) : (s.setEnc e v).led = s.led := rfl
@[simp] theorem State.setEnc_ledScrub (s : State) (e : Nat) (v : Enc) : (s.setEnc e v).ledScrub = s.ledScrub := rfl
@[simp] theorem State.setEnc_ledScrubT (s : State) (e : Nat) (v : Enc) : (s.setEnc e v).ledScrubT = s.ledScrubT := rfl

@[simp] theorem State.setLax_pending (s : State) (k : Nat) (v : Lax) : (s.setLax k v).pending = s.pending := rfl
@[simp] theorem State.setLax_freeIx (s : State) (k : Nat) (v : Lax) : (s.setLax k v).freeIx = s.freeIx := rfl
@[simp] theorem State.setLax_out (s : State) (k : Nat) (v : Lax) : (s.setLax k v).out = s.out := rfl
@[simp] theorem State.setLax_resp (s : State) (k : Nat) (v : Lax) : (s.setLax k v).resp = s.resp := rfl
@[simp] theorem State.setLax_clk (s : State) (k : Nat) (v : Lax) : (s.setLax k v).clk = s.clk := rfl
@[simp] theorem State.setLax_obj (s : State) (k : Nat) (v : Lax) : (s.setLax k v).obj = s.obj := rfl
@[simp] theorem State.setLax_force (s : State) (k : Nat) (v : Lax) : (s.setLax k v).force = s.force := rfl
@[simp] theorem State.setLax_waits (s : State) (k : Nat) (v : Lax) : (s.setLax k v).waits = s.waits := rfl
@[simp] theorem State.setLax_enc (s : State) (k : Nat) (v : Lax) : (s.setLax k v).enc = s.enc := rfl
@[simp] theorem State.setLax_gin (s : State) (k : Nat) (v : Lax) : (s.setLax k v).gin = s.gin := rfl
@[simp] theorem State.setLax_pls (s : State) (k : Nat) (v : Lax) : (s.setLax k v).pls = s.pls := rfl
@[simp] theorem State.setLax_snap (s : State) (k : Nat) (v : Lax) : (s.setLax k v).snap = s.snap := rfl
@[simp] theorem State.setLax_tal (s : State) (k : Nat) (v : Lax) : (s.setLax k v).tal = s.tal := rfl
@[simp] theorem State.setLax_axes (s : State) (k : Nat) (v : Lax) : (s.setLax k v).axes = s.axes := rfl
@[simp] theorem State.setLax_loops (s : State) (k : Nat) (v : Lax) : (s.setLax k v).loops = s.loops := rfl
@[simp] theorem State.setLax_segs (s : State) (k : Nat) (v : Lax) : (s.setLax k v).segs = s.segs := rfl
@[simp] theorem State.setLax_host (s : State) (k : Nat) (v : Lax) : (s.setLax k v).host = s.host := rfl
@[simp] theorem State.setLax_mem (s : State) (k : Nat) (v : Lax) : (s.setLax k v).mem = s.mem := rfl
@[simp] theorem State.setLax_net (s : State) (k : Nat) (v : Lax) : (s.setLax k v).net = s.net := rfl
@[simp] theorem State.setLax_store (s : State) (k : Nat) (v : Lax) : (s.setLax k v).store = s.store := rfl
@[simp] theorem State.setLax_fab (s : State) (k : Nat) (v : Lax) : (s.setLax k v).fab = s.fab := rfl
@[simp] theorem State.setLax_lamp (s : State) (k : Nat) (v : Lax) : (s.setLax k v).lamp = s.lamp := rfl
@[simp] theorem State.setLax_mode (s : State) (k : Nat) (v : Lax) : (s.setLax k v).mode = s.mode := rfl
@[simp] theorem State.setLax_flt (s : State) (k : Nat) (v : Lax) : (s.setLax k v).flt = s.flt := rfl
@[simp] theorem State.setLax_cas (s : State) (k : Nat) (v : Lax) : (s.setLax k v).cas = s.cas := rfl
@[simp] theorem State.setLax_rej (s : State) (k : Nat) (v : Lax) : (s.setLax k v).rej = s.rej := rfl
@[simp] theorem State.setLax_vdda (s : State) (k : Nat) (v : Lax) : (s.setLax k v).vdda = s.vdda := rfl
@[simp] theorem State.setLax_adc (s : State) (k : Nat) (v : Lax) : (s.setLax k v).adc = s.adc := rfl
@[simp] theorem State.setLax_comp (s : State) (k : Nat) (v : Lax) : (s.setLax k v).comp = s.comp := rfl
@[simp] theorem State.setLax_notary (s : State) (k : Nat) (v : Lax) : (s.setLax k v).notary = s.notary := rfl
@[simp] theorem State.setLax_otp (s : State) (k : Nat) (v : Lax) : (s.setLax k v).otp = s.otp := rfl
@[simp] theorem State.setLax_led (s : State) (k : Nat) (v : Lax) : (s.setLax k v).led = s.led := rfl
@[simp] theorem State.setLax_ledScrub (s : State) (k : Nat) (v : Lax) : (s.setLax k v).ledScrub = s.ledScrub := rfl
@[simp] theorem State.setLax_ledScrubT (s : State) (k : Nat) (v : Lax) : (s.setLax k v).ledScrubT = s.ledScrubT := rfl

@[simp] theorem State.setGin_pending (s : State) (n : Nat) (v : Gin) : (s.setGin n v).pending = s.pending := rfl
@[simp] theorem State.setGin_freeIx (s : State) (n : Nat) (v : Gin) : (s.setGin n v).freeIx = s.freeIx := rfl
@[simp] theorem State.setGin_out (s : State) (n : Nat) (v : Gin) : (s.setGin n v).out = s.out := rfl
@[simp] theorem State.setGin_resp (s : State) (n : Nat) (v : Gin) : (s.setGin n v).resp = s.resp := rfl
@[simp] theorem State.setGin_clk (s : State) (n : Nat) (v : Gin) : (s.setGin n v).clk = s.clk := rfl
@[simp] theorem State.setGin_obj (s : State) (n : Nat) (v : Gin) : (s.setGin n v).obj = s.obj := rfl
@[simp] theorem State.setGin_force (s : State) (n : Nat) (v : Gin) : (s.setGin n v).force = s.force := rfl
@[simp] theorem State.setGin_waits (s : State) (n : Nat) (v : Gin) : (s.setGin n v).waits = s.waits := rfl
@[simp] theorem State.setGin_enc (s : State) (n : Nat) (v : Gin) : (s.setGin n v).enc = s.enc := rfl
@[simp] theorem State.setGin_lax (s : State) (n : Nat) (v : Gin) : (s.setGin n v).lax = s.lax := rfl
@[simp] theorem State.setGin_pls (s : State) (n : Nat) (v : Gin) : (s.setGin n v).pls = s.pls := rfl
@[simp] theorem State.setGin_snap (s : State) (n : Nat) (v : Gin) : (s.setGin n v).snap = s.snap := rfl
@[simp] theorem State.setGin_tal (s : State) (n : Nat) (v : Gin) : (s.setGin n v).tal = s.tal := rfl
@[simp] theorem State.setGin_axes (s : State) (n : Nat) (v : Gin) : (s.setGin n v).axes = s.axes := rfl
@[simp] theorem State.setGin_loops (s : State) (n : Nat) (v : Gin) : (s.setGin n v).loops = s.loops := rfl
@[simp] theorem State.setGin_segs (s : State) (n : Nat) (v : Gin) : (s.setGin n v).segs = s.segs := rfl
@[simp] theorem State.setGin_host (s : State) (n : Nat) (v : Gin) : (s.setGin n v).host = s.host := rfl
@[simp] theorem State.setGin_mem (s : State) (n : Nat) (v : Gin) : (s.setGin n v).mem = s.mem := rfl
@[simp] theorem State.setGin_net (s : State) (n : Nat) (v : Gin) : (s.setGin n v).net = s.net := rfl
@[simp] theorem State.setGin_store (s : State) (n : Nat) (v : Gin) : (s.setGin n v).store = s.store := rfl
@[simp] theorem State.setGin_fab (s : State) (n : Nat) (v : Gin) : (s.setGin n v).fab = s.fab := rfl
@[simp] theorem State.setGin_lamp (s : State) (n : Nat) (v : Gin) : (s.setGin n v).lamp = s.lamp := rfl
@[simp] theorem State.setGin_mode (s : State) (n : Nat) (v : Gin) : (s.setGin n v).mode = s.mode := rfl
@[simp] theorem State.setGin_flt (s : State) (n : Nat) (v : Gin) : (s.setGin n v).flt = s.flt := rfl
@[simp] theorem State.setGin_cas (s : State) (n : Nat) (v : Gin) : (s.setGin n v).cas = s.cas := rfl
@[simp] theorem State.setGin_rej (s : State) (n : Nat) (v : Gin) : (s.setGin n v).rej = s.rej := rfl
@[simp] theorem State.setGin_vdda (s : State) (n : Nat) (v : Gin) : (s.setGin n v).vdda = s.vdda := rfl
@[simp] theorem State.setGin_adc (s : State) (n : Nat) (v : Gin) : (s.setGin n v).adc = s.adc := rfl
@[simp] theorem State.setGin_comp (s : State) (n : Nat) (v : Gin) : (s.setGin n v).comp = s.comp := rfl
@[simp] theorem State.setGin_notary (s : State) (n : Nat) (v : Gin) : (s.setGin n v).notary = s.notary := rfl
@[simp] theorem State.setGin_otp (s : State) (n : Nat) (v : Gin) : (s.setGin n v).otp = s.otp := rfl
@[simp] theorem State.setGin_led (s : State) (n : Nat) (v : Gin) : (s.setGin n v).led = s.led := rfl
@[simp] theorem State.setGin_ledScrub (s : State) (n : Nat) (v : Gin) : (s.setGin n v).ledScrub = s.ledScrub := rfl
@[simp] theorem State.setGin_ledScrubT (s : State) (n : Nat) (v : Gin) : (s.setGin n v).ledScrubT = s.ledScrubT := rfl

@[simp] theorem State.setPls_pending (s : State) (n : Nat) (v : Pls) : (s.setPls n v).pending = s.pending := rfl
@[simp] theorem State.setPls_freeIx (s : State) (n : Nat) (v : Pls) : (s.setPls n v).freeIx = s.freeIx := rfl
@[simp] theorem State.setPls_out (s : State) (n : Nat) (v : Pls) : (s.setPls n v).out = s.out := rfl
@[simp] theorem State.setPls_resp (s : State) (n : Nat) (v : Pls) : (s.setPls n v).resp = s.resp := rfl
@[simp] theorem State.setPls_clk (s : State) (n : Nat) (v : Pls) : (s.setPls n v).clk = s.clk := rfl
@[simp] theorem State.setPls_obj (s : State) (n : Nat) (v : Pls) : (s.setPls n v).obj = s.obj := rfl
@[simp] theorem State.setPls_force (s : State) (n : Nat) (v : Pls) : (s.setPls n v).force = s.force := rfl
@[simp] theorem State.setPls_waits (s : State) (n : Nat) (v : Pls) : (s.setPls n v).waits = s.waits := rfl
@[simp] theorem State.setPls_enc (s : State) (n : Nat) (v : Pls) : (s.setPls n v).enc = s.enc := rfl
@[simp] theorem State.setPls_lax (s : State) (n : Nat) (v : Pls) : (s.setPls n v).lax = s.lax := rfl
@[simp] theorem State.setPls_gin (s : State) (n : Nat) (v : Pls) : (s.setPls n v).gin = s.gin := rfl
@[simp] theorem State.setPls_snap (s : State) (n : Nat) (v : Pls) : (s.setPls n v).snap = s.snap := rfl
@[simp] theorem State.setPls_tal (s : State) (n : Nat) (v : Pls) : (s.setPls n v).tal = s.tal := rfl
@[simp] theorem State.setPls_axes (s : State) (n : Nat) (v : Pls) : (s.setPls n v).axes = s.axes := rfl
@[simp] theorem State.setPls_loops (s : State) (n : Nat) (v : Pls) : (s.setPls n v).loops = s.loops := rfl
@[simp] theorem State.setPls_segs (s : State) (n : Nat) (v : Pls) : (s.setPls n v).segs = s.segs := rfl
@[simp] theorem State.setPls_host (s : State) (n : Nat) (v : Pls) : (s.setPls n v).host = s.host := rfl
@[simp] theorem State.setPls_mem (s : State) (n : Nat) (v : Pls) : (s.setPls n v).mem = s.mem := rfl
@[simp] theorem State.setPls_net (s : State) (n : Nat) (v : Pls) : (s.setPls n v).net = s.net := rfl
@[simp] theorem State.setPls_store (s : State) (n : Nat) (v : Pls) : (s.setPls n v).store = s.store := rfl
@[simp] theorem State.setPls_fab (s : State) (n : Nat) (v : Pls) : (s.setPls n v).fab = s.fab := rfl
@[simp] theorem State.setPls_lamp (s : State) (n : Nat) (v : Pls) : (s.setPls n v).lamp = s.lamp := rfl
@[simp] theorem State.setPls_mode (s : State) (n : Nat) (v : Pls) : (s.setPls n v).mode = s.mode := rfl
@[simp] theorem State.setPls_flt (s : State) (n : Nat) (v : Pls) : (s.setPls n v).flt = s.flt := rfl
@[simp] theorem State.setPls_cas (s : State) (n : Nat) (v : Pls) : (s.setPls n v).cas = s.cas := rfl
@[simp] theorem State.setPls_rej (s : State) (n : Nat) (v : Pls) : (s.setPls n v).rej = s.rej := rfl
@[simp] theorem State.setPls_vdda (s : State) (n : Nat) (v : Pls) : (s.setPls n v).vdda = s.vdda := rfl
@[simp] theorem State.setPls_adc (s : State) (n : Nat) (v : Pls) : (s.setPls n v).adc = s.adc := rfl
@[simp] theorem State.setPls_comp (s : State) (n : Nat) (v : Pls) : (s.setPls n v).comp = s.comp := rfl
@[simp] theorem State.setPls_notary (s : State) (n : Nat) (v : Pls) : (s.setPls n v).notary = s.notary := rfl
@[simp] theorem State.setPls_otp (s : State) (n : Nat) (v : Pls) : (s.setPls n v).otp = s.otp := rfl
@[simp] theorem State.setPls_led (s : State) (n : Nat) (v : Pls) : (s.setPls n v).led = s.led := rfl
@[simp] theorem State.setPls_ledScrub (s : State) (n : Nat) (v : Pls) : (s.setPls n v).ledScrub = s.ledScrub := rfl
@[simp] theorem State.setPls_ledScrubT (s : State) (n : Nat) (v : Pls) : (s.setPls n v).ledScrubT = s.ledScrubT := rfl

@[simp] theorem State.setTal_pending (s : State) (n : Nat) (v : Tal) : (s.setTal n v).pending = s.pending := rfl
@[simp] theorem State.setTal_freeIx (s : State) (n : Nat) (v : Tal) : (s.setTal n v).freeIx = s.freeIx := rfl
@[simp] theorem State.setTal_out (s : State) (n : Nat) (v : Tal) : (s.setTal n v).out = s.out := rfl
@[simp] theorem State.setTal_resp (s : State) (n : Nat) (v : Tal) : (s.setTal n v).resp = s.resp := rfl
@[simp] theorem State.setTal_clk (s : State) (n : Nat) (v : Tal) : (s.setTal n v).clk = s.clk := rfl
@[simp] theorem State.setTal_obj (s : State) (n : Nat) (v : Tal) : (s.setTal n v).obj = s.obj := rfl
@[simp] theorem State.setTal_force (s : State) (n : Nat) (v : Tal) : (s.setTal n v).force = s.force := rfl
@[simp] theorem State.setTal_waits (s : State) (n : Nat) (v : Tal) : (s.setTal n v).waits = s.waits := rfl
@[simp] theorem State.setTal_enc (s : State) (n : Nat) (v : Tal) : (s.setTal n v).enc = s.enc := rfl
@[simp] theorem State.setTal_lax (s : State) (n : Nat) (v : Tal) : (s.setTal n v).lax = s.lax := rfl
@[simp] theorem State.setTal_gin (s : State) (n : Nat) (v : Tal) : (s.setTal n v).gin = s.gin := rfl
@[simp] theorem State.setTal_pls (s : State) (n : Nat) (v : Tal) : (s.setTal n v).pls = s.pls := rfl
@[simp] theorem State.setTal_snap (s : State) (n : Nat) (v : Tal) : (s.setTal n v).snap = s.snap := rfl
@[simp] theorem State.setTal_axes (s : State) (n : Nat) (v : Tal) : (s.setTal n v).axes = s.axes := rfl
@[simp] theorem State.setTal_loops (s : State) (n : Nat) (v : Tal) : (s.setTal n v).loops = s.loops := rfl
@[simp] theorem State.setTal_segs (s : State) (n : Nat) (v : Tal) : (s.setTal n v).segs = s.segs := rfl
@[simp] theorem State.setTal_host (s : State) (n : Nat) (v : Tal) : (s.setTal n v).host = s.host := rfl
@[simp] theorem State.setTal_mem (s : State) (n : Nat) (v : Tal) : (s.setTal n v).mem = s.mem := rfl
@[simp] theorem State.setTal_net (s : State) (n : Nat) (v : Tal) : (s.setTal n v).net = s.net := rfl
@[simp] theorem State.setTal_store (s : State) (n : Nat) (v : Tal) : (s.setTal n v).store = s.store := rfl
@[simp] theorem State.setTal_fab (s : State) (n : Nat) (v : Tal) : (s.setTal n v).fab = s.fab := rfl
@[simp] theorem State.setTal_lamp (s : State) (n : Nat) (v : Tal) : (s.setTal n v).lamp = s.lamp := rfl
@[simp] theorem State.setTal_mode (s : State) (n : Nat) (v : Tal) : (s.setTal n v).mode = s.mode := rfl
@[simp] theorem State.setTal_flt (s : State) (n : Nat) (v : Tal) : (s.setTal n v).flt = s.flt := rfl
@[simp] theorem State.setTal_cas (s : State) (n : Nat) (v : Tal) : (s.setTal n v).cas = s.cas := rfl
@[simp] theorem State.setTal_rej (s : State) (n : Nat) (v : Tal) : (s.setTal n v).rej = s.rej := rfl
@[simp] theorem State.setTal_vdda (s : State) (n : Nat) (v : Tal) : (s.setTal n v).vdda = s.vdda := rfl
@[simp] theorem State.setTal_adc (s : State) (n : Nat) (v : Tal) : (s.setTal n v).adc = s.adc := rfl
@[simp] theorem State.setTal_comp (s : State) (n : Nat) (v : Tal) : (s.setTal n v).comp = s.comp := rfl
@[simp] theorem State.setTal_notary (s : State) (n : Nat) (v : Tal) : (s.setTal n v).notary = s.notary := rfl
@[simp] theorem State.setTal_otp (s : State) (n : Nat) (v : Tal) : (s.setTal n v).otp = s.otp := rfl
@[simp] theorem State.setTal_led (s : State) (n : Nat) (v : Tal) : (s.setTal n v).led = s.led := rfl
@[simp] theorem State.setTal_ledScrub (s : State) (n : Nat) (v : Tal) : (s.setTal n v).ledScrub = s.ledScrub := rfl
@[simp] theorem State.setTal_ledScrubT (s : State) (n : Nat) (v : Tal) : (s.setTal n v).ledScrubT = s.ledScrubT := rfl

@[simp] theorem State.setAx_pending (s : State) (a : Nat) (v : Axis) : (s.setAx a v).pending = s.pending := rfl
@[simp] theorem State.setAx_freeIx (s : State) (a : Nat) (v : Axis) : (s.setAx a v).freeIx = s.freeIx := rfl
@[simp] theorem State.setAx_out (s : State) (a : Nat) (v : Axis) : (s.setAx a v).out = s.out := rfl
@[simp] theorem State.setAx_resp (s : State) (a : Nat) (v : Axis) : (s.setAx a v).resp = s.resp := rfl
@[simp] theorem State.setAx_clk (s : State) (a : Nat) (v : Axis) : (s.setAx a v).clk = s.clk := rfl
@[simp] theorem State.setAx_obj (s : State) (a : Nat) (v : Axis) : (s.setAx a v).obj = s.obj := rfl
@[simp] theorem State.setAx_force (s : State) (a : Nat) (v : Axis) : (s.setAx a v).force = s.force := rfl
@[simp] theorem State.setAx_waits (s : State) (a : Nat) (v : Axis) : (s.setAx a v).waits = s.waits := rfl
@[simp] theorem State.setAx_enc (s : State) (a : Nat) (v : Axis) : (s.setAx a v).enc = s.enc := rfl
@[simp] theorem State.setAx_lax (s : State) (a : Nat) (v : Axis) : (s.setAx a v).lax = s.lax := rfl
@[simp] theorem State.setAx_gin (s : State) (a : Nat) (v : Axis) : (s.setAx a v).gin = s.gin := rfl
@[simp] theorem State.setAx_pls (s : State) (a : Nat) (v : Axis) : (s.setAx a v).pls = s.pls := rfl
@[simp] theorem State.setAx_snap (s : State) (a : Nat) (v : Axis) : (s.setAx a v).snap = s.snap := rfl
@[simp] theorem State.setAx_tal (s : State) (a : Nat) (v : Axis) : (s.setAx a v).tal = s.tal := rfl
@[simp] theorem State.setAx_loops (s : State) (a : Nat) (v : Axis) : (s.setAx a v).loops = s.loops := rfl
@[simp] theorem State.setAx_segs (s : State) (a : Nat) (v : Axis) : (s.setAx a v).segs = s.segs := rfl
@[simp] theorem State.setAx_host (s : State) (a : Nat) (v : Axis) : (s.setAx a v).host = s.host := rfl
@[simp] theorem State.setAx_mem (s : State) (a : Nat) (v : Axis) : (s.setAx a v).mem = s.mem := rfl
@[simp] theorem State.setAx_net (s : State) (a : Nat) (v : Axis) : (s.setAx a v).net = s.net := rfl
@[simp] theorem State.setAx_store (s : State) (a : Nat) (v : Axis) : (s.setAx a v).store = s.store := rfl
@[simp] theorem State.setAx_fab (s : State) (a : Nat) (v : Axis) : (s.setAx a v).fab = s.fab := rfl
@[simp] theorem State.setAx_lamp (s : State) (a : Nat) (v : Axis) : (s.setAx a v).lamp = s.lamp := rfl
@[simp] theorem State.setAx_mode (s : State) (a : Nat) (v : Axis) : (s.setAx a v).mode = s.mode := rfl
@[simp] theorem State.setAx_flt (s : State) (a : Nat) (v : Axis) : (s.setAx a v).flt = s.flt := rfl
@[simp] theorem State.setAx_cas (s : State) (a : Nat) (v : Axis) : (s.setAx a v).cas = s.cas := rfl
@[simp] theorem State.setAx_rej (s : State) (a : Nat) (v : Axis) : (s.setAx a v).rej = s.rej := rfl
@[simp] theorem State.setAx_vdda (s : State) (a : Nat) (v : Axis) : (s.setAx a v).vdda = s.vdda := rfl
@[simp] theorem State.setAx_adc (s : State) (a : Nat) (v : Axis) : (s.setAx a v).adc = s.adc := rfl
@[simp] theorem State.setAx_comp (s : State) (a : Nat) (v : Axis) : (s.setAx a v).comp = s.comp := rfl
@[simp] theorem State.setAx_notary (s : State) (a : Nat) (v : Axis) : (s.setAx a v).notary = s.notary := rfl
@[simp] theorem State.setAx_otp (s : State) (a : Nat) (v : Axis) : (s.setAx a v).otp = s.otp := rfl
@[simp] theorem State.setAx_led (s : State) (a : Nat) (v : Axis) : (s.setAx a v).led = s.led := rfl
@[simp] theorem State.setAx_ledScrub (s : State) (a : Nat) (v : Axis) : (s.setAx a v).ledScrub = s.ledScrub := rfl
@[simp] theorem State.setAx_ledScrubT (s : State) (a : Nat) (v : Axis) : (s.setAx a v).ledScrubT = s.ledScrubT := rfl

@[simp] theorem State.setLoop_pending (s : State) (n : Nat) (v : Loop) : (s.setLoop n v).pending = s.pending := rfl
@[simp] theorem State.setLoop_freeIx (s : State) (n : Nat) (v : Loop) : (s.setLoop n v).freeIx = s.freeIx := rfl
@[simp] theorem State.setLoop_out (s : State) (n : Nat) (v : Loop) : (s.setLoop n v).out = s.out := rfl
@[simp] theorem State.setLoop_resp (s : State) (n : Nat) (v : Loop) : (s.setLoop n v).resp = s.resp := rfl
@[simp] theorem State.setLoop_clk (s : State) (n : Nat) (v : Loop) : (s.setLoop n v).clk = s.clk := rfl
@[simp] theorem State.setLoop_obj (s : State) (n : Nat) (v : Loop) : (s.setLoop n v).obj = s.obj := rfl
@[simp] theorem State.setLoop_force (s : State) (n : Nat) (v : Loop) : (s.setLoop n v).force = s.force := rfl
@[simp] theorem State.setLoop_waits (s : State) (n : Nat) (v : Loop) : (s.setLoop n v).waits = s.waits := rfl
@[simp] theorem State.setLoop_enc (s : State) (n : Nat) (v : Loop) : (s.setLoop n v).enc = s.enc := rfl
@[simp] theorem State.setLoop_lax (s : State) (n : Nat) (v : Loop) : (s.setLoop n v).lax = s.lax := rfl
@[simp] theorem State.setLoop_gin (s : State) (n : Nat) (v : Loop) : (s.setLoop n v).gin = s.gin := rfl
@[simp] theorem State.setLoop_pls (s : State) (n : Nat) (v : Loop) : (s.setLoop n v).pls = s.pls := rfl
@[simp] theorem State.setLoop_snap (s : State) (n : Nat) (v : Loop) : (s.setLoop n v).snap = s.snap := rfl
@[simp] theorem State.setLoop_tal (s : State) (n : Nat) (v : Loop) : (s.setLoop n v).tal = s.tal := rfl
@[simp] theorem State.setLoop_axes (s : State) (n : Nat) (v : Loop) : (s.setLoop n v).axes = s.axes := rfl
@[simp] theorem State.setLoop_segs (s : State) (n : Nat) (v : Loop) : (s.setLoop n v).segs = s.segs := rfl
@[simp] theorem State.setLoop_host (s : State) (n : Nat) (v : Loop) : (s.setLoop n v).host = s.host := rfl
@[simp] theorem State.setLoop_mem (s : State) (n : Nat) (v : Loop) : (s.setLoop n v).mem = s.mem := rfl
@[simp] theorem State.setLoop_net (s : State) (n : Nat) (v : Loop) : (s.setLoop n v).net = s.net := rfl
@[simp] theorem State.setLoop_store (s : State) (n : Nat) (v : Loop) : (s.setLoop n v).store = s.store := rfl
@[simp] theorem State.setLoop_fab (s : State) (n : Nat) (v : Loop) : (s.setLoop n v).fab = s.fab := rfl
@[simp] theorem State.setLoop_lamp (s : State) (n : Nat) (v : Loop) : (s.setLoop n v).lamp = s.lamp := rfl
@[simp] theorem State.setLoop_mode (s : State) (n : Nat) (v : Loop) : (s.setLoop n v).mode = s.mode := rfl
@[simp] theorem State.setLoop_flt (s : State) (n : Nat) (v : Loop) : (s.setLoop n v).flt = s.flt := rfl
@[simp] theorem State.setLoop_cas (s : State) (n : Nat) (v : Loop) : (s.setLoop n v).cas = s.cas := rfl
@[simp] theorem State.setLoop_rej (s : State) (n : Nat) (v : Loop) : (s.setLoop n v).rej = s.rej := rfl
@[simp] theorem State.setLoop_vdda (s : State) (n : Nat) (v : Loop) : (s.setLoop n v).vdda = s.vdda := rfl
@[simp] theorem State.setLoop_adc (s : State) (n : Nat) (v : Loop) : (s.setLoop n v).adc = s.adc := rfl
@[simp] theorem State.setLoop_comp (s : State) (n : Nat) (v : Loop) : (s.setLoop n v).comp = s.comp := rfl
@[simp] theorem State.setLoop_notary (s : State) (n : Nat) (v : Loop) : (s.setLoop n v).notary = s.notary := rfl
@[simp] theorem State.setLoop_otp (s : State) (n : Nat) (v : Loop) : (s.setLoop n v).otp = s.otp := rfl
@[simp] theorem State.setLoop_led (s : State) (n : Nat) (v : Loop) : (s.setLoop n v).led = s.led := rfl
@[simp] theorem State.setLoop_ledScrub (s : State) (n : Nat) (v : Loop) : (s.setLoop n v).ledScrub = s.ledScrub := rfl
@[simp] theorem State.setLoop_ledScrubT (s : State) (n : Nat) (v : Loop) : (s.setLoop n v).ledScrubT = s.ledScrubT := rfl

@[simp] theorem State.setQ_pending (s : State) (q : Nat) (v : Queue) : (s.setQ q v).pending = s.pending := rfl
@[simp] theorem State.setQ_freeIx (s : State) (q : Nat) (v : Queue) : (s.setQ q v).freeIx = s.freeIx := rfl
@[simp] theorem State.setQ_out (s : State) (q : Nat) (v : Queue) : (s.setQ q v).out = s.out := rfl
@[simp] theorem State.setQ_resp (s : State) (q : Nat) (v : Queue) : (s.setQ q v).resp = s.resp := rfl
@[simp] theorem State.setQ_clk (s : State) (q : Nat) (v : Queue) : (s.setQ q v).clk = s.clk := rfl
@[simp] theorem State.setQ_obj (s : State) (q : Nat) (v : Queue) : (s.setQ q v).obj = s.obj := rfl
@[simp] theorem State.setQ_force (s : State) (q : Nat) (v : Queue) : (s.setQ q v).force = s.force := rfl
@[simp] theorem State.setQ_waits (s : State) (q : Nat) (v : Queue) : (s.setQ q v).waits = s.waits := rfl
@[simp] theorem State.setQ_enc (s : State) (q : Nat) (v : Queue) : (s.setQ q v).enc = s.enc := rfl
@[simp] theorem State.setQ_lax (s : State) (q : Nat) (v : Queue) : (s.setQ q v).lax = s.lax := rfl
@[simp] theorem State.setQ_gin (s : State) (q : Nat) (v : Queue) : (s.setQ q v).gin = s.gin := rfl
@[simp] theorem State.setQ_pls (s : State) (q : Nat) (v : Queue) : (s.setQ q v).pls = s.pls := rfl
@[simp] theorem State.setQ_snap (s : State) (q : Nat) (v : Queue) : (s.setQ q v).snap = s.snap := rfl
@[simp] theorem State.setQ_tal (s : State) (q : Nat) (v : Queue) : (s.setQ q v).tal = s.tal := rfl
@[simp] theorem State.setQ_axes (s : State) (q : Nat) (v : Queue) : (s.setQ q v).axes = s.axes := rfl
@[simp] theorem State.setQ_loops (s : State) (q : Nat) (v : Queue) : (s.setQ q v).loops = s.loops := rfl
@[simp] theorem State.setQ_segs (s : State) (q : Nat) (v : Queue) : (s.setQ q v).segs = s.segs := rfl
@[simp] theorem State.setQ_mem (s : State) (q : Nat) (v : Queue) : (s.setQ q v).mem = s.mem := rfl
@[simp] theorem State.setQ_net (s : State) (q : Nat) (v : Queue) : (s.setQ q v).net = s.net := rfl
@[simp] theorem State.setQ_store (s : State) (q : Nat) (v : Queue) : (s.setQ q v).store = s.store := rfl
@[simp] theorem State.setQ_fab (s : State) (q : Nat) (v : Queue) : (s.setQ q v).fab = s.fab := rfl
@[simp] theorem State.setQ_lamp (s : State) (q : Nat) (v : Queue) : (s.setQ q v).lamp = s.lamp := rfl
@[simp] theorem State.setQ_mode (s : State) (q : Nat) (v : Queue) : (s.setQ q v).mode = s.mode := rfl
@[simp] theorem State.setQ_flt (s : State) (q : Nat) (v : Queue) : (s.setQ q v).flt = s.flt := rfl
@[simp] theorem State.setQ_cas (s : State) (q : Nat) (v : Queue) : (s.setQ q v).cas = s.cas := rfl
@[simp] theorem State.setQ_rej (s : State) (q : Nat) (v : Queue) : (s.setQ q v).rej = s.rej := rfl
@[simp] theorem State.setQ_vdda (s : State) (q : Nat) (v : Queue) : (s.setQ q v).vdda = s.vdda := rfl
@[simp] theorem State.setQ_adc (s : State) (q : Nat) (v : Queue) : (s.setQ q v).adc = s.adc := rfl
@[simp] theorem State.setQ_comp (s : State) (q : Nat) (v : Queue) : (s.setQ q v).comp = s.comp := rfl
@[simp] theorem State.setQ_notary (s : State) (q : Nat) (v : Queue) : (s.setQ q v).notary = s.notary := rfl
@[simp] theorem State.setQ_otp (s : State) (q : Nat) (v : Queue) : (s.setQ q v).otp = s.otp := rfl
@[simp] theorem State.setQ_led (s : State) (q : Nat) (v : Queue) : (s.setQ q v).led = s.led := rfl
@[simp] theorem State.setQ_ledScrub (s : State) (q : Nat) (v : Queue) : (s.setQ q v).ledScrub = s.ledScrub := rfl
@[simp] theorem State.setQ_ledScrubT (s : State) (q : Nat) (v : Queue) : (s.setQ q v).ledScrubT = s.ledScrubT := rfl

@[simp] theorem State.setDma_pending (s : State) (n : Nat) (v : Dma) : (s.setDma n v).pending = s.pending := rfl
@[simp] theorem State.setDma_freeIx (s : State) (n : Nat) (v : Dma) : (s.setDma n v).freeIx = s.freeIx := rfl
@[simp] theorem State.setDma_out (s : State) (n : Nat) (v : Dma) : (s.setDma n v).out = s.out := rfl
@[simp] theorem State.setDma_resp (s : State) (n : Nat) (v : Dma) : (s.setDma n v).resp = s.resp := rfl
@[simp] theorem State.setDma_clk (s : State) (n : Nat) (v : Dma) : (s.setDma n v).clk = s.clk := rfl
@[simp] theorem State.setDma_obj (s : State) (n : Nat) (v : Dma) : (s.setDma n v).obj = s.obj := rfl
@[simp] theorem State.setDma_force (s : State) (n : Nat) (v : Dma) : (s.setDma n v).force = s.force := rfl
@[simp] theorem State.setDma_waits (s : State) (n : Nat) (v : Dma) : (s.setDma n v).waits = s.waits := rfl
@[simp] theorem State.setDma_enc (s : State) (n : Nat) (v : Dma) : (s.setDma n v).enc = s.enc := rfl
@[simp] theorem State.setDma_lax (s : State) (n : Nat) (v : Dma) : (s.setDma n v).lax = s.lax := rfl
@[simp] theorem State.setDma_gin (s : State) (n : Nat) (v : Dma) : (s.setDma n v).gin = s.gin := rfl
@[simp] theorem State.setDma_pls (s : State) (n : Nat) (v : Dma) : (s.setDma n v).pls = s.pls := rfl
@[simp] theorem State.setDma_snap (s : State) (n : Nat) (v : Dma) : (s.setDma n v).snap = s.snap := rfl
@[simp] theorem State.setDma_tal (s : State) (n : Nat) (v : Dma) : (s.setDma n v).tal = s.tal := rfl
@[simp] theorem State.setDma_axes (s : State) (n : Nat) (v : Dma) : (s.setDma n v).axes = s.axes := rfl
@[simp] theorem State.setDma_loops (s : State) (n : Nat) (v : Dma) : (s.setDma n v).loops = s.loops := rfl
@[simp] theorem State.setDma_segs (s : State) (n : Nat) (v : Dma) : (s.setDma n v).segs = s.segs := rfl
@[simp] theorem State.setDma_mem (s : State) (n : Nat) (v : Dma) : (s.setDma n v).mem = s.mem := rfl
@[simp] theorem State.setDma_net (s : State) (n : Nat) (v : Dma) : (s.setDma n v).net = s.net := rfl
@[simp] theorem State.setDma_store (s : State) (n : Nat) (v : Dma) : (s.setDma n v).store = s.store := rfl
@[simp] theorem State.setDma_fab (s : State) (n : Nat) (v : Dma) : (s.setDma n v).fab = s.fab := rfl
@[simp] theorem State.setDma_lamp (s : State) (n : Nat) (v : Dma) : (s.setDma n v).lamp = s.lamp := rfl
@[simp] theorem State.setDma_mode (s : State) (n : Nat) (v : Dma) : (s.setDma n v).mode = s.mode := rfl
@[simp] theorem State.setDma_flt (s : State) (n : Nat) (v : Dma) : (s.setDma n v).flt = s.flt := rfl
@[simp] theorem State.setDma_cas (s : State) (n : Nat) (v : Dma) : (s.setDma n v).cas = s.cas := rfl
@[simp] theorem State.setDma_rej (s : State) (n : Nat) (v : Dma) : (s.setDma n v).rej = s.rej := rfl
@[simp] theorem State.setDma_vdda (s : State) (n : Nat) (v : Dma) : (s.setDma n v).vdda = s.vdda := rfl
@[simp] theorem State.setDma_adc (s : State) (n : Nat) (v : Dma) : (s.setDma n v).adc = s.adc := rfl
@[simp] theorem State.setDma_comp (s : State) (n : Nat) (v : Dma) : (s.setDma n v).comp = s.comp := rfl
@[simp] theorem State.setDma_notary (s : State) (n : Nat) (v : Dma) : (s.setDma n v).notary = s.notary := rfl
@[simp] theorem State.setDma_otp (s : State) (n : Nat) (v : Dma) : (s.setDma n v).otp = s.otp := rfl
@[simp] theorem State.setDma_led (s : State) (n : Nat) (v : Dma) : (s.setDma n v).led = s.led := rfl
@[simp] theorem State.setDma_ledScrub (s : State) (n : Nat) (v : Dma) : (s.setDma n v).ledScrub = s.ledScrub := rfl
@[simp] theorem State.setDma_ledScrubT (s : State) (n : Nat) (v : Dma) : (s.setDma n v).ledScrubT = s.ledScrubT := rfl

@[simp] theorem State.setCan_pending (s : State) (i : Nat) (v : Can) : (s.setCan i v).pending = s.pending := rfl
@[simp] theorem State.setCan_freeIx (s : State) (i : Nat) (v : Can) : (s.setCan i v).freeIx = s.freeIx := rfl
@[simp] theorem State.setCan_out (s : State) (i : Nat) (v : Can) : (s.setCan i v).out = s.out := rfl
@[simp] theorem State.setCan_resp (s : State) (i : Nat) (v : Can) : (s.setCan i v).resp = s.resp := rfl
@[simp] theorem State.setCan_clk (s : State) (i : Nat) (v : Can) : (s.setCan i v).clk = s.clk := rfl
@[simp] theorem State.setCan_obj (s : State) (i : Nat) (v : Can) : (s.setCan i v).obj = s.obj := rfl
@[simp] theorem State.setCan_force (s : State) (i : Nat) (v : Can) : (s.setCan i v).force = s.force := rfl
@[simp] theorem State.setCan_waits (s : State) (i : Nat) (v : Can) : (s.setCan i v).waits = s.waits := rfl
@[simp] theorem State.setCan_enc (s : State) (i : Nat) (v : Can) : (s.setCan i v).enc = s.enc := rfl
@[simp] theorem State.setCan_lax (s : State) (i : Nat) (v : Can) : (s.setCan i v).lax = s.lax := rfl
@[simp] theorem State.setCan_gin (s : State) (i : Nat) (v : Can) : (s.setCan i v).gin = s.gin := rfl
@[simp] theorem State.setCan_pls (s : State) (i : Nat) (v : Can) : (s.setCan i v).pls = s.pls := rfl
@[simp] theorem State.setCan_snap (s : State) (i : Nat) (v : Can) : (s.setCan i v).snap = s.snap := rfl
@[simp] theorem State.setCan_tal (s : State) (i : Nat) (v : Can) : (s.setCan i v).tal = s.tal := rfl
@[simp] theorem State.setCan_axes (s : State) (i : Nat) (v : Can) : (s.setCan i v).axes = s.axes := rfl
@[simp] theorem State.setCan_loops (s : State) (i : Nat) (v : Can) : (s.setCan i v).loops = s.loops := rfl
@[simp] theorem State.setCan_segs (s : State) (i : Nat) (v : Can) : (s.setCan i v).segs = s.segs := rfl
@[simp] theorem State.setCan_host (s : State) (i : Nat) (v : Can) : (s.setCan i v).host = s.host := rfl
@[simp] theorem State.setCan_mem (s : State) (i : Nat) (v : Can) : (s.setCan i v).mem = s.mem := rfl
@[simp] theorem State.setCan_store (s : State) (i : Nat) (v : Can) : (s.setCan i v).store = s.store := rfl
@[simp] theorem State.setCan_fab (s : State) (i : Nat) (v : Can) : (s.setCan i v).fab = s.fab := rfl
@[simp] theorem State.setCan_lamp (s : State) (i : Nat) (v : Can) : (s.setCan i v).lamp = s.lamp := rfl
@[simp] theorem State.setCan_mode (s : State) (i : Nat) (v : Can) : (s.setCan i v).mode = s.mode := rfl
@[simp] theorem State.setCan_flt (s : State) (i : Nat) (v : Can) : (s.setCan i v).flt = s.flt := rfl
@[simp] theorem State.setCan_cas (s : State) (i : Nat) (v : Can) : (s.setCan i v).cas = s.cas := rfl
@[simp] theorem State.setCan_rej (s : State) (i : Nat) (v : Can) : (s.setCan i v).rej = s.rej := rfl
@[simp] theorem State.setCan_vdda (s : State) (i : Nat) (v : Can) : (s.setCan i v).vdda = s.vdda := rfl
@[simp] theorem State.setCan_adc (s : State) (i : Nat) (v : Can) : (s.setCan i v).adc = s.adc := rfl
@[simp] theorem State.setCan_comp (s : State) (i : Nat) (v : Can) : (s.setCan i v).comp = s.comp := rfl
@[simp] theorem State.setCan_notary (s : State) (i : Nat) (v : Can) : (s.setCan i v).notary = s.notary := rfl
@[simp] theorem State.setCan_otp (s : State) (i : Nat) (v : Can) : (s.setCan i v).otp = s.otp := rfl
@[simp] theorem State.setCan_led (s : State) (i : Nat) (v : Can) : (s.setCan i v).led = s.led := rfl
@[simp] theorem State.setCan_ledScrub (s : State) (i : Nat) (v : Can) : (s.setCan i v).ledScrub = s.ledScrub := rfl
@[simp] theorem State.setCan_ledScrubT (s : State) (i : Nat) (v : Can) : (s.setCan i v).ledScrubT = s.ledScrubT := rfl

@[simp] theorem State.setPort_pending (s : State) (p : Nat) (v : FPort) : (s.setPort p v).pending = s.pending := rfl
@[simp] theorem State.setPort_freeIx (s : State) (p : Nat) (v : FPort) : (s.setPort p v).freeIx = s.freeIx := rfl
@[simp] theorem State.setPort_out (s : State) (p : Nat) (v : FPort) : (s.setPort p v).out = s.out := rfl
@[simp] theorem State.setPort_resp (s : State) (p : Nat) (v : FPort) : (s.setPort p v).resp = s.resp := rfl
@[simp] theorem State.setPort_clk (s : State) (p : Nat) (v : FPort) : (s.setPort p v).clk = s.clk := rfl
@[simp] theorem State.setPort_obj (s : State) (p : Nat) (v : FPort) : (s.setPort p v).obj = s.obj := rfl
@[simp] theorem State.setPort_force (s : State) (p : Nat) (v : FPort) : (s.setPort p v).force = s.force := rfl
@[simp] theorem State.setPort_waits (s : State) (p : Nat) (v : FPort) : (s.setPort p v).waits = s.waits := rfl
@[simp] theorem State.setPort_enc (s : State) (p : Nat) (v : FPort) : (s.setPort p v).enc = s.enc := rfl
@[simp] theorem State.setPort_lax (s : State) (p : Nat) (v : FPort) : (s.setPort p v).lax = s.lax := rfl
@[simp] theorem State.setPort_gin (s : State) (p : Nat) (v : FPort) : (s.setPort p v).gin = s.gin := rfl
@[simp] theorem State.setPort_pls (s : State) (p : Nat) (v : FPort) : (s.setPort p v).pls = s.pls := rfl
@[simp] theorem State.setPort_snap (s : State) (p : Nat) (v : FPort) : (s.setPort p v).snap = s.snap := rfl
@[simp] theorem State.setPort_tal (s : State) (p : Nat) (v : FPort) : (s.setPort p v).tal = s.tal := rfl
@[simp] theorem State.setPort_axes (s : State) (p : Nat) (v : FPort) : (s.setPort p v).axes = s.axes := rfl
@[simp] theorem State.setPort_loops (s : State) (p : Nat) (v : FPort) : (s.setPort p v).loops = s.loops := rfl
@[simp] theorem State.setPort_segs (s : State) (p : Nat) (v : FPort) : (s.setPort p v).segs = s.segs := rfl
@[simp] theorem State.setPort_host (s : State) (p : Nat) (v : FPort) : (s.setPort p v).host = s.host := rfl
@[simp] theorem State.setPort_mem (s : State) (p : Nat) (v : FPort) : (s.setPort p v).mem = s.mem := rfl
@[simp] theorem State.setPort_net (s : State) (p : Nat) (v : FPort) : (s.setPort p v).net = s.net := rfl
@[simp] theorem State.setPort_store (s : State) (p : Nat) (v : FPort) : (s.setPort p v).store = s.store := rfl
@[simp] theorem State.setPort_lamp (s : State) (p : Nat) (v : FPort) : (s.setPort p v).lamp = s.lamp := rfl
@[simp] theorem State.setPort_mode (s : State) (p : Nat) (v : FPort) : (s.setPort p v).mode = s.mode := rfl
@[simp] theorem State.setPort_flt (s : State) (p : Nat) (v : FPort) : (s.setPort p v).flt = s.flt := rfl
@[simp] theorem State.setPort_cas (s : State) (p : Nat) (v : FPort) : (s.setPort p v).cas = s.cas := rfl
@[simp] theorem State.setPort_rej (s : State) (p : Nat) (v : FPort) : (s.setPort p v).rej = s.rej := rfl
@[simp] theorem State.setPort_vdda (s : State) (p : Nat) (v : FPort) : (s.setPort p v).vdda = s.vdda := rfl
@[simp] theorem State.setPort_adc (s : State) (p : Nat) (v : FPort) : (s.setPort p v).adc = s.adc := rfl
@[simp] theorem State.setPort_comp (s : State) (p : Nat) (v : FPort) : (s.setPort p v).comp = s.comp := rfl
@[simp] theorem State.setPort_notary (s : State) (p : Nat) (v : FPort) : (s.setPort p v).notary = s.notary := rfl
@[simp] theorem State.setPort_otp (s : State) (p : Nat) (v : FPort) : (s.setPort p v).otp = s.otp := rfl
@[simp] theorem State.setPort_led (s : State) (p : Nat) (v : FPort) : (s.setPort p v).led = s.led := rfl
@[simp] theorem State.setPort_ledScrub (s : State) (p : Nat) (v : FPort) : (s.setPort p v).ledScrub = s.ledScrub := rfl
@[simp] theorem State.setPort_ledScrubT (s : State) (p : Nat) (v : FPort) : (s.setPort p v).ledScrubT = s.ledScrubT := rfl

@[simp] theorem State.setRail_pending (s : State) (n : Nat) (v : Rail) : (s.setRail n v).pending = s.pending := rfl
@[simp] theorem State.setRail_freeIx (s : State) (n : Nat) (v : Rail) : (s.setRail n v).freeIx = s.freeIx := rfl
@[simp] theorem State.setRail_out (s : State) (n : Nat) (v : Rail) : (s.setRail n v).out = s.out := rfl
@[simp] theorem State.setRail_resp (s : State) (n : Nat) (v : Rail) : (s.setRail n v).resp = s.resp := rfl
@[simp] theorem State.setRail_clk (s : State) (n : Nat) (v : Rail) : (s.setRail n v).clk = s.clk := rfl
@[simp] theorem State.setRail_obj (s : State) (n : Nat) (v : Rail) : (s.setRail n v).obj = s.obj := rfl
@[simp] theorem State.setRail_force (s : State) (n : Nat) (v : Rail) : (s.setRail n v).force = s.force := rfl
@[simp] theorem State.setRail_waits (s : State) (n : Nat) (v : Rail) : (s.setRail n v).waits = s.waits := rfl
@[simp] theorem State.setRail_enc (s : State) (n : Nat) (v : Rail) : (s.setRail n v).enc = s.enc := rfl
@[simp] theorem State.setRail_lax (s : State) (n : Nat) (v : Rail) : (s.setRail n v).lax = s.lax := rfl
@[simp] theorem State.setRail_gin (s : State) (n : Nat) (v : Rail) : (s.setRail n v).gin = s.gin := rfl
@[simp] theorem State.setRail_pls (s : State) (n : Nat) (v : Rail) : (s.setRail n v).pls = s.pls := rfl
@[simp] theorem State.setRail_snap (s : State) (n : Nat) (v : Rail) : (s.setRail n v).snap = s.snap := rfl
@[simp] theorem State.setRail_tal (s : State) (n : Nat) (v : Rail) : (s.setRail n v).tal = s.tal := rfl
@[simp] theorem State.setRail_axes (s : State) (n : Nat) (v : Rail) : (s.setRail n v).axes = s.axes := rfl
@[simp] theorem State.setRail_loops (s : State) (n : Nat) (v : Rail) : (s.setRail n v).loops = s.loops := rfl
@[simp] theorem State.setRail_segs (s : State) (n : Nat) (v : Rail) : (s.setRail n v).segs = s.segs := rfl
@[simp] theorem State.setRail_host (s : State) (n : Nat) (v : Rail) : (s.setRail n v).host = s.host := rfl
@[simp] theorem State.setRail_mem (s : State) (n : Nat) (v : Rail) : (s.setRail n v).mem = s.mem := rfl
@[simp] theorem State.setRail_net (s : State) (n : Nat) (v : Rail) : (s.setRail n v).net = s.net := rfl
@[simp] theorem State.setRail_store (s : State) (n : Nat) (v : Rail) : (s.setRail n v).store = s.store := rfl
@[simp] theorem State.setRail_fab (s : State) (n : Nat) (v : Rail) : (s.setRail n v).fab = s.fab := rfl
@[simp] theorem State.setRail_mode (s : State) (n : Nat) (v : Rail) : (s.setRail n v).mode = s.mode := rfl
@[simp] theorem State.setRail_flt (s : State) (n : Nat) (v : Rail) : (s.setRail n v).flt = s.flt := rfl
@[simp] theorem State.setRail_cas (s : State) (n : Nat) (v : Rail) : (s.setRail n v).cas = s.cas := rfl
@[simp] theorem State.setRail_rej (s : State) (n : Nat) (v : Rail) : (s.setRail n v).rej = s.rej := rfl
@[simp] theorem State.setRail_vdda (s : State) (n : Nat) (v : Rail) : (s.setRail n v).vdda = s.vdda := rfl
@[simp] theorem State.setRail_adc (s : State) (n : Nat) (v : Rail) : (s.setRail n v).adc = s.adc := rfl
@[simp] theorem State.setRail_comp (s : State) (n : Nat) (v : Rail) : (s.setRail n v).comp = s.comp := rfl
@[simp] theorem State.setRail_notary (s : State) (n : Nat) (v : Rail) : (s.setRail n v).notary = s.notary := rfl
@[simp] theorem State.setRail_otp (s : State) (n : Nat) (v : Rail) : (s.setRail n v).otp = s.otp := rfl
@[simp] theorem State.setRail_led (s : State) (n : Nat) (v : Rail) : (s.setRail n v).led = s.led := rfl
@[simp] theorem State.setRail_ledScrub (s : State) (n : Nat) (v : Rail) : (s.setRail n v).ledScrub = s.ledScrub := rfl
@[simp] theorem State.setRail_ledScrubT (s : State) (n : Nat) (v : Rail) : (s.setRail n v).ledScrubT = s.ledScrubT := rfl

@[simp] theorem State.setCasement_pending (s : State) (c : Nat) (v : Cas) : (s.setCasement c v).pending = s.pending := rfl
@[simp] theorem State.setCasement_freeIx (s : State) (c : Nat) (v : Cas) : (s.setCasement c v).freeIx = s.freeIx := rfl
@[simp] theorem State.setCasement_out (s : State) (c : Nat) (v : Cas) : (s.setCasement c v).out = s.out := rfl
@[simp] theorem State.setCasement_resp (s : State) (c : Nat) (v : Cas) : (s.setCasement c v).resp = s.resp := rfl
@[simp] theorem State.setCasement_clk (s : State) (c : Nat) (v : Cas) : (s.setCasement c v).clk = s.clk := rfl
@[simp] theorem State.setCasement_obj (s : State) (c : Nat) (v : Cas) : (s.setCasement c v).obj = s.obj := rfl
@[simp] theorem State.setCasement_force (s : State) (c : Nat) (v : Cas) : (s.setCasement c v).force = s.force := rfl
@[simp] theorem State.setCasement_waits (s : State) (c : Nat) (v : Cas) : (s.setCasement c v).waits = s.waits := rfl
@[simp] theorem State.setCasement_enc (s : State) (c : Nat) (v : Cas) : (s.setCasement c v).enc = s.enc := rfl
@[simp] theorem State.setCasement_lax (s : State) (c : Nat) (v : Cas) : (s.setCasement c v).lax = s.lax := rfl
@[simp] theorem State.setCasement_gin (s : State) (c : Nat) (v : Cas) : (s.setCasement c v).gin = s.gin := rfl
@[simp] theorem State.setCasement_pls (s : State) (c : Nat) (v : Cas) : (s.setCasement c v).pls = s.pls := rfl
@[simp] theorem State.setCasement_snap (s : State) (c : Nat) (v : Cas) : (s.setCasement c v).snap = s.snap := rfl
@[simp] theorem State.setCasement_tal (s : State) (c : Nat) (v : Cas) : (s.setCasement c v).tal = s.tal := rfl
@[simp] theorem State.setCasement_axes (s : State) (c : Nat) (v : Cas) : (s.setCasement c v).axes = s.axes := rfl
@[simp] theorem State.setCasement_loops (s : State) (c : Nat) (v : Cas) : (s.setCasement c v).loops = s.loops := rfl
@[simp] theorem State.setCasement_segs (s : State) (c : Nat) (v : Cas) : (s.setCasement c v).segs = s.segs := rfl
@[simp] theorem State.setCasement_host (s : State) (c : Nat) (v : Cas) : (s.setCasement c v).host = s.host := rfl
@[simp] theorem State.setCasement_mem (s : State) (c : Nat) (v : Cas) : (s.setCasement c v).mem = s.mem := rfl
@[simp] theorem State.setCasement_net (s : State) (c : Nat) (v : Cas) : (s.setCasement c v).net = s.net := rfl
@[simp] theorem State.setCasement_store (s : State) (c : Nat) (v : Cas) : (s.setCasement c v).store = s.store := rfl
@[simp] theorem State.setCasement_fab (s : State) (c : Nat) (v : Cas) : (s.setCasement c v).fab = s.fab := rfl
@[simp] theorem State.setCasement_lamp (s : State) (c : Nat) (v : Cas) : (s.setCasement c v).lamp = s.lamp := rfl
@[simp] theorem State.setCasement_mode (s : State) (c : Nat) (v : Cas) : (s.setCasement c v).mode = s.mode := rfl
@[simp] theorem State.setCasement_flt (s : State) (c : Nat) (v : Cas) : (s.setCasement c v).flt = s.flt := rfl
@[simp] theorem State.setCasement_rej (s : State) (c : Nat) (v : Cas) : (s.setCasement c v).rej = s.rej := rfl
@[simp] theorem State.setCasement_vdda (s : State) (c : Nat) (v : Cas) : (s.setCasement c v).vdda = s.vdda := rfl
@[simp] theorem State.setCasement_adc (s : State) (c : Nat) (v : Cas) : (s.setCasement c v).adc = s.adc := rfl
@[simp] theorem State.setCasement_comp (s : State) (c : Nat) (v : Cas) : (s.setCasement c v).comp = s.comp := rfl
@[simp] theorem State.setCasement_notary (s : State) (c : Nat) (v : Cas) : (s.setCasement c v).notary = s.notary := rfl
@[simp] theorem State.setCasement_otp (s : State) (c : Nat) (v : Cas) : (s.setCasement c v).otp = s.otp := rfl
@[simp] theorem State.setCasement_led (s : State) (c : Nat) (v : Cas) : (s.setCasement c v).led = s.led := rfl
@[simp] theorem State.setCasement_ledScrub (s : State) (c : Nat) (v : Cas) : (s.setCasement c v).ledScrub = s.ledScrub := rfl
@[simp] theorem State.setCasement_ledScrubT (s : State) (c : Nat) (v : Cas) : (s.setCasement c v).ledScrubT = s.ledScrubT := rfl

@[simp] theorem State.setRej_pending (s : State) (n : Nat) (v : Rej) : (s.setRej n v).pending = s.pending := rfl
@[simp] theorem State.setRej_freeIx (s : State) (n : Nat) (v : Rej) : (s.setRej n v).freeIx = s.freeIx := rfl
@[simp] theorem State.setRej_out (s : State) (n : Nat) (v : Rej) : (s.setRej n v).out = s.out := rfl
@[simp] theorem State.setRej_resp (s : State) (n : Nat) (v : Rej) : (s.setRej n v).resp = s.resp := rfl
@[simp] theorem State.setRej_clk (s : State) (n : Nat) (v : Rej) : (s.setRej n v).clk = s.clk := rfl
@[simp] theorem State.setRej_obj (s : State) (n : Nat) (v : Rej) : (s.setRej n v).obj = s.obj := rfl
@[simp] theorem State.setRej_force (s : State) (n : Nat) (v : Rej) : (s.setRej n v).force = s.force := rfl
@[simp] theorem State.setRej_waits (s : State) (n : Nat) (v : Rej) : (s.setRej n v).waits = s.waits := rfl
@[simp] theorem State.setRej_enc (s : State) (n : Nat) (v : Rej) : (s.setRej n v).enc = s.enc := rfl
@[simp] theorem State.setRej_lax (s : State) (n : Nat) (v : Rej) : (s.setRej n v).lax = s.lax := rfl
@[simp] theorem State.setRej_gin (s : State) (n : Nat) (v : Rej) : (s.setRej n v).gin = s.gin := rfl
@[simp] theorem State.setRej_pls (s : State) (n : Nat) (v : Rej) : (s.setRej n v).pls = s.pls := rfl
@[simp] theorem State.setRej_snap (s : State) (n : Nat) (v : Rej) : (s.setRej n v).snap = s.snap := rfl
@[simp] theorem State.setRej_tal (s : State) (n : Nat) (v : Rej) : (s.setRej n v).tal = s.tal := rfl
@[simp] theorem State.setRej_axes (s : State) (n : Nat) (v : Rej) : (s.setRej n v).axes = s.axes := rfl
@[simp] theorem State.setRej_loops (s : State) (n : Nat) (v : Rej) : (s.setRej n v).loops = s.loops := rfl
@[simp] theorem State.setRej_segs (s : State) (n : Nat) (v : Rej) : (s.setRej n v).segs = s.segs := rfl
@[simp] theorem State.setRej_host (s : State) (n : Nat) (v : Rej) : (s.setRej n v).host = s.host := rfl
@[simp] theorem State.setRej_mem (s : State) (n : Nat) (v : Rej) : (s.setRej n v).mem = s.mem := rfl
@[simp] theorem State.setRej_net (s : State) (n : Nat) (v : Rej) : (s.setRej n v).net = s.net := rfl
@[simp] theorem State.setRej_store (s : State) (n : Nat) (v : Rej) : (s.setRej n v).store = s.store := rfl
@[simp] theorem State.setRej_fab (s : State) (n : Nat) (v : Rej) : (s.setRej n v).fab = s.fab := rfl
@[simp] theorem State.setRej_lamp (s : State) (n : Nat) (v : Rej) : (s.setRej n v).lamp = s.lamp := rfl
@[simp] theorem State.setRej_mode (s : State) (n : Nat) (v : Rej) : (s.setRej n v).mode = s.mode := rfl
@[simp] theorem State.setRej_flt (s : State) (n : Nat) (v : Rej) : (s.setRej n v).flt = s.flt := rfl
@[simp] theorem State.setRej_cas (s : State) (n : Nat) (v : Rej) : (s.setRej n v).cas = s.cas := rfl
@[simp] theorem State.setRej_vdda (s : State) (n : Nat) (v : Rej) : (s.setRej n v).vdda = s.vdda := rfl
@[simp] theorem State.setRej_adc (s : State) (n : Nat) (v : Rej) : (s.setRej n v).adc = s.adc := rfl
@[simp] theorem State.setRej_comp (s : State) (n : Nat) (v : Rej) : (s.setRej n v).comp = s.comp := rfl
@[simp] theorem State.setRej_notary (s : State) (n : Nat) (v : Rej) : (s.setRej n v).notary = s.notary := rfl
@[simp] theorem State.setRej_otp (s : State) (n : Nat) (v : Rej) : (s.setRej n v).otp = s.otp := rfl
@[simp] theorem State.setRej_led (s : State) (n : Nat) (v : Rej) : (s.setRej n v).led = s.led := rfl
@[simp] theorem State.setRej_ledScrub (s : State) (n : Nat) (v : Rej) : (s.setRej n v).ledScrub = s.ledScrub := rfl
@[simp] theorem State.setRej_ledScrubT (s : State) (n : Nat) (v : Rej) : (s.setRej n v).ledScrubT = s.ledScrubT := rfl

@[simp] theorem State.setEx_pending (s : State) (x : Nat) (v : Exec) : (s.setEx x v).pending = s.pending := rfl
@[simp] theorem State.setEx_freeIx (s : State) (x : Nat) (v : Exec) : (s.setEx x v).freeIx = s.freeIx := rfl
@[simp] theorem State.setEx_out (s : State) (x : Nat) (v : Exec) : (s.setEx x v).out = s.out := rfl
@[simp] theorem State.setEx_resp (s : State) (x : Nat) (v : Exec) : (s.setEx x v).resp = s.resp := rfl
@[simp] theorem State.setEx_clk (s : State) (x : Nat) (v : Exec) : (s.setEx x v).clk = s.clk := rfl
@[simp] theorem State.setEx_obj (s : State) (x : Nat) (v : Exec) : (s.setEx x v).obj = s.obj := rfl
@[simp] theorem State.setEx_force (s : State) (x : Nat) (v : Exec) : (s.setEx x v).force = s.force := rfl
@[simp] theorem State.setEx_waits (s : State) (x : Nat) (v : Exec) : (s.setEx x v).waits = s.waits := rfl
@[simp] theorem State.setEx_enc (s : State) (x : Nat) (v : Exec) : (s.setEx x v).enc = s.enc := rfl
@[simp] theorem State.setEx_lax (s : State) (x : Nat) (v : Exec) : (s.setEx x v).lax = s.lax := rfl
@[simp] theorem State.setEx_gin (s : State) (x : Nat) (v : Exec) : (s.setEx x v).gin = s.gin := rfl
@[simp] theorem State.setEx_pls (s : State) (x : Nat) (v : Exec) : (s.setEx x v).pls = s.pls := rfl
@[simp] theorem State.setEx_snap (s : State) (x : Nat) (v : Exec) : (s.setEx x v).snap = s.snap := rfl
@[simp] theorem State.setEx_tal (s : State) (x : Nat) (v : Exec) : (s.setEx x v).tal = s.tal := rfl
@[simp] theorem State.setEx_axes (s : State) (x : Nat) (v : Exec) : (s.setEx x v).axes = s.axes := rfl
@[simp] theorem State.setEx_loops (s : State) (x : Nat) (v : Exec) : (s.setEx x v).loops = s.loops := rfl
@[simp] theorem State.setEx_segs (s : State) (x : Nat) (v : Exec) : (s.setEx x v).segs = s.segs := rfl
@[simp] theorem State.setEx_host (s : State) (x : Nat) (v : Exec) : (s.setEx x v).host = s.host := rfl
@[simp] theorem State.setEx_mem (s : State) (x : Nat) (v : Exec) : (s.setEx x v).mem = s.mem := rfl
@[simp] theorem State.setEx_net (s : State) (x : Nat) (v : Exec) : (s.setEx x v).net = s.net := rfl
@[simp] theorem State.setEx_store (s : State) (x : Nat) (v : Exec) : (s.setEx x v).store = s.store := rfl
@[simp] theorem State.setEx_fab (s : State) (x : Nat) (v : Exec) : (s.setEx x v).fab = s.fab := rfl
@[simp] theorem State.setEx_mode (s : State) (x : Nat) (v : Exec) : (s.setEx x v).mode = s.mode := rfl
@[simp] theorem State.setEx_flt (s : State) (x : Nat) (v : Exec) : (s.setEx x v).flt = s.flt := rfl
@[simp] theorem State.setEx_cas (s : State) (x : Nat) (v : Exec) : (s.setEx x v).cas = s.cas := rfl
@[simp] theorem State.setEx_rej (s : State) (x : Nat) (v : Exec) : (s.setEx x v).rej = s.rej := rfl
@[simp] theorem State.setEx_vdda (s : State) (x : Nat) (v : Exec) : (s.setEx x v).vdda = s.vdda := rfl
@[simp] theorem State.setEx_adc (s : State) (x : Nat) (v : Exec) : (s.setEx x v).adc = s.adc := rfl
@[simp] theorem State.setEx_comp (s : State) (x : Nat) (v : Exec) : (s.setEx x v).comp = s.comp := rfl
@[simp] theorem State.setEx_notary (s : State) (x : Nat) (v : Exec) : (s.setEx x v).notary = s.notary := rfl
@[simp] theorem State.setEx_otp (s : State) (x : Nat) (v : Exec) : (s.setEx x v).otp = s.otp := rfl
@[simp] theorem State.setEx_led (s : State) (x : Nat) (v : Exec) : (s.setEx x v).led = s.led := rfl
@[simp] theorem State.setEx_ledScrub (s : State) (x : Nat) (v : Exec) : (s.setEx x v).ledScrub = s.ledScrub := rfl
@[simp] theorem State.setEx_ledScrubT (s : State) (x : Nat) (v : Exec) : (s.setEx x v).ledScrubT = s.ledScrubT := rfl

@[simp] theorem State.setv_pending (s : State) (k : Nat) (v : Val) : (s.setv k v).pending = s.pending := rfl
@[simp] theorem State.setv_freeIx (s : State) (k : Nat) (v : Val) : (s.setv k v).freeIx = s.freeIx := rfl
@[simp] theorem State.setv_out (s : State) (k : Nat) (v : Val) : (s.setv k v).out = s.out := rfl
@[simp] theorem State.setv_resp (s : State) (k : Nat) (v : Val) : (s.setv k v).resp = s.resp := rfl
@[simp] theorem State.setv_clk (s : State) (k : Nat) (v : Val) : (s.setv k v).clk = s.clk := rfl
@[simp] theorem State.setv_force (s : State) (k : Nat) (v : Val) : (s.setv k v).force = s.force := rfl
@[simp] theorem State.setv_waits (s : State) (k : Nat) (v : Val) : (s.setv k v).waits = s.waits := rfl
@[simp] theorem State.setv_enc (s : State) (k : Nat) (v : Val) : (s.setv k v).enc = s.enc := rfl
@[simp] theorem State.setv_lax (s : State) (k : Nat) (v : Val) : (s.setv k v).lax = s.lax := rfl
@[simp] theorem State.setv_gin (s : State) (k : Nat) (v : Val) : (s.setv k v).gin = s.gin := rfl
@[simp] theorem State.setv_pls (s : State) (k : Nat) (v : Val) : (s.setv k v).pls = s.pls := rfl
@[simp] theorem State.setv_snap (s : State) (k : Nat) (v : Val) : (s.setv k v).snap = s.snap := rfl
@[simp] theorem State.setv_tal (s : State) (k : Nat) (v : Val) : (s.setv k v).tal = s.tal := rfl
@[simp] theorem State.setv_axes (s : State) (k : Nat) (v : Val) : (s.setv k v).axes = s.axes := rfl
@[simp] theorem State.setv_loops (s : State) (k : Nat) (v : Val) : (s.setv k v).loops = s.loops := rfl
@[simp] theorem State.setv_segs (s : State) (k : Nat) (v : Val) : (s.setv k v).segs = s.segs := rfl
@[simp] theorem State.setv_host (s : State) (k : Nat) (v : Val) : (s.setv k v).host = s.host := rfl
@[simp] theorem State.setv_mem (s : State) (k : Nat) (v : Val) : (s.setv k v).mem = s.mem := rfl
@[simp] theorem State.setv_net (s : State) (k : Nat) (v : Val) : (s.setv k v).net = s.net := rfl
@[simp] theorem State.setv_store (s : State) (k : Nat) (v : Val) : (s.setv k v).store = s.store := rfl
@[simp] theorem State.setv_fab (s : State) (k : Nat) (v : Val) : (s.setv k v).fab = s.fab := rfl
@[simp] theorem State.setv_lamp (s : State) (k : Nat) (v : Val) : (s.setv k v).lamp = s.lamp := rfl
@[simp] theorem State.setv_mode (s : State) (k : Nat) (v : Val) : (s.setv k v).mode = s.mode := rfl
@[simp] theorem State.setv_flt (s : State) (k : Nat) (v : Val) : (s.setv k v).flt = s.flt := rfl
@[simp] theorem State.setv_cas (s : State) (k : Nat) (v : Val) : (s.setv k v).cas = s.cas := rfl
@[simp] theorem State.setv_rej (s : State) (k : Nat) (v : Val) : (s.setv k v).rej = s.rej := rfl
@[simp] theorem State.setv_vdda (s : State) (k : Nat) (v : Val) : (s.setv k v).vdda = s.vdda := rfl
@[simp] theorem State.setv_adc (s : State) (k : Nat) (v : Val) : (s.setv k v).adc = s.adc := rfl
@[simp] theorem State.setv_comp (s : State) (k : Nat) (v : Val) : (s.setv k v).comp = s.comp := rfl
@[simp] theorem State.setv_notary (s : State) (k : Nat) (v : Val) : (s.setv k v).notary = s.notary := rfl
@[simp] theorem State.setv_otp (s : State) (k : Nat) (v : Val) : (s.setv k v).otp = s.otp := rfl
@[simp] theorem State.setv_led (s : State) (k : Nat) (v : Val) : (s.setv k v).led = s.led := rfl
@[simp] theorem State.setv_ledScrub (s : State) (k : Nat) (v : Val) : (s.setv k v).ledScrub = s.ledScrub := rfl
@[simp] theorem State.setv_ledScrubT (s : State) (k : Nat) (v : Val) : (s.setv k v).ledScrubT = s.ledScrubT := rfl

@[simp] theorem State.setn_pending (s : State) (k : Nat) (n : Int) : (s.setn k n).pending = s.pending := rfl
@[simp] theorem State.setn_freeIx (s : State) (k : Nat) (n : Int) : (s.setn k n).freeIx = s.freeIx := rfl
@[simp] theorem State.setn_out (s : State) (k : Nat) (n : Int) : (s.setn k n).out = s.out := rfl
@[simp] theorem State.setn_resp (s : State) (k : Nat) (n : Int) : (s.setn k n).resp = s.resp := rfl
@[simp] theorem State.setn_clk (s : State) (k : Nat) (n : Int) : (s.setn k n).clk = s.clk := rfl
@[simp] theorem State.setn_force (s : State) (k : Nat) (n : Int) : (s.setn k n).force = s.force := rfl
@[simp] theorem State.setn_waits (s : State) (k : Nat) (n : Int) : (s.setn k n).waits = s.waits := rfl
@[simp] theorem State.setn_enc (s : State) (k : Nat) (n : Int) : (s.setn k n).enc = s.enc := rfl
@[simp] theorem State.setn_lax (s : State) (k : Nat) (n : Int) : (s.setn k n).lax = s.lax := rfl
@[simp] theorem State.setn_gin (s : State) (k : Nat) (n : Int) : (s.setn k n).gin = s.gin := rfl
@[simp] theorem State.setn_pls (s : State) (k : Nat) (n : Int) : (s.setn k n).pls = s.pls := rfl
@[simp] theorem State.setn_snap (s : State) (k : Nat) (n : Int) : (s.setn k n).snap = s.snap := rfl
@[simp] theorem State.setn_tal (s : State) (k : Nat) (n : Int) : (s.setn k n).tal = s.tal := rfl
@[simp] theorem State.setn_axes (s : State) (k : Nat) (n : Int) : (s.setn k n).axes = s.axes := rfl
@[simp] theorem State.setn_loops (s : State) (k : Nat) (n : Int) : (s.setn k n).loops = s.loops := rfl
@[simp] theorem State.setn_segs (s : State) (k : Nat) (n : Int) : (s.setn k n).segs = s.segs := rfl
@[simp] theorem State.setn_host (s : State) (k : Nat) (n : Int) : (s.setn k n).host = s.host := rfl
@[simp] theorem State.setn_mem (s : State) (k : Nat) (n : Int) : (s.setn k n).mem = s.mem := rfl
@[simp] theorem State.setn_net (s : State) (k : Nat) (n : Int) : (s.setn k n).net = s.net := rfl
@[simp] theorem State.setn_store (s : State) (k : Nat) (n : Int) : (s.setn k n).store = s.store := rfl
@[simp] theorem State.setn_fab (s : State) (k : Nat) (n : Int) : (s.setn k n).fab = s.fab := rfl
@[simp] theorem State.setn_lamp (s : State) (k : Nat) (n : Int) : (s.setn k n).lamp = s.lamp := rfl
@[simp] theorem State.setn_mode (s : State) (k : Nat) (n : Int) : (s.setn k n).mode = s.mode := rfl
@[simp] theorem State.setn_flt (s : State) (k : Nat) (n : Int) : (s.setn k n).flt = s.flt := rfl
@[simp] theorem State.setn_cas (s : State) (k : Nat) (n : Int) : (s.setn k n).cas = s.cas := rfl
@[simp] theorem State.setn_rej (s : State) (k : Nat) (n : Int) : (s.setn k n).rej = s.rej := rfl
@[simp] theorem State.setn_vdda (s : State) (k : Nat) (n : Int) : (s.setn k n).vdda = s.vdda := rfl
@[simp] theorem State.setn_adc (s : State) (k : Nat) (n : Int) : (s.setn k n).adc = s.adc := rfl
@[simp] theorem State.setn_comp (s : State) (k : Nat) (n : Int) : (s.setn k n).comp = s.comp := rfl
@[simp] theorem State.setn_notary (s : State) (k : Nat) (n : Int) : (s.setn k n).notary = s.notary := rfl
@[simp] theorem State.setn_otp (s : State) (k : Nat) (n : Int) : (s.setn k n).otp = s.otp := rfl
@[simp] theorem State.setn_led (s : State) (k : Nat) (n : Int) : (s.setn k n).led = s.led := rfl
@[simp] theorem State.setn_ledScrub (s : State) (k : Nat) (n : Int) : (s.setn k n).ledScrub = s.ledScrub := rfl
@[simp] theorem State.setn_ledScrubT (s : State) (k : Nat) (n : Int) : (s.setn k n).ledScrubT = s.ledScrubT := rfl

@[simp] theorem State.enforce_pending (s : State) (k : Nat) : (s.enforce k).pending = s.pending := rfl
@[simp] theorem State.enforce_freeIx (s : State) (k : Nat) : (s.enforce k).freeIx = s.freeIx := rfl
@[simp] theorem State.enforce_out (s : State) (k : Nat) : (s.enforce k).out = s.out := rfl
@[simp] theorem State.enforce_resp (s : State) (k : Nat) : (s.enforce k).resp = s.resp := rfl
@[simp] theorem State.enforce_clk (s : State) (k : Nat) : (s.enforce k).clk = s.clk := rfl
@[simp] theorem State.enforce_obj (s : State) (k : Nat) : (s.enforce k).obj = s.obj := rfl
@[simp] theorem State.enforce_waits (s : State) (k : Nat) : (s.enforce k).waits = s.waits := rfl
@[simp] theorem State.enforce_enc (s : State) (k : Nat) : (s.enforce k).enc = s.enc := rfl
@[simp] theorem State.enforce_lax (s : State) (k : Nat) : (s.enforce k).lax = s.lax := rfl
@[simp] theorem State.enforce_gin (s : State) (k : Nat) : (s.enforce k).gin = s.gin := rfl
@[simp] theorem State.enforce_pls (s : State) (k : Nat) : (s.enforce k).pls = s.pls := rfl
@[simp] theorem State.enforce_snap (s : State) (k : Nat) : (s.enforce k).snap = s.snap := rfl
@[simp] theorem State.enforce_tal (s : State) (k : Nat) : (s.enforce k).tal = s.tal := rfl
@[simp] theorem State.enforce_axes (s : State) (k : Nat) : (s.enforce k).axes = s.axes := rfl
@[simp] theorem State.enforce_loops (s : State) (k : Nat) : (s.enforce k).loops = s.loops := rfl
@[simp] theorem State.enforce_segs (s : State) (k : Nat) : (s.enforce k).segs = s.segs := rfl
@[simp] theorem State.enforce_host (s : State) (k : Nat) : (s.enforce k).host = s.host := rfl
@[simp] theorem State.enforce_mem (s : State) (k : Nat) : (s.enforce k).mem = s.mem := rfl
@[simp] theorem State.enforce_net (s : State) (k : Nat) : (s.enforce k).net = s.net := rfl
@[simp] theorem State.enforce_store (s : State) (k : Nat) : (s.enforce k).store = s.store := rfl
@[simp] theorem State.enforce_fab (s : State) (k : Nat) : (s.enforce k).fab = s.fab := rfl
@[simp] theorem State.enforce_lamp (s : State) (k : Nat) : (s.enforce k).lamp = s.lamp := rfl
@[simp] theorem State.enforce_mode (s : State) (k : Nat) : (s.enforce k).mode = s.mode := rfl
@[simp] theorem State.enforce_flt (s : State) (k : Nat) : (s.enforce k).flt = s.flt := rfl
@[simp] theorem State.enforce_cas (s : State) (k : Nat) : (s.enforce k).cas = s.cas := rfl
@[simp] theorem State.enforce_rej (s : State) (k : Nat) : (s.enforce k).rej = s.rej := rfl
@[simp] theorem State.enforce_vdda (s : State) (k : Nat) : (s.enforce k).vdda = s.vdda := rfl
@[simp] theorem State.enforce_adc (s : State) (k : Nat) : (s.enforce k).adc = s.adc := rfl
@[simp] theorem State.enforce_comp (s : State) (k : Nat) : (s.enforce k).comp = s.comp := rfl
@[simp] theorem State.enforce_notary (s : State) (k : Nat) : (s.enforce k).notary = s.notary := rfl
@[simp] theorem State.enforce_otp (s : State) (k : Nat) : (s.enforce k).otp = s.otp := rfl
@[simp] theorem State.enforce_led (s : State) (k : Nat) : (s.enforce k).led = s.led := rfl
@[simp] theorem State.enforce_ledScrub (s : State) (k : Nat) : (s.enforce k).ledScrub = s.ledScrub := rfl
@[simp] theorem State.enforce_ledScrubT (s : State) (k : Nat) : (s.enforce k).ledScrubT = s.ledScrubT := rfl

@[simp] theorem State.setDec_pending (s : State) (k : Nat) (v : Val) : (s.setDec k v).pending = s.pending := rfl
@[simp] theorem State.setDec_freeIx (s : State) (k : Nat) (v : Val) : (s.setDec k v).freeIx = s.freeIx := rfl
@[simp] theorem State.setDec_out (s : State) (k : Nat) (v : Val) : (s.setDec k v).out = s.out := rfl
@[simp] theorem State.setDec_resp (s : State) (k : Nat) (v : Val) : (s.setDec k v).resp = s.resp := rfl
@[simp] theorem State.setDec_clk (s : State) (k : Nat) (v : Val) : (s.setDec k v).clk = s.clk := rfl
@[simp] theorem State.setDec_force (s : State) (k : Nat) (v : Val) : (s.setDec k v).force = s.force := rfl
@[simp] theorem State.setDec_enc (s : State) (k : Nat) (v : Val) : (s.setDec k v).enc = s.enc := rfl
@[simp] theorem State.setDec_lax (s : State) (k : Nat) (v : Val) : (s.setDec k v).lax = s.lax := rfl
@[simp] theorem State.setDec_gin (s : State) (k : Nat) (v : Val) : (s.setDec k v).gin = s.gin := rfl
@[simp] theorem State.setDec_pls (s : State) (k : Nat) (v : Val) : (s.setDec k v).pls = s.pls := rfl
@[simp] theorem State.setDec_snap (s : State) (k : Nat) (v : Val) : (s.setDec k v).snap = s.snap := rfl
@[simp] theorem State.setDec_tal (s : State) (k : Nat) (v : Val) : (s.setDec k v).tal = s.tal := rfl
@[simp] theorem State.setDec_axes (s : State) (k : Nat) (v : Val) : (s.setDec k v).axes = s.axes := rfl
@[simp] theorem State.setDec_loops (s : State) (k : Nat) (v : Val) : (s.setDec k v).loops = s.loops := rfl
@[simp] theorem State.setDec_segs (s : State) (k : Nat) (v : Val) : (s.setDec k v).segs = s.segs := rfl
@[simp] theorem State.setDec_host (s : State) (k : Nat) (v : Val) : (s.setDec k v).host = s.host := rfl
@[simp] theorem State.setDec_mem (s : State) (k : Nat) (v : Val) : (s.setDec k v).mem = s.mem := rfl
@[simp] theorem State.setDec_net (s : State) (k : Nat) (v : Val) : (s.setDec k v).net = s.net := rfl
@[simp] theorem State.setDec_store (s : State) (k : Nat) (v : Val) : (s.setDec k v).store = s.store := rfl
@[simp] theorem State.setDec_fab (s : State) (k : Nat) (v : Val) : (s.setDec k v).fab = s.fab := rfl
@[simp] theorem State.setDec_lamp (s : State) (k : Nat) (v : Val) : (s.setDec k v).lamp = s.lamp := rfl
@[simp] theorem State.setDec_mode (s : State) (k : Nat) (v : Val) : (s.setDec k v).mode = s.mode := rfl
@[simp] theorem State.setDec_flt (s : State) (k : Nat) (v : Val) : (s.setDec k v).flt = s.flt := rfl
@[simp] theorem State.setDec_cas (s : State) (k : Nat) (v : Val) : (s.setDec k v).cas = s.cas := rfl
@[simp] theorem State.setDec_rej (s : State) (k : Nat) (v : Val) : (s.setDec k v).rej = s.rej := rfl
@[simp] theorem State.setDec_vdda (s : State) (k : Nat) (v : Val) : (s.setDec k v).vdda = s.vdda := rfl
@[simp] theorem State.setDec_adc (s : State) (k : Nat) (v : Val) : (s.setDec k v).adc = s.adc := rfl
@[simp] theorem State.setDec_comp (s : State) (k : Nat) (v : Val) : (s.setDec k v).comp = s.comp := rfl
@[simp] theorem State.setDec_notary (s : State) (k : Nat) (v : Val) : (s.setDec k v).notary = s.notary := rfl
@[simp] theorem State.setDec_otp (s : State) (k : Nat) (v : Val) : (s.setDec k v).otp = s.otp := rfl
@[simp] theorem State.setDec_led (s : State) (k : Nat) (v : Val) : (s.setDec k v).led = s.led := rfl
@[simp] theorem State.setDec_ledScrub (s : State) (k : Nat) (v : Val) : (s.setDec k v).ledScrub = s.ledScrub := rfl
@[simp] theorem State.setDec_ledScrubT (s : State) (k : Nat) (v : Val) : (s.setDec k v).ledScrubT = s.ledScrubT := rfl

@[simp] theorem State.eventAt_pending (s : State) (d : Int) (src cause inst : Nat) (data : Bytes) : (s.eventAt d src cause inst data).pending = s.pending := by
  obtain ⟨h, e⟩ := s.eventAt_host_only d src cause inst data; rw [e]
@[simp] theorem State.eventAt_freeIx (s : State) (d : Int) (src cause inst : Nat) (data : Bytes) : (s.eventAt d src cause inst data).freeIx = s.freeIx := by
  obtain ⟨h, e⟩ := s.eventAt_host_only d src cause inst data; rw [e]
@[simp] theorem State.eventAt_out (s : State) (d : Int) (src cause inst : Nat) (data : Bytes) : (s.eventAt d src cause inst data).out = s.out := by
  obtain ⟨h, e⟩ := s.eventAt_host_only d src cause inst data; rw [e]
@[simp] theorem State.eventAt_resp (s : State) (d : Int) (src cause inst : Nat) (data : Bytes) : (s.eventAt d src cause inst data).resp = s.resp := by
  obtain ⟨h, e⟩ := s.eventAt_host_only d src cause inst data; rw [e]
@[simp] theorem State.eventAt_clk (s : State) (d : Int) (src cause inst : Nat) (data : Bytes) : (s.eventAt d src cause inst data).clk = s.clk := by
  obtain ⟨h, e⟩ := s.eventAt_host_only d src cause inst data; rw [e]
@[simp] theorem State.eventAt_obj (s : State) (d : Int) (src cause inst : Nat) (data : Bytes) : (s.eventAt d src cause inst data).obj = s.obj := by
  obtain ⟨h, e⟩ := s.eventAt_host_only d src cause inst data; rw [e]
@[simp] theorem State.eventAt_force (s : State) (d : Int) (src cause inst : Nat) (data : Bytes) : (s.eventAt d src cause inst data).force = s.force := by
  obtain ⟨h, e⟩ := s.eventAt_host_only d src cause inst data; rw [e]
@[simp] theorem State.eventAt_waits (s : State) (d : Int) (src cause inst : Nat) (data : Bytes) : (s.eventAt d src cause inst data).waits = s.waits := by
  obtain ⟨h, e⟩ := s.eventAt_host_only d src cause inst data; rw [e]
@[simp] theorem State.eventAt_enc (s : State) (d : Int) (src cause inst : Nat) (data : Bytes) : (s.eventAt d src cause inst data).enc = s.enc := by
  obtain ⟨h, e⟩ := s.eventAt_host_only d src cause inst data; rw [e]
@[simp] theorem State.eventAt_lax (s : State) (d : Int) (src cause inst : Nat) (data : Bytes) : (s.eventAt d src cause inst data).lax = s.lax := by
  obtain ⟨h, e⟩ := s.eventAt_host_only d src cause inst data; rw [e]
@[simp] theorem State.eventAt_gin (s : State) (d : Int) (src cause inst : Nat) (data : Bytes) : (s.eventAt d src cause inst data).gin = s.gin := by
  obtain ⟨h, e⟩ := s.eventAt_host_only d src cause inst data; rw [e]
@[simp] theorem State.eventAt_pls (s : State) (d : Int) (src cause inst : Nat) (data : Bytes) : (s.eventAt d src cause inst data).pls = s.pls := by
  obtain ⟨h, e⟩ := s.eventAt_host_only d src cause inst data; rw [e]
@[simp] theorem State.eventAt_snap (s : State) (d : Int) (src cause inst : Nat) (data : Bytes) : (s.eventAt d src cause inst data).snap = s.snap := by
  obtain ⟨h, e⟩ := s.eventAt_host_only d src cause inst data; rw [e]
@[simp] theorem State.eventAt_tal (s : State) (d : Int) (src cause inst : Nat) (data : Bytes) : (s.eventAt d src cause inst data).tal = s.tal := by
  obtain ⟨h, e⟩ := s.eventAt_host_only d src cause inst data; rw [e]
@[simp] theorem State.eventAt_axes (s : State) (d : Int) (src cause inst : Nat) (data : Bytes) : (s.eventAt d src cause inst data).axes = s.axes := by
  obtain ⟨h, e⟩ := s.eventAt_host_only d src cause inst data; rw [e]
@[simp] theorem State.eventAt_loops (s : State) (d : Int) (src cause inst : Nat) (data : Bytes) : (s.eventAt d src cause inst data).loops = s.loops := by
  obtain ⟨h, e⟩ := s.eventAt_host_only d src cause inst data; rw [e]
@[simp] theorem State.eventAt_segs (s : State) (d : Int) (src cause inst : Nat) (data : Bytes) : (s.eventAt d src cause inst data).segs = s.segs := by
  obtain ⟨h, e⟩ := s.eventAt_host_only d src cause inst data; rw [e]
@[simp] theorem State.eventAt_mem (s : State) (d : Int) (src cause inst : Nat) (data : Bytes) : (s.eventAt d src cause inst data).mem = s.mem := by
  obtain ⟨h, e⟩ := s.eventAt_host_only d src cause inst data; rw [e]
@[simp] theorem State.eventAt_net (s : State) (d : Int) (src cause inst : Nat) (data : Bytes) : (s.eventAt d src cause inst data).net = s.net := by
  obtain ⟨h, e⟩ := s.eventAt_host_only d src cause inst data; rw [e]
@[simp] theorem State.eventAt_store (s : State) (d : Int) (src cause inst : Nat) (data : Bytes) : (s.eventAt d src cause inst data).store = s.store := by
  obtain ⟨h, e⟩ := s.eventAt_host_only d src cause inst data; rw [e]
@[simp] theorem State.eventAt_fab (s : State) (d : Int) (src cause inst : Nat) (data : Bytes) : (s.eventAt d src cause inst data).fab = s.fab := by
  obtain ⟨h, e⟩ := s.eventAt_host_only d src cause inst data; rw [e]
@[simp] theorem State.eventAt_lamp (s : State) (d : Int) (src cause inst : Nat) (data : Bytes) : (s.eventAt d src cause inst data).lamp = s.lamp := by
  obtain ⟨h, e⟩ := s.eventAt_host_only d src cause inst data; rw [e]
@[simp] theorem State.eventAt_mode (s : State) (d : Int) (src cause inst : Nat) (data : Bytes) : (s.eventAt d src cause inst data).mode = s.mode := by
  obtain ⟨h, e⟩ := s.eventAt_host_only d src cause inst data; rw [e]
@[simp] theorem State.eventAt_flt (s : State) (d : Int) (src cause inst : Nat) (data : Bytes) : (s.eventAt d src cause inst data).flt = s.flt := by
  obtain ⟨h, e⟩ := s.eventAt_host_only d src cause inst data; rw [e]
@[simp] theorem State.eventAt_cas (s : State) (d : Int) (src cause inst : Nat) (data : Bytes) : (s.eventAt d src cause inst data).cas = s.cas := by
  obtain ⟨h, e⟩ := s.eventAt_host_only d src cause inst data; rw [e]
@[simp] theorem State.eventAt_rej (s : State) (d : Int) (src cause inst : Nat) (data : Bytes) : (s.eventAt d src cause inst data).rej = s.rej := by
  obtain ⟨h, e⟩ := s.eventAt_host_only d src cause inst data; rw [e]
@[simp] theorem State.eventAt_vdda (s : State) (d : Int) (src cause inst : Nat) (data : Bytes) : (s.eventAt d src cause inst data).vdda = s.vdda := by
  obtain ⟨h, e⟩ := s.eventAt_host_only d src cause inst data; rw [e]
@[simp] theorem State.eventAt_adc (s : State) (d : Int) (src cause inst : Nat) (data : Bytes) : (s.eventAt d src cause inst data).adc = s.adc := by
  obtain ⟨h, e⟩ := s.eventAt_host_only d src cause inst data; rw [e]
@[simp] theorem State.eventAt_comp (s : State) (d : Int) (src cause inst : Nat) (data : Bytes) : (s.eventAt d src cause inst data).comp = s.comp := by
  obtain ⟨h, e⟩ := s.eventAt_host_only d src cause inst data; rw [e]
@[simp] theorem State.eventAt_notary (s : State) (d : Int) (src cause inst : Nat) (data : Bytes) : (s.eventAt d src cause inst data).notary = s.notary := by
  obtain ⟨h, e⟩ := s.eventAt_host_only d src cause inst data; rw [e]
@[simp] theorem State.eventAt_otp (s : State) (d : Int) (src cause inst : Nat) (data : Bytes) : (s.eventAt d src cause inst data).otp = s.otp := by
  obtain ⟨h, e⟩ := s.eventAt_host_only d src cause inst data; rw [e]
@[simp] theorem State.eventAt_led (s : State) (d : Int) (src cause inst : Nat) (data : Bytes) : (s.eventAt d src cause inst data).led = s.led := by
  obtain ⟨h, e⟩ := s.eventAt_host_only d src cause inst data; rw [e]
@[simp] theorem State.eventAt_ledScrub (s : State) (d : Int) (src cause inst : Nat) (data : Bytes) : (s.eventAt d src cause inst data).ledScrub = s.ledScrub := by
  obtain ⟨h, e⟩ := s.eventAt_host_only d src cause inst data; rw [e]
@[simp] theorem State.eventAt_ledScrubT (s : State) (d : Int) (src cause inst : Nat) (data : Bytes) : (s.eventAt d src cause inst data).ledScrubT = s.ledScrubT := by
  obtain ⟨h, e⟩ := s.eventAt_host_only d src cause inst data; rw [e]

@[simp] theorem State.event_pending (s : State) (src cause inst : Nat) (data : Bytes) : (s.event src cause inst data).pending = s.pending := by
  obtain ⟨h, e⟩ := s.event_host_only src cause inst data; rw [e]
@[simp] theorem State.event_freeIx (s : State) (src cause inst : Nat) (data : Bytes) : (s.event src cause inst data).freeIx = s.freeIx := by
  obtain ⟨h, e⟩ := s.event_host_only src cause inst data; rw [e]
@[simp] theorem State.event_out (s : State) (src cause inst : Nat) (data : Bytes) : (s.event src cause inst data).out = s.out := by
  obtain ⟨h, e⟩ := s.event_host_only src cause inst data; rw [e]
@[simp] theorem State.event_resp (s : State) (src cause inst : Nat) (data : Bytes) : (s.event src cause inst data).resp = s.resp := by
  obtain ⟨h, e⟩ := s.event_host_only src cause inst data; rw [e]
@[simp] theorem State.event_clk (s : State) (src cause inst : Nat) (data : Bytes) : (s.event src cause inst data).clk = s.clk := by
  obtain ⟨h, e⟩ := s.event_host_only src cause inst data; rw [e]
@[simp] theorem State.event_obj (s : State) (src cause inst : Nat) (data : Bytes) : (s.event src cause inst data).obj = s.obj := by
  obtain ⟨h, e⟩ := s.event_host_only src cause inst data; rw [e]
@[simp] theorem State.event_force (s : State) (src cause inst : Nat) (data : Bytes) : (s.event src cause inst data).force = s.force := by
  obtain ⟨h, e⟩ := s.event_host_only src cause inst data; rw [e]
@[simp] theorem State.event_waits (s : State) (src cause inst : Nat) (data : Bytes) : (s.event src cause inst data).waits = s.waits := by
  obtain ⟨h, e⟩ := s.event_host_only src cause inst data; rw [e]
@[simp] theorem State.event_enc (s : State) (src cause inst : Nat) (data : Bytes) : (s.event src cause inst data).enc = s.enc := by
  obtain ⟨h, e⟩ := s.event_host_only src cause inst data; rw [e]
@[simp] theorem State.event_lax (s : State) (src cause inst : Nat) (data : Bytes) : (s.event src cause inst data).lax = s.lax := by
  obtain ⟨h, e⟩ := s.event_host_only src cause inst data; rw [e]
@[simp] theorem State.event_gin (s : State) (src cause inst : Nat) (data : Bytes) : (s.event src cause inst data).gin = s.gin := by
  obtain ⟨h, e⟩ := s.event_host_only src cause inst data; rw [e]
@[simp] theorem State.event_pls (s : State) (src cause inst : Nat) (data : Bytes) : (s.event src cause inst data).pls = s.pls := by
  obtain ⟨h, e⟩ := s.event_host_only src cause inst data; rw [e]
@[simp] theorem State.event_snap (s : State) (src cause inst : Nat) (data : Bytes) : (s.event src cause inst data).snap = s.snap := by
  obtain ⟨h, e⟩ := s.event_host_only src cause inst data; rw [e]
@[simp] theorem State.event_tal (s : State) (src cause inst : Nat) (data : Bytes) : (s.event src cause inst data).tal = s.tal := by
  obtain ⟨h, e⟩ := s.event_host_only src cause inst data; rw [e]
@[simp] theorem State.event_axes (s : State) (src cause inst : Nat) (data : Bytes) : (s.event src cause inst data).axes = s.axes := by
  obtain ⟨h, e⟩ := s.event_host_only src cause inst data; rw [e]
@[simp] theorem State.event_loops (s : State) (src cause inst : Nat) (data : Bytes) : (s.event src cause inst data).loops = s.loops := by
  obtain ⟨h, e⟩ := s.event_host_only src cause inst data; rw [e]
@[simp] theorem State.event_segs (s : State) (src cause inst : Nat) (data : Bytes) : (s.event src cause inst data).segs = s.segs := by
  obtain ⟨h, e⟩ := s.event_host_only src cause inst data; rw [e]
@[simp] theorem State.event_mem (s : State) (src cause inst : Nat) (data : Bytes) : (s.event src cause inst data).mem = s.mem := by
  obtain ⟨h, e⟩ := s.event_host_only src cause inst data; rw [e]
@[simp] theorem State.event_net (s : State) (src cause inst : Nat) (data : Bytes) : (s.event src cause inst data).net = s.net := by
  obtain ⟨h, e⟩ := s.event_host_only src cause inst data; rw [e]
@[simp] theorem State.event_store (s : State) (src cause inst : Nat) (data : Bytes) : (s.event src cause inst data).store = s.store := by
  obtain ⟨h, e⟩ := s.event_host_only src cause inst data; rw [e]
@[simp] theorem State.event_fab (s : State) (src cause inst : Nat) (data : Bytes) : (s.event src cause inst data).fab = s.fab := by
  obtain ⟨h, e⟩ := s.event_host_only src cause inst data; rw [e]
@[simp] theorem State.event_lamp (s : State) (src cause inst : Nat) (data : Bytes) : (s.event src cause inst data).lamp = s.lamp := by
  obtain ⟨h, e⟩ := s.event_host_only src cause inst data; rw [e]
@[simp] theorem State.event_mode (s : State) (src cause inst : Nat) (data : Bytes) : (s.event src cause inst data).mode = s.mode := by
  obtain ⟨h, e⟩ := s.event_host_only src cause inst data; rw [e]
@[simp] theorem State.event_flt (s : State) (src cause inst : Nat) (data : Bytes) : (s.event src cause inst data).flt = s.flt := by
  obtain ⟨h, e⟩ := s.event_host_only src cause inst data; rw [e]
@[simp] theorem State.event_cas (s : State) (src cause inst : Nat) (data : Bytes) : (s.event src cause inst data).cas = s.cas := by
  obtain ⟨h, e⟩ := s.event_host_only src cause inst data; rw [e]
@[simp] theorem State.event_rej (s : State) (src cause inst : Nat) (data : Bytes) : (s.event src cause inst data).rej = s.rej := by
  obtain ⟨h, e⟩ := s.event_host_only src cause inst data; rw [e]
@[simp] theorem State.event_vdda (s : State) (src cause inst : Nat) (data : Bytes) : (s.event src cause inst data).vdda = s.vdda := by
  obtain ⟨h, e⟩ := s.event_host_only src cause inst data; rw [e]
@[simp] theorem State.event_adc (s : State) (src cause inst : Nat) (data : Bytes) : (s.event src cause inst data).adc = s.adc := by
  obtain ⟨h, e⟩ := s.event_host_only src cause inst data; rw [e]
@[simp] theorem State.event_comp (s : State) (src cause inst : Nat) (data : Bytes) : (s.event src cause inst data).comp = s.comp := by
  obtain ⟨h, e⟩ := s.event_host_only src cause inst data; rw [e]
@[simp] theorem State.event_notary (s : State) (src cause inst : Nat) (data : Bytes) : (s.event src cause inst data).notary = s.notary := by
  obtain ⟨h, e⟩ := s.event_host_only src cause inst data; rw [e]
@[simp] theorem State.event_otp (s : State) (src cause inst : Nat) (data : Bytes) : (s.event src cause inst data).otp = s.otp := by
  obtain ⟨h, e⟩ := s.event_host_only src cause inst data; rw [e]
@[simp] theorem State.event_led (s : State) (src cause inst : Nat) (data : Bytes) : (s.event src cause inst data).led = s.led := by
  obtain ⟨h, e⟩ := s.event_host_only src cause inst data; rw [e]
@[simp] theorem State.event_ledScrub (s : State) (src cause inst : Nat) (data : Bytes) : (s.event src cause inst data).ledScrub = s.ledScrub := by
  obtain ⟨h, e⟩ := s.event_host_only src cause inst data; rw [e]
@[simp] theorem State.event_ledScrubT (s : State) (src cause inst : Nat) (data : Bytes) : (s.event src cause inst data).ledScrubT = s.ledScrubT := by
  obtain ⟨h, e⟩ := s.event_host_only src cause inst data; rw [e]

@[simp] theorem State.dramWrite_pending (s : State) (a : Nat) (b : Bytes) : (s.dramWrite a b).pending = s.pending := rfl
@[simp] theorem State.dramWrite_freeIx (s : State) (a : Nat) (b : Bytes) : (s.dramWrite a b).freeIx = s.freeIx := rfl
@[simp] theorem State.dramWrite_out (s : State) (a : Nat) (b : Bytes) : (s.dramWrite a b).out = s.out := rfl
@[simp] theorem State.dramWrite_resp (s : State) (a : Nat) (b : Bytes) : (s.dramWrite a b).resp = s.resp := rfl
@[simp] theorem State.dramWrite_clk (s : State) (a : Nat) (b : Bytes) : (s.dramWrite a b).clk = s.clk := rfl
@[simp] theorem State.dramWrite_obj (s : State) (a : Nat) (b : Bytes) : (s.dramWrite a b).obj = s.obj := rfl
@[simp] theorem State.dramWrite_force (s : State) (a : Nat) (b : Bytes) : (s.dramWrite a b).force = s.force := rfl
@[simp] theorem State.dramWrite_waits (s : State) (a : Nat) (b : Bytes) : (s.dramWrite a b).waits = s.waits := rfl
@[simp] theorem State.dramWrite_enc (s : State) (a : Nat) (b : Bytes) : (s.dramWrite a b).enc = s.enc := rfl
@[simp] theorem State.dramWrite_lax (s : State) (a : Nat) (b : Bytes) : (s.dramWrite a b).lax = s.lax := rfl
@[simp] theorem State.dramWrite_gin (s : State) (a : Nat) (b : Bytes) : (s.dramWrite a b).gin = s.gin := rfl
@[simp] theorem State.dramWrite_pls (s : State) (a : Nat) (b : Bytes) : (s.dramWrite a b).pls = s.pls := rfl
@[simp] theorem State.dramWrite_snap (s : State) (a : Nat) (b : Bytes) : (s.dramWrite a b).snap = s.snap := rfl
@[simp] theorem State.dramWrite_tal (s : State) (a : Nat) (b : Bytes) : (s.dramWrite a b).tal = s.tal := rfl
@[simp] theorem State.dramWrite_axes (s : State) (a : Nat) (b : Bytes) : (s.dramWrite a b).axes = s.axes := rfl
@[simp] theorem State.dramWrite_loops (s : State) (a : Nat) (b : Bytes) : (s.dramWrite a b).loops = s.loops := rfl
@[simp] theorem State.dramWrite_segs (s : State) (a : Nat) (b : Bytes) : (s.dramWrite a b).segs = s.segs := rfl
@[simp] theorem State.dramWrite_host (s : State) (a : Nat) (b : Bytes) : (s.dramWrite a b).host = s.host := rfl
@[simp] theorem State.dramWrite_net (s : State) (a : Nat) (b : Bytes) : (s.dramWrite a b).net = s.net := rfl
@[simp] theorem State.dramWrite_store (s : State) (a : Nat) (b : Bytes) : (s.dramWrite a b).store = s.store := rfl
@[simp] theorem State.dramWrite_fab (s : State) (a : Nat) (b : Bytes) : (s.dramWrite a b).fab = s.fab := rfl
@[simp] theorem State.dramWrite_lamp (s : State) (a : Nat) (b : Bytes) : (s.dramWrite a b).lamp = s.lamp := rfl
@[simp] theorem State.dramWrite_mode (s : State) (a : Nat) (b : Bytes) : (s.dramWrite a b).mode = s.mode := rfl
@[simp] theorem State.dramWrite_flt (s : State) (a : Nat) (b : Bytes) : (s.dramWrite a b).flt = s.flt := rfl
@[simp] theorem State.dramWrite_cas (s : State) (a : Nat) (b : Bytes) : (s.dramWrite a b).cas = s.cas := rfl
@[simp] theorem State.dramWrite_rej (s : State) (a : Nat) (b : Bytes) : (s.dramWrite a b).rej = s.rej := rfl
@[simp] theorem State.dramWrite_vdda (s : State) (a : Nat) (b : Bytes) : (s.dramWrite a b).vdda = s.vdda := rfl
@[simp] theorem State.dramWrite_adc (s : State) (a : Nat) (b : Bytes) : (s.dramWrite a b).adc = s.adc := rfl
@[simp] theorem State.dramWrite_comp (s : State) (a : Nat) (b : Bytes) : (s.dramWrite a b).comp = s.comp := rfl
@[simp] theorem State.dramWrite_notary (s : State) (a : Nat) (b : Bytes) : (s.dramWrite a b).notary = s.notary := rfl
@[simp] theorem State.dramWrite_otp (s : State) (a : Nat) (b : Bytes) : (s.dramWrite a b).otp = s.otp := rfl
@[simp] theorem State.dramWrite_led (s : State) (a : Nat) (b : Bytes) : (s.dramWrite a b).led = s.led := rfl
@[simp] theorem State.dramWrite_ledScrub (s : State) (a : Nat) (b : Bytes) : (s.dramWrite a b).ledScrub = s.ledScrub := rfl
@[simp] theorem State.dramWrite_ledScrubT (s : State) (a : Nat) (b : Bytes) : (s.dramWrite a b).ledScrubT = s.ledScrubT := rfl

@[simp] theorem State.hostWrite_pending (s : State) (a : Nat) (b : Bytes) : (s.hostWrite a b).pending = s.pending := rfl
@[simp] theorem State.hostWrite_freeIx (s : State) (a : Nat) (b : Bytes) : (s.hostWrite a b).freeIx = s.freeIx := rfl
@[simp] theorem State.hostWrite_out (s : State) (a : Nat) (b : Bytes) : (s.hostWrite a b).out = s.out := rfl
@[simp] theorem State.hostWrite_resp (s : State) (a : Nat) (b : Bytes) : (s.hostWrite a b).resp = s.resp := rfl
@[simp] theorem State.hostWrite_clk (s : State) (a : Nat) (b : Bytes) : (s.hostWrite a b).clk = s.clk := rfl
@[simp] theorem State.hostWrite_obj (s : State) (a : Nat) (b : Bytes) : (s.hostWrite a b).obj = s.obj := rfl
@[simp] theorem State.hostWrite_force (s : State) (a : Nat) (b : Bytes) : (s.hostWrite a b).force = s.force := rfl
@[simp] theorem State.hostWrite_waits (s : State) (a : Nat) (b : Bytes) : (s.hostWrite a b).waits = s.waits := rfl
@[simp] theorem State.hostWrite_enc (s : State) (a : Nat) (b : Bytes) : (s.hostWrite a b).enc = s.enc := rfl
@[simp] theorem State.hostWrite_lax (s : State) (a : Nat) (b : Bytes) : (s.hostWrite a b).lax = s.lax := rfl
@[simp] theorem State.hostWrite_gin (s : State) (a : Nat) (b : Bytes) : (s.hostWrite a b).gin = s.gin := rfl
@[simp] theorem State.hostWrite_pls (s : State) (a : Nat) (b : Bytes) : (s.hostWrite a b).pls = s.pls := rfl
@[simp] theorem State.hostWrite_snap (s : State) (a : Nat) (b : Bytes) : (s.hostWrite a b).snap = s.snap := rfl
@[simp] theorem State.hostWrite_tal (s : State) (a : Nat) (b : Bytes) : (s.hostWrite a b).tal = s.tal := rfl
@[simp] theorem State.hostWrite_axes (s : State) (a : Nat) (b : Bytes) : (s.hostWrite a b).axes = s.axes := rfl
@[simp] theorem State.hostWrite_loops (s : State) (a : Nat) (b : Bytes) : (s.hostWrite a b).loops = s.loops := rfl
@[simp] theorem State.hostWrite_segs (s : State) (a : Nat) (b : Bytes) : (s.hostWrite a b).segs = s.segs := rfl
@[simp] theorem State.hostWrite_host (s : State) (a : Nat) (b : Bytes) : (s.hostWrite a b).host = s.host := rfl
@[simp] theorem State.hostWrite_net (s : State) (a : Nat) (b : Bytes) : (s.hostWrite a b).net = s.net := rfl
@[simp] theorem State.hostWrite_store (s : State) (a : Nat) (b : Bytes) : (s.hostWrite a b).store = s.store := rfl
@[simp] theorem State.hostWrite_fab (s : State) (a : Nat) (b : Bytes) : (s.hostWrite a b).fab = s.fab := rfl
@[simp] theorem State.hostWrite_lamp (s : State) (a : Nat) (b : Bytes) : (s.hostWrite a b).lamp = s.lamp := rfl
@[simp] theorem State.hostWrite_mode (s : State) (a : Nat) (b : Bytes) : (s.hostWrite a b).mode = s.mode := rfl
@[simp] theorem State.hostWrite_flt (s : State) (a : Nat) (b : Bytes) : (s.hostWrite a b).flt = s.flt := rfl
@[simp] theorem State.hostWrite_cas (s : State) (a : Nat) (b : Bytes) : (s.hostWrite a b).cas = s.cas := rfl
@[simp] theorem State.hostWrite_rej (s : State) (a : Nat) (b : Bytes) : (s.hostWrite a b).rej = s.rej := rfl
@[simp] theorem State.hostWrite_vdda (s : State) (a : Nat) (b : Bytes) : (s.hostWrite a b).vdda = s.vdda := rfl
@[simp] theorem State.hostWrite_adc (s : State) (a : Nat) (b : Bytes) : (s.hostWrite a b).adc = s.adc := rfl
@[simp] theorem State.hostWrite_comp (s : State) (a : Nat) (b : Bytes) : (s.hostWrite a b).comp = s.comp := rfl
@[simp] theorem State.hostWrite_notary (s : State) (a : Nat) (b : Bytes) : (s.hostWrite a b).notary = s.notary := rfl
@[simp] theorem State.hostWrite_otp (s : State) (a : Nat) (b : Bytes) : (s.hostWrite a b).otp = s.otp := rfl
@[simp] theorem State.hostWrite_led (s : State) (a : Nat) (b : Bytes) : (s.hostWrite a b).led = s.led := rfl
@[simp] theorem State.hostWrite_ledScrub (s : State) (a : Nat) (b : Bytes) : (s.hostWrite a b).ledScrub = s.ledScrub := rfl
@[simp] theorem State.hostWrite_ledScrubT (s : State) (a : Nat) (b : Bytes) : (s.hostWrite a b).ledScrubT = s.ledScrubT := rfl

@[simp] theorem State.flashWrite_pending (s : State) (a : Nat) (b : Bytes) : (s.flashWrite a b).pending = s.pending := rfl
@[simp] theorem State.flashWrite_freeIx (s : State) (a : Nat) (b : Bytes) : (s.flashWrite a b).freeIx = s.freeIx := rfl
@[simp] theorem State.flashWrite_out (s : State) (a : Nat) (b : Bytes) : (s.flashWrite a b).out = s.out := rfl
@[simp] theorem State.flashWrite_resp (s : State) (a : Nat) (b : Bytes) : (s.flashWrite a b).resp = s.resp := rfl
@[simp] theorem State.flashWrite_clk (s : State) (a : Nat) (b : Bytes) : (s.flashWrite a b).clk = s.clk := rfl
@[simp] theorem State.flashWrite_obj (s : State) (a : Nat) (b : Bytes) : (s.flashWrite a b).obj = s.obj := rfl
@[simp] theorem State.flashWrite_force (s : State) (a : Nat) (b : Bytes) : (s.flashWrite a b).force = s.force := rfl
@[simp] theorem State.flashWrite_waits (s : State) (a : Nat) (b : Bytes) : (s.flashWrite a b).waits = s.waits := rfl
@[simp] theorem State.flashWrite_enc (s : State) (a : Nat) (b : Bytes) : (s.flashWrite a b).enc = s.enc := rfl
@[simp] theorem State.flashWrite_lax (s : State) (a : Nat) (b : Bytes) : (s.flashWrite a b).lax = s.lax := rfl
@[simp] theorem State.flashWrite_gin (s : State) (a : Nat) (b : Bytes) : (s.flashWrite a b).gin = s.gin := rfl
@[simp] theorem State.flashWrite_pls (s : State) (a : Nat) (b : Bytes) : (s.flashWrite a b).pls = s.pls := rfl
@[simp] theorem State.flashWrite_snap (s : State) (a : Nat) (b : Bytes) : (s.flashWrite a b).snap = s.snap := rfl
@[simp] theorem State.flashWrite_tal (s : State) (a : Nat) (b : Bytes) : (s.flashWrite a b).tal = s.tal := rfl
@[simp] theorem State.flashWrite_axes (s : State) (a : Nat) (b : Bytes) : (s.flashWrite a b).axes = s.axes := rfl
@[simp] theorem State.flashWrite_loops (s : State) (a : Nat) (b : Bytes) : (s.flashWrite a b).loops = s.loops := rfl
@[simp] theorem State.flashWrite_segs (s : State) (a : Nat) (b : Bytes) : (s.flashWrite a b).segs = s.segs := rfl
@[simp] theorem State.flashWrite_host (s : State) (a : Nat) (b : Bytes) : (s.flashWrite a b).host = s.host := rfl
@[simp] theorem State.flashWrite_net (s : State) (a : Nat) (b : Bytes) : (s.flashWrite a b).net = s.net := rfl
@[simp] theorem State.flashWrite_store (s : State) (a : Nat) (b : Bytes) : (s.flashWrite a b).store = s.store := rfl
@[simp] theorem State.flashWrite_fab (s : State) (a : Nat) (b : Bytes) : (s.flashWrite a b).fab = s.fab := rfl
@[simp] theorem State.flashWrite_lamp (s : State) (a : Nat) (b : Bytes) : (s.flashWrite a b).lamp = s.lamp := rfl
@[simp] theorem State.flashWrite_mode (s : State) (a : Nat) (b : Bytes) : (s.flashWrite a b).mode = s.mode := rfl
@[simp] theorem State.flashWrite_flt (s : State) (a : Nat) (b : Bytes) : (s.flashWrite a b).flt = s.flt := rfl
@[simp] theorem State.flashWrite_cas (s : State) (a : Nat) (b : Bytes) : (s.flashWrite a b).cas = s.cas := rfl
@[simp] theorem State.flashWrite_rej (s : State) (a : Nat) (b : Bytes) : (s.flashWrite a b).rej = s.rej := rfl
@[simp] theorem State.flashWrite_vdda (s : State) (a : Nat) (b : Bytes) : (s.flashWrite a b).vdda = s.vdda := rfl
@[simp] theorem State.flashWrite_adc (s : State) (a : Nat) (b : Bytes) : (s.flashWrite a b).adc = s.adc := rfl
@[simp] theorem State.flashWrite_comp (s : State) (a : Nat) (b : Bytes) : (s.flashWrite a b).comp = s.comp := rfl
@[simp] theorem State.flashWrite_notary (s : State) (a : Nat) (b : Bytes) : (s.flashWrite a b).notary = s.notary := rfl
@[simp] theorem State.flashWrite_otp (s : State) (a : Nat) (b : Bytes) : (s.flashWrite a b).otp = s.otp := rfl
@[simp] theorem State.flashWrite_led (s : State) (a : Nat) (b : Bytes) : (s.flashWrite a b).led = s.led := rfl
@[simp] theorem State.flashWrite_ledScrub (s : State) (a : Nat) (b : Bytes) : (s.flashWrite a b).ledScrub = s.ledScrub := rfl
@[simp] theorem State.flashWrite_ledScrubT (s : State) (a : Nat) (b : Bytes) : (s.flashWrite a b).ledScrubT = s.ledScrubT := rfl

@[simp] theorem State.tick_val (s : State) (t : Time) (j : Nat) : (s.tick t).val j = s.val j := rfl
@[simp] theorem State.tick_num (s : State) (t : Time) (j : Nat) : (s.tick t).num j = s.num j := rfl
@[simp] theorem State.tick_nat (s : State) (t : Time) (j : Nat) : (s.tick t).nat j = s.nat j := rfl
@[simp] theorem State.tick_modeN (s : State) (t : Time) : (s.tick t).modeN = s.modeN := rfl
@[simp] theorem State.tick_frc (s : State) (t : Time) (j : Nat) : (s.tick t).frc j = s.frc j := rfl
@[simp] theorem State.tick_frcN (s : State) (t : Time) (j : Nat) : (s.tick t).frcN j = s.frcN j := rfl
@[simp] theorem State.tick_encOf (s : State) (t : Time) (j : Nat) : (s.tick t).encOf j = s.encOf j := rfl
@[simp] theorem State.tick_laxOf (s : State) (t : Time) (j : Nat) : (s.tick t).laxOf j = s.laxOf j := rfl
@[simp] theorem State.tick_ginOf (s : State) (t : Time) (j : Nat) : (s.tick t).ginOf j = s.ginOf j := rfl
@[simp] theorem State.tick_plsOf (s : State) (t : Time) (j : Nat) : (s.tick t).plsOf j = s.plsOf j := rfl
@[simp] theorem State.tick_talOf (s : State) (t : Time) (j : Nat) : (s.tick t).talOf j = s.talOf j := rfl
@[simp] theorem State.tick_axOf (s : State) (t : Time) (j : Nat) : (s.tick t).axOf j = s.axOf j := rfl
@[simp] theorem State.tick_loopOf (s : State) (t : Time) (j : Nat) : (s.tick t).loopOf j = s.loopOf j := rfl
@[simp] theorem State.tick_qOf (s : State) (t : Time) (j : Nat) : (s.tick t).qOf j = s.qOf j := rfl
@[simp] theorem State.tick_canOf (s : State) (t : Time) (j : Nat) : (s.tick t).canOf j = s.canOf j := rfl
@[simp] theorem State.tick_railOf (s : State) (t : Time) (j : Nat) : (s.tick t).railOf j = s.railOf j := rfl
@[simp] theorem State.tick_casOf (s : State) (t : Time) (j : Nat) : (s.tick t).casOf j = s.casOf j := rfl
@[simp] theorem State.tick_exOf (s : State) (t : Time) (j : Nat) : (s.tick t).exOf j = s.exOf j := rfl

@[simp] theorem State.answer_val (s : State) (r : Resp) (j : Nat) : (s.answer r).val j = s.val j := rfl
@[simp] theorem State.answer_num (s : State) (r : Resp) (j : Nat) : (s.answer r).num j = s.num j := rfl
@[simp] theorem State.answer_nat (s : State) (r : Resp) (j : Nat) : (s.answer r).nat j = s.nat j := rfl
@[simp] theorem State.answer_modeN (s : State) (r : Resp) : (s.answer r).modeN = s.modeN := rfl
@[simp] theorem State.answer_frc (s : State) (r : Resp) (j : Nat) : (s.answer r).frc j = s.frc j := rfl
@[simp] theorem State.answer_frcN (s : State) (r : Resp) (j : Nat) : (s.answer r).frcN j = s.frcN j := rfl
@[simp] theorem State.answer_encOf (s : State) (r : Resp) (j : Nat) : (s.answer r).encOf j = s.encOf j := rfl
@[simp] theorem State.answer_laxOf (s : State) (r : Resp) (j : Nat) : (s.answer r).laxOf j = s.laxOf j := rfl
@[simp] theorem State.answer_ginOf (s : State) (r : Resp) (j : Nat) : (s.answer r).ginOf j = s.ginOf j := rfl
@[simp] theorem State.answer_plsOf (s : State) (r : Resp) (j : Nat) : (s.answer r).plsOf j = s.plsOf j := rfl
@[simp] theorem State.answer_talOf (s : State) (r : Resp) (j : Nat) : (s.answer r).talOf j = s.talOf j := rfl
@[simp] theorem State.answer_axOf (s : State) (r : Resp) (j : Nat) : (s.answer r).axOf j = s.axOf j := rfl
@[simp] theorem State.answer_loopOf (s : State) (r : Resp) (j : Nat) : (s.answer r).loopOf j = s.loopOf j := rfl
@[simp] theorem State.answer_qOf (s : State) (r : Resp) (j : Nat) : (s.answer r).qOf j = s.qOf j := rfl
@[simp] theorem State.answer_canOf (s : State) (r : Resp) (j : Nat) : (s.answer r).canOf j = s.canOf j := rfl
@[simp] theorem State.answer_railOf (s : State) (r : Resp) (j : Nat) : (s.answer r).railOf j = s.railOf j := rfl
@[simp] theorem State.answer_casOf (s : State) (r : Resp) (j : Nat) : (s.answer r).casOf j = s.casOf j := rfl
@[simp] theorem State.answer_exOf (s : State) (r : Resp) (j : Nat) : (s.answer r).exOf j = s.exOf j := rfl
@[simp] theorem State.answer_now (s : State) (r : Resp) : (s.answer r).now = s.now := rfl

@[simp] theorem State.send_val (s : State) (o : Out) (j : Nat) : (s.send o).val j = s.val j := rfl
@[simp] theorem State.send_num (s : State) (o : Out) (j : Nat) : (s.send o).num j = s.num j := rfl
@[simp] theorem State.send_nat (s : State) (o : Out) (j : Nat) : (s.send o).nat j = s.nat j := rfl
@[simp] theorem State.send_modeN (s : State) (o : Out) : (s.send o).modeN = s.modeN := rfl
@[simp] theorem State.send_frc (s : State) (o : Out) (j : Nat) : (s.send o).frc j = s.frc j := rfl
@[simp] theorem State.send_frcN (s : State) (o : Out) (j : Nat) : (s.send o).frcN j = s.frcN j := rfl
@[simp] theorem State.send_encOf (s : State) (o : Out) (j : Nat) : (s.send o).encOf j = s.encOf j := rfl
@[simp] theorem State.send_laxOf (s : State) (o : Out) (j : Nat) : (s.send o).laxOf j = s.laxOf j := rfl
@[simp] theorem State.send_ginOf (s : State) (o : Out) (j : Nat) : (s.send o).ginOf j = s.ginOf j := rfl
@[simp] theorem State.send_plsOf (s : State) (o : Out) (j : Nat) : (s.send o).plsOf j = s.plsOf j := rfl
@[simp] theorem State.send_talOf (s : State) (o : Out) (j : Nat) : (s.send o).talOf j = s.talOf j := rfl
@[simp] theorem State.send_axOf (s : State) (o : Out) (j : Nat) : (s.send o).axOf j = s.axOf j := rfl
@[simp] theorem State.send_loopOf (s : State) (o : Out) (j : Nat) : (s.send o).loopOf j = s.loopOf j := rfl
@[simp] theorem State.send_qOf (s : State) (o : Out) (j : Nat) : (s.send o).qOf j = s.qOf j := rfl
@[simp] theorem State.send_canOf (s : State) (o : Out) (j : Nat) : (s.send o).canOf j = s.canOf j := rfl
@[simp] theorem State.send_railOf (s : State) (o : Out) (j : Nat) : (s.send o).railOf j = s.railOf j := rfl
@[simp] theorem State.send_casOf (s : State) (o : Out) (j : Nat) : (s.send o).casOf j = s.casOf j := rfl
@[simp] theorem State.send_exOf (s : State) (o : Out) (j : Nat) : (s.send o).exOf j = s.exOf j := rfl
@[simp] theorem State.send_now (s : State) (o : Out) : (s.send o).now = s.now := rfl

@[simp] theorem State.setEnc_val (s : State) (e : Nat) (v : Enc) (j : Nat) : (s.setEnc e v).val j = s.val j := rfl
@[simp] theorem State.setEnc_num (s : State) (e : Nat) (v : Enc) (j : Nat) : (s.setEnc e v).num j = s.num j := rfl
@[simp] theorem State.setEnc_nat (s : State) (e : Nat) (v : Enc) (j : Nat) : (s.setEnc e v).nat j = s.nat j := rfl
@[simp] theorem State.setEnc_modeN (s : State) (e : Nat) (v : Enc) : (s.setEnc e v).modeN = s.modeN := rfl
@[simp] theorem State.setEnc_frc (s : State) (e : Nat) (v : Enc) (j : Nat) : (s.setEnc e v).frc j = s.frc j := rfl
@[simp] theorem State.setEnc_frcN (s : State) (e : Nat) (v : Enc) (j : Nat) : (s.setEnc e v).frcN j = s.frcN j := rfl
@[simp] theorem State.setEnc_laxOf (s : State) (e : Nat) (v : Enc) (j : Nat) : (s.setEnc e v).laxOf j = s.laxOf j := rfl
@[simp] theorem State.setEnc_ginOf (s : State) (e : Nat) (v : Enc) (j : Nat) : (s.setEnc e v).ginOf j = s.ginOf j := rfl
@[simp] theorem State.setEnc_plsOf (s : State) (e : Nat) (v : Enc) (j : Nat) : (s.setEnc e v).plsOf j = s.plsOf j := rfl
@[simp] theorem State.setEnc_talOf (s : State) (e : Nat) (v : Enc) (j : Nat) : (s.setEnc e v).talOf j = s.talOf j := rfl
@[simp] theorem State.setEnc_axOf (s : State) (e : Nat) (v : Enc) (j : Nat) : (s.setEnc e v).axOf j = s.axOf j := rfl
@[simp] theorem State.setEnc_loopOf (s : State) (e : Nat) (v : Enc) (j : Nat) : (s.setEnc e v).loopOf j = s.loopOf j := rfl
@[simp] theorem State.setEnc_qOf (s : State) (e : Nat) (v : Enc) (j : Nat) : (s.setEnc e v).qOf j = s.qOf j := rfl
@[simp] theorem State.setEnc_canOf (s : State) (e : Nat) (v : Enc) (j : Nat) : (s.setEnc e v).canOf j = s.canOf j := rfl
@[simp] theorem State.setEnc_railOf (s : State) (e : Nat) (v : Enc) (j : Nat) : (s.setEnc e v).railOf j = s.railOf j := rfl
@[simp] theorem State.setEnc_casOf (s : State) (e : Nat) (v : Enc) (j : Nat) : (s.setEnc e v).casOf j = s.casOf j := rfl
@[simp] theorem State.setEnc_exOf (s : State) (e : Nat) (v : Enc) (j : Nat) : (s.setEnc e v).exOf j = s.exOf j := rfl
@[simp] theorem State.setEnc_now (s : State) (e : Nat) (v : Enc) : (s.setEnc e v).now = s.now := rfl

@[simp] theorem State.setLax_val (s : State) (k : Nat) (v : Lax) (j : Nat) : (s.setLax k v).val j = s.val j := rfl
@[simp] theorem State.setLax_num (s : State) (k : Nat) (v : Lax) (j : Nat) : (s.setLax k v).num j = s.num j := rfl
@[simp] theorem State.setLax_nat (s : State) (k : Nat) (v : Lax) (j : Nat) : (s.setLax k v).nat j = s.nat j := rfl
@[simp] theorem State.setLax_modeN (s : State) (k : Nat) (v : Lax) : (s.setLax k v).modeN = s.modeN := rfl
@[simp] theorem State.setLax_frc (s : State) (k : Nat) (v : Lax) (j : Nat) : (s.setLax k v).frc j = s.frc j := rfl
@[simp] theorem State.setLax_frcN (s : State) (k : Nat) (v : Lax) (j : Nat) : (s.setLax k v).frcN j = s.frcN j := rfl
@[simp] theorem State.setLax_encOf (s : State) (k : Nat) (v : Lax) (j : Nat) : (s.setLax k v).encOf j = s.encOf j := rfl
@[simp] theorem State.setLax_ginOf (s : State) (k : Nat) (v : Lax) (j : Nat) : (s.setLax k v).ginOf j = s.ginOf j := rfl
@[simp] theorem State.setLax_plsOf (s : State) (k : Nat) (v : Lax) (j : Nat) : (s.setLax k v).plsOf j = s.plsOf j := rfl
@[simp] theorem State.setLax_talOf (s : State) (k : Nat) (v : Lax) (j : Nat) : (s.setLax k v).talOf j = s.talOf j := rfl
@[simp] theorem State.setLax_axOf (s : State) (k : Nat) (v : Lax) (j : Nat) : (s.setLax k v).axOf j = s.axOf j := rfl
@[simp] theorem State.setLax_loopOf (s : State) (k : Nat) (v : Lax) (j : Nat) : (s.setLax k v).loopOf j = s.loopOf j := rfl
@[simp] theorem State.setLax_qOf (s : State) (k : Nat) (v : Lax) (j : Nat) : (s.setLax k v).qOf j = s.qOf j := rfl
@[simp] theorem State.setLax_canOf (s : State) (k : Nat) (v : Lax) (j : Nat) : (s.setLax k v).canOf j = s.canOf j := rfl
@[simp] theorem State.setLax_railOf (s : State) (k : Nat) (v : Lax) (j : Nat) : (s.setLax k v).railOf j = s.railOf j := rfl
@[simp] theorem State.setLax_casOf (s : State) (k : Nat) (v : Lax) (j : Nat) : (s.setLax k v).casOf j = s.casOf j := rfl
@[simp] theorem State.setLax_exOf (s : State) (k : Nat) (v : Lax) (j : Nat) : (s.setLax k v).exOf j = s.exOf j := rfl
@[simp] theorem State.setLax_now (s : State) (k : Nat) (v : Lax) : (s.setLax k v).now = s.now := rfl

@[simp] theorem State.setGin_val (s : State) (n : Nat) (v : Gin) (j : Nat) : (s.setGin n v).val j = s.val j := rfl
@[simp] theorem State.setGin_num (s : State) (n : Nat) (v : Gin) (j : Nat) : (s.setGin n v).num j = s.num j := rfl
@[simp] theorem State.setGin_nat (s : State) (n : Nat) (v : Gin) (j : Nat) : (s.setGin n v).nat j = s.nat j := rfl
@[simp] theorem State.setGin_modeN (s : State) (n : Nat) (v : Gin) : (s.setGin n v).modeN = s.modeN := rfl
@[simp] theorem State.setGin_frc (s : State) (n : Nat) (v : Gin) (j : Nat) : (s.setGin n v).frc j = s.frc j := rfl
@[simp] theorem State.setGin_frcN (s : State) (n : Nat) (v : Gin) (j : Nat) : (s.setGin n v).frcN j = s.frcN j := rfl
@[simp] theorem State.setGin_encOf (s : State) (n : Nat) (v : Gin) (j : Nat) : (s.setGin n v).encOf j = s.encOf j := rfl
@[simp] theorem State.setGin_laxOf (s : State) (n : Nat) (v : Gin) (j : Nat) : (s.setGin n v).laxOf j = s.laxOf j := rfl
@[simp] theorem State.setGin_plsOf (s : State) (n : Nat) (v : Gin) (j : Nat) : (s.setGin n v).plsOf j = s.plsOf j := rfl
@[simp] theorem State.setGin_talOf (s : State) (n : Nat) (v : Gin) (j : Nat) : (s.setGin n v).talOf j = s.talOf j := rfl
@[simp] theorem State.setGin_axOf (s : State) (n : Nat) (v : Gin) (j : Nat) : (s.setGin n v).axOf j = s.axOf j := rfl
@[simp] theorem State.setGin_loopOf (s : State) (n : Nat) (v : Gin) (j : Nat) : (s.setGin n v).loopOf j = s.loopOf j := rfl
@[simp] theorem State.setGin_qOf (s : State) (n : Nat) (v : Gin) (j : Nat) : (s.setGin n v).qOf j = s.qOf j := rfl
@[simp] theorem State.setGin_canOf (s : State) (n : Nat) (v : Gin) (j : Nat) : (s.setGin n v).canOf j = s.canOf j := rfl
@[simp] theorem State.setGin_railOf (s : State) (n : Nat) (v : Gin) (j : Nat) : (s.setGin n v).railOf j = s.railOf j := rfl
@[simp] theorem State.setGin_casOf (s : State) (n : Nat) (v : Gin) (j : Nat) : (s.setGin n v).casOf j = s.casOf j := rfl
@[simp] theorem State.setGin_exOf (s : State) (n : Nat) (v : Gin) (j : Nat) : (s.setGin n v).exOf j = s.exOf j := rfl
@[simp] theorem State.setGin_now (s : State) (n : Nat) (v : Gin) : (s.setGin n v).now = s.now := rfl

@[simp] theorem State.setPls_val (s : State) (n : Nat) (v : Pls) (j : Nat) : (s.setPls n v).val j = s.val j := rfl
@[simp] theorem State.setPls_num (s : State) (n : Nat) (v : Pls) (j : Nat) : (s.setPls n v).num j = s.num j := rfl
@[simp] theorem State.setPls_nat (s : State) (n : Nat) (v : Pls) (j : Nat) : (s.setPls n v).nat j = s.nat j := rfl
@[simp] theorem State.setPls_modeN (s : State) (n : Nat) (v : Pls) : (s.setPls n v).modeN = s.modeN := rfl
@[simp] theorem State.setPls_frc (s : State) (n : Nat) (v : Pls) (j : Nat) : (s.setPls n v).frc j = s.frc j := rfl
@[simp] theorem State.setPls_frcN (s : State) (n : Nat) (v : Pls) (j : Nat) : (s.setPls n v).frcN j = s.frcN j := rfl
@[simp] theorem State.setPls_encOf (s : State) (n : Nat) (v : Pls) (j : Nat) : (s.setPls n v).encOf j = s.encOf j := rfl
@[simp] theorem State.setPls_laxOf (s : State) (n : Nat) (v : Pls) (j : Nat) : (s.setPls n v).laxOf j = s.laxOf j := rfl
@[simp] theorem State.setPls_ginOf (s : State) (n : Nat) (v : Pls) (j : Nat) : (s.setPls n v).ginOf j = s.ginOf j := rfl
@[simp] theorem State.setPls_talOf (s : State) (n : Nat) (v : Pls) (j : Nat) : (s.setPls n v).talOf j = s.talOf j := rfl
@[simp] theorem State.setPls_axOf (s : State) (n : Nat) (v : Pls) (j : Nat) : (s.setPls n v).axOf j = s.axOf j := rfl
@[simp] theorem State.setPls_loopOf (s : State) (n : Nat) (v : Pls) (j : Nat) : (s.setPls n v).loopOf j = s.loopOf j := rfl
@[simp] theorem State.setPls_qOf (s : State) (n : Nat) (v : Pls) (j : Nat) : (s.setPls n v).qOf j = s.qOf j := rfl
@[simp] theorem State.setPls_canOf (s : State) (n : Nat) (v : Pls) (j : Nat) : (s.setPls n v).canOf j = s.canOf j := rfl
@[simp] theorem State.setPls_railOf (s : State) (n : Nat) (v : Pls) (j : Nat) : (s.setPls n v).railOf j = s.railOf j := rfl
@[simp] theorem State.setPls_casOf (s : State) (n : Nat) (v : Pls) (j : Nat) : (s.setPls n v).casOf j = s.casOf j := rfl
@[simp] theorem State.setPls_exOf (s : State) (n : Nat) (v : Pls) (j : Nat) : (s.setPls n v).exOf j = s.exOf j := rfl
@[simp] theorem State.setPls_now (s : State) (n : Nat) (v : Pls) : (s.setPls n v).now = s.now := rfl

@[simp] theorem State.setTal_val (s : State) (n : Nat) (v : Tal) (j : Nat) : (s.setTal n v).val j = s.val j := rfl
@[simp] theorem State.setTal_num (s : State) (n : Nat) (v : Tal) (j : Nat) : (s.setTal n v).num j = s.num j := rfl
@[simp] theorem State.setTal_nat (s : State) (n : Nat) (v : Tal) (j : Nat) : (s.setTal n v).nat j = s.nat j := rfl
@[simp] theorem State.setTal_modeN (s : State) (n : Nat) (v : Tal) : (s.setTal n v).modeN = s.modeN := rfl
@[simp] theorem State.setTal_frc (s : State) (n : Nat) (v : Tal) (j : Nat) : (s.setTal n v).frc j = s.frc j := rfl
@[simp] theorem State.setTal_frcN (s : State) (n : Nat) (v : Tal) (j : Nat) : (s.setTal n v).frcN j = s.frcN j := rfl
@[simp] theorem State.setTal_encOf (s : State) (n : Nat) (v : Tal) (j : Nat) : (s.setTal n v).encOf j = s.encOf j := rfl
@[simp] theorem State.setTal_laxOf (s : State) (n : Nat) (v : Tal) (j : Nat) : (s.setTal n v).laxOf j = s.laxOf j := rfl
@[simp] theorem State.setTal_ginOf (s : State) (n : Nat) (v : Tal) (j : Nat) : (s.setTal n v).ginOf j = s.ginOf j := rfl
@[simp] theorem State.setTal_plsOf (s : State) (n : Nat) (v : Tal) (j : Nat) : (s.setTal n v).plsOf j = s.plsOf j := rfl
@[simp] theorem State.setTal_axOf (s : State) (n : Nat) (v : Tal) (j : Nat) : (s.setTal n v).axOf j = s.axOf j := rfl
@[simp] theorem State.setTal_loopOf (s : State) (n : Nat) (v : Tal) (j : Nat) : (s.setTal n v).loopOf j = s.loopOf j := rfl
@[simp] theorem State.setTal_qOf (s : State) (n : Nat) (v : Tal) (j : Nat) : (s.setTal n v).qOf j = s.qOf j := rfl
@[simp] theorem State.setTal_canOf (s : State) (n : Nat) (v : Tal) (j : Nat) : (s.setTal n v).canOf j = s.canOf j := rfl
@[simp] theorem State.setTal_railOf (s : State) (n : Nat) (v : Tal) (j : Nat) : (s.setTal n v).railOf j = s.railOf j := rfl
@[simp] theorem State.setTal_casOf (s : State) (n : Nat) (v : Tal) (j : Nat) : (s.setTal n v).casOf j = s.casOf j := rfl
@[simp] theorem State.setTal_exOf (s : State) (n : Nat) (v : Tal) (j : Nat) : (s.setTal n v).exOf j = s.exOf j := rfl
@[simp] theorem State.setTal_now (s : State) (n : Nat) (v : Tal) : (s.setTal n v).now = s.now := rfl

@[simp] theorem State.setAx_val (s : State) (a : Nat) (v : Axis) (j : Nat) : (s.setAx a v).val j = s.val j := rfl
@[simp] theorem State.setAx_num (s : State) (a : Nat) (v : Axis) (j : Nat) : (s.setAx a v).num j = s.num j := rfl
@[simp] theorem State.setAx_nat (s : State) (a : Nat) (v : Axis) (j : Nat) : (s.setAx a v).nat j = s.nat j := rfl
@[simp] theorem State.setAx_modeN (s : State) (a : Nat) (v : Axis) : (s.setAx a v).modeN = s.modeN := rfl
@[simp] theorem State.setAx_frc (s : State) (a : Nat) (v : Axis) (j : Nat) : (s.setAx a v).frc j = s.frc j := rfl
@[simp] theorem State.setAx_frcN (s : State) (a : Nat) (v : Axis) (j : Nat) : (s.setAx a v).frcN j = s.frcN j := rfl
@[simp] theorem State.setAx_encOf (s : State) (a : Nat) (v : Axis) (j : Nat) : (s.setAx a v).encOf j = s.encOf j := rfl
@[simp] theorem State.setAx_laxOf (s : State) (a : Nat) (v : Axis) (j : Nat) : (s.setAx a v).laxOf j = s.laxOf j := rfl
@[simp] theorem State.setAx_ginOf (s : State) (a : Nat) (v : Axis) (j : Nat) : (s.setAx a v).ginOf j = s.ginOf j := rfl
@[simp] theorem State.setAx_plsOf (s : State) (a : Nat) (v : Axis) (j : Nat) : (s.setAx a v).plsOf j = s.plsOf j := rfl
@[simp] theorem State.setAx_talOf (s : State) (a : Nat) (v : Axis) (j : Nat) : (s.setAx a v).talOf j = s.talOf j := rfl
@[simp] theorem State.setAx_loopOf (s : State) (a : Nat) (v : Axis) (j : Nat) : (s.setAx a v).loopOf j = s.loopOf j := rfl
@[simp] theorem State.setAx_qOf (s : State) (a : Nat) (v : Axis) (j : Nat) : (s.setAx a v).qOf j = s.qOf j := rfl
@[simp] theorem State.setAx_canOf (s : State) (a : Nat) (v : Axis) (j : Nat) : (s.setAx a v).canOf j = s.canOf j := rfl
@[simp] theorem State.setAx_railOf (s : State) (a : Nat) (v : Axis) (j : Nat) : (s.setAx a v).railOf j = s.railOf j := rfl
@[simp] theorem State.setAx_casOf (s : State) (a : Nat) (v : Axis) (j : Nat) : (s.setAx a v).casOf j = s.casOf j := rfl
@[simp] theorem State.setAx_exOf (s : State) (a : Nat) (v : Axis) (j : Nat) : (s.setAx a v).exOf j = s.exOf j := rfl
@[simp] theorem State.setAx_now (s : State) (a : Nat) (v : Axis) : (s.setAx a v).now = s.now := rfl

@[simp] theorem State.setLoop_val (s : State) (n : Nat) (v : Loop) (j : Nat) : (s.setLoop n v).val j = s.val j := rfl
@[simp] theorem State.setLoop_num (s : State) (n : Nat) (v : Loop) (j : Nat) : (s.setLoop n v).num j = s.num j := rfl
@[simp] theorem State.setLoop_nat (s : State) (n : Nat) (v : Loop) (j : Nat) : (s.setLoop n v).nat j = s.nat j := rfl
@[simp] theorem State.setLoop_modeN (s : State) (n : Nat) (v : Loop) : (s.setLoop n v).modeN = s.modeN := rfl
@[simp] theorem State.setLoop_frc (s : State) (n : Nat) (v : Loop) (j : Nat) : (s.setLoop n v).frc j = s.frc j := rfl
@[simp] theorem State.setLoop_frcN (s : State) (n : Nat) (v : Loop) (j : Nat) : (s.setLoop n v).frcN j = s.frcN j := rfl
@[simp] theorem State.setLoop_encOf (s : State) (n : Nat) (v : Loop) (j : Nat) : (s.setLoop n v).encOf j = s.encOf j := rfl
@[simp] theorem State.setLoop_laxOf (s : State) (n : Nat) (v : Loop) (j : Nat) : (s.setLoop n v).laxOf j = s.laxOf j := rfl
@[simp] theorem State.setLoop_ginOf (s : State) (n : Nat) (v : Loop) (j : Nat) : (s.setLoop n v).ginOf j = s.ginOf j := rfl
@[simp] theorem State.setLoop_plsOf (s : State) (n : Nat) (v : Loop) (j : Nat) : (s.setLoop n v).plsOf j = s.plsOf j := rfl
@[simp] theorem State.setLoop_talOf (s : State) (n : Nat) (v : Loop) (j : Nat) : (s.setLoop n v).talOf j = s.talOf j := rfl
@[simp] theorem State.setLoop_axOf (s : State) (n : Nat) (v : Loop) (j : Nat) : (s.setLoop n v).axOf j = s.axOf j := rfl
@[simp] theorem State.setLoop_qOf (s : State) (n : Nat) (v : Loop) (j : Nat) : (s.setLoop n v).qOf j = s.qOf j := rfl
@[simp] theorem State.setLoop_canOf (s : State) (n : Nat) (v : Loop) (j : Nat) : (s.setLoop n v).canOf j = s.canOf j := rfl
@[simp] theorem State.setLoop_railOf (s : State) (n : Nat) (v : Loop) (j : Nat) : (s.setLoop n v).railOf j = s.railOf j := rfl
@[simp] theorem State.setLoop_casOf (s : State) (n : Nat) (v : Loop) (j : Nat) : (s.setLoop n v).casOf j = s.casOf j := rfl
@[simp] theorem State.setLoop_exOf (s : State) (n : Nat) (v : Loop) (j : Nat) : (s.setLoop n v).exOf j = s.exOf j := rfl
@[simp] theorem State.setLoop_now (s : State) (n : Nat) (v : Loop) : (s.setLoop n v).now = s.now := rfl

@[simp] theorem State.setQ_val (s : State) (q : Nat) (v : Queue) (j : Nat) : (s.setQ q v).val j = s.val j := rfl
@[simp] theorem State.setQ_num (s : State) (q : Nat) (v : Queue) (j : Nat) : (s.setQ q v).num j = s.num j := rfl
@[simp] theorem State.setQ_nat (s : State) (q : Nat) (v : Queue) (j : Nat) : (s.setQ q v).nat j = s.nat j := rfl
@[simp] theorem State.setQ_modeN (s : State) (q : Nat) (v : Queue) : (s.setQ q v).modeN = s.modeN := rfl
@[simp] theorem State.setQ_frc (s : State) (q : Nat) (v : Queue) (j : Nat) : (s.setQ q v).frc j = s.frc j := rfl
@[simp] theorem State.setQ_frcN (s : State) (q : Nat) (v : Queue) (j : Nat) : (s.setQ q v).frcN j = s.frcN j := rfl
@[simp] theorem State.setQ_encOf (s : State) (q : Nat) (v : Queue) (j : Nat) : (s.setQ q v).encOf j = s.encOf j := rfl
@[simp] theorem State.setQ_laxOf (s : State) (q : Nat) (v : Queue) (j : Nat) : (s.setQ q v).laxOf j = s.laxOf j := rfl
@[simp] theorem State.setQ_ginOf (s : State) (q : Nat) (v : Queue) (j : Nat) : (s.setQ q v).ginOf j = s.ginOf j := rfl
@[simp] theorem State.setQ_plsOf (s : State) (q : Nat) (v : Queue) (j : Nat) : (s.setQ q v).plsOf j = s.plsOf j := rfl
@[simp] theorem State.setQ_talOf (s : State) (q : Nat) (v : Queue) (j : Nat) : (s.setQ q v).talOf j = s.talOf j := rfl
@[simp] theorem State.setQ_axOf (s : State) (q : Nat) (v : Queue) (j : Nat) : (s.setQ q v).axOf j = s.axOf j := rfl
@[simp] theorem State.setQ_loopOf (s : State) (q : Nat) (v : Queue) (j : Nat) : (s.setQ q v).loopOf j = s.loopOf j := rfl
@[simp] theorem State.setQ_canOf (s : State) (q : Nat) (v : Queue) (j : Nat) : (s.setQ q v).canOf j = s.canOf j := rfl
@[simp] theorem State.setQ_railOf (s : State) (q : Nat) (v : Queue) (j : Nat) : (s.setQ q v).railOf j = s.railOf j := rfl
@[simp] theorem State.setQ_casOf (s : State) (q : Nat) (v : Queue) (j : Nat) : (s.setQ q v).casOf j = s.casOf j := rfl
@[simp] theorem State.setQ_exOf (s : State) (q : Nat) (v : Queue) (j : Nat) : (s.setQ q v).exOf j = s.exOf j := rfl
@[simp] theorem State.setQ_now (s : State) (q : Nat) (v : Queue) : (s.setQ q v).now = s.now := rfl

@[simp] theorem State.setDma_val (s : State) (n : Nat) (v : Dma) (j : Nat) : (s.setDma n v).val j = s.val j := rfl
@[simp] theorem State.setDma_num (s : State) (n : Nat) (v : Dma) (j : Nat) : (s.setDma n v).num j = s.num j := rfl
@[simp] theorem State.setDma_nat (s : State) (n : Nat) (v : Dma) (j : Nat) : (s.setDma n v).nat j = s.nat j := rfl
@[simp] theorem State.setDma_modeN (s : State) (n : Nat) (v : Dma) : (s.setDma n v).modeN = s.modeN := rfl
@[simp] theorem State.setDma_frc (s : State) (n : Nat) (v : Dma) (j : Nat) : (s.setDma n v).frc j = s.frc j := rfl
@[simp] theorem State.setDma_frcN (s : State) (n : Nat) (v : Dma) (j : Nat) : (s.setDma n v).frcN j = s.frcN j := rfl
@[simp] theorem State.setDma_encOf (s : State) (n : Nat) (v : Dma) (j : Nat) : (s.setDma n v).encOf j = s.encOf j := rfl
@[simp] theorem State.setDma_laxOf (s : State) (n : Nat) (v : Dma) (j : Nat) : (s.setDma n v).laxOf j = s.laxOf j := rfl
@[simp] theorem State.setDma_ginOf (s : State) (n : Nat) (v : Dma) (j : Nat) : (s.setDma n v).ginOf j = s.ginOf j := rfl
@[simp] theorem State.setDma_plsOf (s : State) (n : Nat) (v : Dma) (j : Nat) : (s.setDma n v).plsOf j = s.plsOf j := rfl
@[simp] theorem State.setDma_talOf (s : State) (n : Nat) (v : Dma) (j : Nat) : (s.setDma n v).talOf j = s.talOf j := rfl
@[simp] theorem State.setDma_axOf (s : State) (n : Nat) (v : Dma) (j : Nat) : (s.setDma n v).axOf j = s.axOf j := rfl
@[simp] theorem State.setDma_loopOf (s : State) (n : Nat) (v : Dma) (j : Nat) : (s.setDma n v).loopOf j = s.loopOf j := rfl
@[simp] theorem State.setDma_canOf (s : State) (n : Nat) (v : Dma) (j : Nat) : (s.setDma n v).canOf j = s.canOf j := rfl
@[simp] theorem State.setDma_railOf (s : State) (n : Nat) (v : Dma) (j : Nat) : (s.setDma n v).railOf j = s.railOf j := rfl
@[simp] theorem State.setDma_casOf (s : State) (n : Nat) (v : Dma) (j : Nat) : (s.setDma n v).casOf j = s.casOf j := rfl
@[simp] theorem State.setDma_exOf (s : State) (n : Nat) (v : Dma) (j : Nat) : (s.setDma n v).exOf j = s.exOf j := rfl
@[simp] theorem State.setDma_now (s : State) (n : Nat) (v : Dma) : (s.setDma n v).now = s.now := rfl

@[simp] theorem State.setCan_val (s : State) (i : Nat) (v : Can) (j : Nat) : (s.setCan i v).val j = s.val j := rfl
@[simp] theorem State.setCan_num (s : State) (i : Nat) (v : Can) (j : Nat) : (s.setCan i v).num j = s.num j := rfl
@[simp] theorem State.setCan_nat (s : State) (i : Nat) (v : Can) (j : Nat) : (s.setCan i v).nat j = s.nat j := rfl
@[simp] theorem State.setCan_modeN (s : State) (i : Nat) (v : Can) : (s.setCan i v).modeN = s.modeN := rfl
@[simp] theorem State.setCan_frc (s : State) (i : Nat) (v : Can) (j : Nat) : (s.setCan i v).frc j = s.frc j := rfl
@[simp] theorem State.setCan_frcN (s : State) (i : Nat) (v : Can) (j : Nat) : (s.setCan i v).frcN j = s.frcN j := rfl
@[simp] theorem State.setCan_encOf (s : State) (i : Nat) (v : Can) (j : Nat) : (s.setCan i v).encOf j = s.encOf j := rfl
@[simp] theorem State.setCan_laxOf (s : State) (i : Nat) (v : Can) (j : Nat) : (s.setCan i v).laxOf j = s.laxOf j := rfl
@[simp] theorem State.setCan_ginOf (s : State) (i : Nat) (v : Can) (j : Nat) : (s.setCan i v).ginOf j = s.ginOf j := rfl
@[simp] theorem State.setCan_plsOf (s : State) (i : Nat) (v : Can) (j : Nat) : (s.setCan i v).plsOf j = s.plsOf j := rfl
@[simp] theorem State.setCan_talOf (s : State) (i : Nat) (v : Can) (j : Nat) : (s.setCan i v).talOf j = s.talOf j := rfl
@[simp] theorem State.setCan_axOf (s : State) (i : Nat) (v : Can) (j : Nat) : (s.setCan i v).axOf j = s.axOf j := rfl
@[simp] theorem State.setCan_loopOf (s : State) (i : Nat) (v : Can) (j : Nat) : (s.setCan i v).loopOf j = s.loopOf j := rfl
@[simp] theorem State.setCan_qOf (s : State) (i : Nat) (v : Can) (j : Nat) : (s.setCan i v).qOf j = s.qOf j := rfl
@[simp] theorem State.setCan_railOf (s : State) (i : Nat) (v : Can) (j : Nat) : (s.setCan i v).railOf j = s.railOf j := rfl
@[simp] theorem State.setCan_casOf (s : State) (i : Nat) (v : Can) (j : Nat) : (s.setCan i v).casOf j = s.casOf j := rfl
@[simp] theorem State.setCan_exOf (s : State) (i : Nat) (v : Can) (j : Nat) : (s.setCan i v).exOf j = s.exOf j := rfl
@[simp] theorem State.setCan_now (s : State) (i : Nat) (v : Can) : (s.setCan i v).now = s.now := rfl

@[simp] theorem State.setPort_val (s : State) (p : Nat) (v : FPort) (j : Nat) : (s.setPort p v).val j = s.val j := rfl
@[simp] theorem State.setPort_num (s : State) (p : Nat) (v : FPort) (j : Nat) : (s.setPort p v).num j = s.num j := rfl
@[simp] theorem State.setPort_nat (s : State) (p : Nat) (v : FPort) (j : Nat) : (s.setPort p v).nat j = s.nat j := rfl
@[simp] theorem State.setPort_modeN (s : State) (p : Nat) (v : FPort) : (s.setPort p v).modeN = s.modeN := rfl
@[simp] theorem State.setPort_frc (s : State) (p : Nat) (v : FPort) (j : Nat) : (s.setPort p v).frc j = s.frc j := rfl
@[simp] theorem State.setPort_frcN (s : State) (p : Nat) (v : FPort) (j : Nat) : (s.setPort p v).frcN j = s.frcN j := rfl
@[simp] theorem State.setPort_encOf (s : State) (p : Nat) (v : FPort) (j : Nat) : (s.setPort p v).encOf j = s.encOf j := rfl
@[simp] theorem State.setPort_laxOf (s : State) (p : Nat) (v : FPort) (j : Nat) : (s.setPort p v).laxOf j = s.laxOf j := rfl
@[simp] theorem State.setPort_ginOf (s : State) (p : Nat) (v : FPort) (j : Nat) : (s.setPort p v).ginOf j = s.ginOf j := rfl
@[simp] theorem State.setPort_plsOf (s : State) (p : Nat) (v : FPort) (j : Nat) : (s.setPort p v).plsOf j = s.plsOf j := rfl
@[simp] theorem State.setPort_talOf (s : State) (p : Nat) (v : FPort) (j : Nat) : (s.setPort p v).talOf j = s.talOf j := rfl
@[simp] theorem State.setPort_axOf (s : State) (p : Nat) (v : FPort) (j : Nat) : (s.setPort p v).axOf j = s.axOf j := rfl
@[simp] theorem State.setPort_loopOf (s : State) (p : Nat) (v : FPort) (j : Nat) : (s.setPort p v).loopOf j = s.loopOf j := rfl
@[simp] theorem State.setPort_qOf (s : State) (p : Nat) (v : FPort) (j : Nat) : (s.setPort p v).qOf j = s.qOf j := rfl
@[simp] theorem State.setPort_canOf (s : State) (p : Nat) (v : FPort) (j : Nat) : (s.setPort p v).canOf j = s.canOf j := rfl
@[simp] theorem State.setPort_railOf (s : State) (p : Nat) (v : FPort) (j : Nat) : (s.setPort p v).railOf j = s.railOf j := rfl
@[simp] theorem State.setPort_casOf (s : State) (p : Nat) (v : FPort) (j : Nat) : (s.setPort p v).casOf j = s.casOf j := rfl
@[simp] theorem State.setPort_exOf (s : State) (p : Nat) (v : FPort) (j : Nat) : (s.setPort p v).exOf j = s.exOf j := rfl
@[simp] theorem State.setPort_now (s : State) (p : Nat) (v : FPort) : (s.setPort p v).now = s.now := rfl

@[simp] theorem State.setRail_val (s : State) (n : Nat) (v : Rail) (j : Nat) : (s.setRail n v).val j = s.val j := rfl
@[simp] theorem State.setRail_num (s : State) (n : Nat) (v : Rail) (j : Nat) : (s.setRail n v).num j = s.num j := rfl
@[simp] theorem State.setRail_nat (s : State) (n : Nat) (v : Rail) (j : Nat) : (s.setRail n v).nat j = s.nat j := rfl
@[simp] theorem State.setRail_modeN (s : State) (n : Nat) (v : Rail) : (s.setRail n v).modeN = s.modeN := rfl
@[simp] theorem State.setRail_frc (s : State) (n : Nat) (v : Rail) (j : Nat) : (s.setRail n v).frc j = s.frc j := rfl
@[simp] theorem State.setRail_frcN (s : State) (n : Nat) (v : Rail) (j : Nat) : (s.setRail n v).frcN j = s.frcN j := rfl
@[simp] theorem State.setRail_encOf (s : State) (n : Nat) (v : Rail) (j : Nat) : (s.setRail n v).encOf j = s.encOf j := rfl
@[simp] theorem State.setRail_laxOf (s : State) (n : Nat) (v : Rail) (j : Nat) : (s.setRail n v).laxOf j = s.laxOf j := rfl
@[simp] theorem State.setRail_ginOf (s : State) (n : Nat) (v : Rail) (j : Nat) : (s.setRail n v).ginOf j = s.ginOf j := rfl
@[simp] theorem State.setRail_plsOf (s : State) (n : Nat) (v : Rail) (j : Nat) : (s.setRail n v).plsOf j = s.plsOf j := rfl
@[simp] theorem State.setRail_talOf (s : State) (n : Nat) (v : Rail) (j : Nat) : (s.setRail n v).talOf j = s.talOf j := rfl
@[simp] theorem State.setRail_axOf (s : State) (n : Nat) (v : Rail) (j : Nat) : (s.setRail n v).axOf j = s.axOf j := rfl
@[simp] theorem State.setRail_loopOf (s : State) (n : Nat) (v : Rail) (j : Nat) : (s.setRail n v).loopOf j = s.loopOf j := rfl
@[simp] theorem State.setRail_qOf (s : State) (n : Nat) (v : Rail) (j : Nat) : (s.setRail n v).qOf j = s.qOf j := rfl
@[simp] theorem State.setRail_canOf (s : State) (n : Nat) (v : Rail) (j : Nat) : (s.setRail n v).canOf j = s.canOf j := rfl
@[simp] theorem State.setRail_casOf (s : State) (n : Nat) (v : Rail) (j : Nat) : (s.setRail n v).casOf j = s.casOf j := rfl
@[simp] theorem State.setRail_now (s : State) (n : Nat) (v : Rail) : (s.setRail n v).now = s.now := rfl

@[simp] theorem State.setCasement_val (s : State) (c : Nat) (v : Cas) (j : Nat) : (s.setCasement c v).val j = s.val j := rfl
@[simp] theorem State.setCasement_num (s : State) (c : Nat) (v : Cas) (j : Nat) : (s.setCasement c v).num j = s.num j := rfl
@[simp] theorem State.setCasement_nat (s : State) (c : Nat) (v : Cas) (j : Nat) : (s.setCasement c v).nat j = s.nat j := rfl
@[simp] theorem State.setCasement_modeN (s : State) (c : Nat) (v : Cas) : (s.setCasement c v).modeN = s.modeN := rfl
@[simp] theorem State.setCasement_frc (s : State) (c : Nat) (v : Cas) (j : Nat) : (s.setCasement c v).frc j = s.frc j := rfl
@[simp] theorem State.setCasement_frcN (s : State) (c : Nat) (v : Cas) (j : Nat) : (s.setCasement c v).frcN j = s.frcN j := rfl
@[simp] theorem State.setCasement_encOf (s : State) (c : Nat) (v : Cas) (j : Nat) : (s.setCasement c v).encOf j = s.encOf j := rfl
@[simp] theorem State.setCasement_laxOf (s : State) (c : Nat) (v : Cas) (j : Nat) : (s.setCasement c v).laxOf j = s.laxOf j := rfl
@[simp] theorem State.setCasement_ginOf (s : State) (c : Nat) (v : Cas) (j : Nat) : (s.setCasement c v).ginOf j = s.ginOf j := rfl
@[simp] theorem State.setCasement_plsOf (s : State) (c : Nat) (v : Cas) (j : Nat) : (s.setCasement c v).plsOf j = s.plsOf j := rfl
@[simp] theorem State.setCasement_talOf (s : State) (c : Nat) (v : Cas) (j : Nat) : (s.setCasement c v).talOf j = s.talOf j := rfl
@[simp] theorem State.setCasement_axOf (s : State) (c : Nat) (v : Cas) (j : Nat) : (s.setCasement c v).axOf j = s.axOf j := rfl
@[simp] theorem State.setCasement_loopOf (s : State) (c : Nat) (v : Cas) (j : Nat) : (s.setCasement c v).loopOf j = s.loopOf j := rfl
@[simp] theorem State.setCasement_qOf (s : State) (c : Nat) (v : Cas) (j : Nat) : (s.setCasement c v).qOf j = s.qOf j := rfl
@[simp] theorem State.setCasement_canOf (s : State) (c : Nat) (v : Cas) (j : Nat) : (s.setCasement c v).canOf j = s.canOf j := rfl
@[simp] theorem State.setCasement_railOf (s : State) (c : Nat) (v : Cas) (j : Nat) : (s.setCasement c v).railOf j = s.railOf j := rfl
@[simp] theorem State.setCasement_exOf (s : State) (c : Nat) (v : Cas) (j : Nat) : (s.setCasement c v).exOf j = s.exOf j := rfl
@[simp] theorem State.setCasement_now (s : State) (c : Nat) (v : Cas) : (s.setCasement c v).now = s.now := rfl

@[simp] theorem State.setRej_val (s : State) (n : Nat) (v : Rej) (j : Nat) : (s.setRej n v).val j = s.val j := rfl
@[simp] theorem State.setRej_num (s : State) (n : Nat) (v : Rej) (j : Nat) : (s.setRej n v).num j = s.num j := rfl
@[simp] theorem State.setRej_nat (s : State) (n : Nat) (v : Rej) (j : Nat) : (s.setRej n v).nat j = s.nat j := rfl
@[simp] theorem State.setRej_modeN (s : State) (n : Nat) (v : Rej) : (s.setRej n v).modeN = s.modeN := rfl
@[simp] theorem State.setRej_frc (s : State) (n : Nat) (v : Rej) (j : Nat) : (s.setRej n v).frc j = s.frc j := rfl
@[simp] theorem State.setRej_frcN (s : State) (n : Nat) (v : Rej) (j : Nat) : (s.setRej n v).frcN j = s.frcN j := rfl
@[simp] theorem State.setRej_encOf (s : State) (n : Nat) (v : Rej) (j : Nat) : (s.setRej n v).encOf j = s.encOf j := rfl
@[simp] theorem State.setRej_laxOf (s : State) (n : Nat) (v : Rej) (j : Nat) : (s.setRej n v).laxOf j = s.laxOf j := rfl
@[simp] theorem State.setRej_ginOf (s : State) (n : Nat) (v : Rej) (j : Nat) : (s.setRej n v).ginOf j = s.ginOf j := rfl
@[simp] theorem State.setRej_plsOf (s : State) (n : Nat) (v : Rej) (j : Nat) : (s.setRej n v).plsOf j = s.plsOf j := rfl
@[simp] theorem State.setRej_talOf (s : State) (n : Nat) (v : Rej) (j : Nat) : (s.setRej n v).talOf j = s.talOf j := rfl
@[simp] theorem State.setRej_axOf (s : State) (n : Nat) (v : Rej) (j : Nat) : (s.setRej n v).axOf j = s.axOf j := rfl
@[simp] theorem State.setRej_loopOf (s : State) (n : Nat) (v : Rej) (j : Nat) : (s.setRej n v).loopOf j = s.loopOf j := rfl
@[simp] theorem State.setRej_qOf (s : State) (n : Nat) (v : Rej) (j : Nat) : (s.setRej n v).qOf j = s.qOf j := rfl
@[simp] theorem State.setRej_canOf (s : State) (n : Nat) (v : Rej) (j : Nat) : (s.setRej n v).canOf j = s.canOf j := rfl
@[simp] theorem State.setRej_railOf (s : State) (n : Nat) (v : Rej) (j : Nat) : (s.setRej n v).railOf j = s.railOf j := rfl
@[simp] theorem State.setRej_casOf (s : State) (n : Nat) (v : Rej) (j : Nat) : (s.setRej n v).casOf j = s.casOf j := rfl
@[simp] theorem State.setRej_exOf (s : State) (n : Nat) (v : Rej) (j : Nat) : (s.setRej n v).exOf j = s.exOf j := rfl
@[simp] theorem State.setRej_now (s : State) (n : Nat) (v : Rej) : (s.setRej n v).now = s.now := rfl

@[simp] theorem State.setEx_val (s : State) (x : Nat) (v : Exec) (j : Nat) : (s.setEx x v).val j = s.val j := rfl
@[simp] theorem State.setEx_num (s : State) (x : Nat) (v : Exec) (j : Nat) : (s.setEx x v).num j = s.num j := rfl
@[simp] theorem State.setEx_nat (s : State) (x : Nat) (v : Exec) (j : Nat) : (s.setEx x v).nat j = s.nat j := rfl
@[simp] theorem State.setEx_modeN (s : State) (x : Nat) (v : Exec) : (s.setEx x v).modeN = s.modeN := rfl
@[simp] theorem State.setEx_frc (s : State) (x : Nat) (v : Exec) (j : Nat) : (s.setEx x v).frc j = s.frc j := rfl
@[simp] theorem State.setEx_frcN (s : State) (x : Nat) (v : Exec) (j : Nat) : (s.setEx x v).frcN j = s.frcN j := rfl
@[simp] theorem State.setEx_encOf (s : State) (x : Nat) (v : Exec) (j : Nat) : (s.setEx x v).encOf j = s.encOf j := rfl
@[simp] theorem State.setEx_laxOf (s : State) (x : Nat) (v : Exec) (j : Nat) : (s.setEx x v).laxOf j = s.laxOf j := rfl
@[simp] theorem State.setEx_ginOf (s : State) (x : Nat) (v : Exec) (j : Nat) : (s.setEx x v).ginOf j = s.ginOf j := rfl
@[simp] theorem State.setEx_plsOf (s : State) (x : Nat) (v : Exec) (j : Nat) : (s.setEx x v).plsOf j = s.plsOf j := rfl
@[simp] theorem State.setEx_talOf (s : State) (x : Nat) (v : Exec) (j : Nat) : (s.setEx x v).talOf j = s.talOf j := rfl
@[simp] theorem State.setEx_axOf (s : State) (x : Nat) (v : Exec) (j : Nat) : (s.setEx x v).axOf j = s.axOf j := rfl
@[simp] theorem State.setEx_loopOf (s : State) (x : Nat) (v : Exec) (j : Nat) : (s.setEx x v).loopOf j = s.loopOf j := rfl
@[simp] theorem State.setEx_qOf (s : State) (x : Nat) (v : Exec) (j : Nat) : (s.setEx x v).qOf j = s.qOf j := rfl
@[simp] theorem State.setEx_canOf (s : State) (x : Nat) (v : Exec) (j : Nat) : (s.setEx x v).canOf j = s.canOf j := rfl
@[simp] theorem State.setEx_casOf (s : State) (x : Nat) (v : Exec) (j : Nat) : (s.setEx x v).casOf j = s.casOf j := rfl
@[simp] theorem State.setEx_now (s : State) (x : Nat) (v : Exec) : (s.setEx x v).now = s.now := rfl

@[simp] theorem State.setv_frc (s : State) (k : Nat) (v : Val) (j : Nat) : (s.setv k v).frc j = s.frc j := rfl
@[simp] theorem State.setv_frcN (s : State) (k : Nat) (v : Val) (j : Nat) : (s.setv k v).frcN j = s.frcN j := rfl
@[simp] theorem State.setv_encOf (s : State) (k : Nat) (v : Val) (j : Nat) : (s.setv k v).encOf j = s.encOf j := rfl
@[simp] theorem State.setv_laxOf (s : State) (k : Nat) (v : Val) (j : Nat) : (s.setv k v).laxOf j = s.laxOf j := rfl
@[simp] theorem State.setv_ginOf (s : State) (k : Nat) (v : Val) (j : Nat) : (s.setv k v).ginOf j = s.ginOf j := rfl
@[simp] theorem State.setv_plsOf (s : State) (k : Nat) (v : Val) (j : Nat) : (s.setv k v).plsOf j = s.plsOf j := rfl
@[simp] theorem State.setv_talOf (s : State) (k : Nat) (v : Val) (j : Nat) : (s.setv k v).talOf j = s.talOf j := rfl
@[simp] theorem State.setv_axOf (s : State) (k : Nat) (v : Val) (j : Nat) : (s.setv k v).axOf j = s.axOf j := rfl
@[simp] theorem State.setv_loopOf (s : State) (k : Nat) (v : Val) (j : Nat) : (s.setv k v).loopOf j = s.loopOf j := rfl
@[simp] theorem State.setv_qOf (s : State) (k : Nat) (v : Val) (j : Nat) : (s.setv k v).qOf j = s.qOf j := rfl
@[simp] theorem State.setv_canOf (s : State) (k : Nat) (v : Val) (j : Nat) : (s.setv k v).canOf j = s.canOf j := rfl
@[simp] theorem State.setv_railOf (s : State) (k : Nat) (v : Val) (j : Nat) : (s.setv k v).railOf j = s.railOf j := rfl
@[simp] theorem State.setv_casOf (s : State) (k : Nat) (v : Val) (j : Nat) : (s.setv k v).casOf j = s.casOf j := rfl
@[simp] theorem State.setv_exOf (s : State) (k : Nat) (v : Val) (j : Nat) : (s.setv k v).exOf j = s.exOf j := rfl
@[simp] theorem State.setv_now (s : State) (k : Nat) (v : Val) : (s.setv k v).now = s.now := rfl

@[simp] theorem State.setn_frc (s : State) (k : Nat) (n : Int) (j : Nat) : (s.setn k n).frc j = s.frc j := rfl
@[simp] theorem State.setn_frcN (s : State) (k : Nat) (n : Int) (j : Nat) : (s.setn k n).frcN j = s.frcN j := rfl
@[simp] theorem State.setn_encOf (s : State) (k : Nat) (n : Int) (j : Nat) : (s.setn k n).encOf j = s.encOf j := rfl
@[simp] theorem State.setn_laxOf (s : State) (k : Nat) (n : Int) (j : Nat) : (s.setn k n).laxOf j = s.laxOf j := rfl
@[simp] theorem State.setn_ginOf (s : State) (k : Nat) (n : Int) (j : Nat) : (s.setn k n).ginOf j = s.ginOf j := rfl
@[simp] theorem State.setn_plsOf (s : State) (k : Nat) (n : Int) (j : Nat) : (s.setn k n).plsOf j = s.plsOf j := rfl
@[simp] theorem State.setn_talOf (s : State) (k : Nat) (n : Int) (j : Nat) : (s.setn k n).talOf j = s.talOf j := rfl
@[simp] theorem State.setn_axOf (s : State) (k : Nat) (n : Int) (j : Nat) : (s.setn k n).axOf j = s.axOf j := rfl
@[simp] theorem State.setn_loopOf (s : State) (k : Nat) (n : Int) (j : Nat) : (s.setn k n).loopOf j = s.loopOf j := rfl
@[simp] theorem State.setn_qOf (s : State) (k : Nat) (n : Int) (j : Nat) : (s.setn k n).qOf j = s.qOf j := rfl
@[simp] theorem State.setn_canOf (s : State) (k : Nat) (n : Int) (j : Nat) : (s.setn k n).canOf j = s.canOf j := rfl
@[simp] theorem State.setn_railOf (s : State) (k : Nat) (n : Int) (j : Nat) : (s.setn k n).railOf j = s.railOf j := rfl
@[simp] theorem State.setn_casOf (s : State) (k : Nat) (n : Int) (j : Nat) : (s.setn k n).casOf j = s.casOf j := rfl
@[simp] theorem State.setn_exOf (s : State) (k : Nat) (n : Int) (j : Nat) : (s.setn k n).exOf j = s.exOf j := rfl
@[simp] theorem State.setn_now (s : State) (k : Nat) (n : Int) : (s.setn k n).now = s.now := rfl

@[simp] theorem State.enforce_val (s : State) (k : Nat) (j : Nat) : (s.enforce k).val j = s.val j := rfl
@[simp] theorem State.enforce_num (s : State) (k : Nat) (j : Nat) : (s.enforce k).num j = s.num j := rfl
@[simp] theorem State.enforce_nat (s : State) (k : Nat) (j : Nat) : (s.enforce k).nat j = s.nat j := rfl
@[simp] theorem State.enforce_modeN (s : State) (k : Nat) : (s.enforce k).modeN = s.modeN := rfl
@[simp] theorem State.enforce_encOf (s : State) (k : Nat) (j : Nat) : (s.enforce k).encOf j = s.encOf j := rfl
@[simp] theorem State.enforce_laxOf (s : State) (k : Nat) (j : Nat) : (s.enforce k).laxOf j = s.laxOf j := rfl
@[simp] theorem State.enforce_ginOf (s : State) (k : Nat) (j : Nat) : (s.enforce k).ginOf j = s.ginOf j := rfl
@[simp] theorem State.enforce_plsOf (s : State) (k : Nat) (j : Nat) : (s.enforce k).plsOf j = s.plsOf j := rfl
@[simp] theorem State.enforce_talOf (s : State) (k : Nat) (j : Nat) : (s.enforce k).talOf j = s.talOf j := rfl
@[simp] theorem State.enforce_axOf (s : State) (k : Nat) (j : Nat) : (s.enforce k).axOf j = s.axOf j := rfl
@[simp] theorem State.enforce_loopOf (s : State) (k : Nat) (j : Nat) : (s.enforce k).loopOf j = s.loopOf j := rfl
@[simp] theorem State.enforce_qOf (s : State) (k : Nat) (j : Nat) : (s.enforce k).qOf j = s.qOf j := rfl
@[simp] theorem State.enforce_canOf (s : State) (k : Nat) (j : Nat) : (s.enforce k).canOf j = s.canOf j := rfl
@[simp] theorem State.enforce_railOf (s : State) (k : Nat) (j : Nat) : (s.enforce k).railOf j = s.railOf j := rfl
@[simp] theorem State.enforce_casOf (s : State) (k : Nat) (j : Nat) : (s.enforce k).casOf j = s.casOf j := rfl
@[simp] theorem State.enforce_exOf (s : State) (k : Nat) (j : Nat) : (s.enforce k).exOf j = s.exOf j := rfl
@[simp] theorem State.enforce_now (s : State) (k : Nat) : (s.enforce k).now = s.now := rfl

@[simp] theorem State.eventAt_val (s : State) (d : Int) (src cause inst : Nat) (data : Bytes) (j : Nat) : (s.eventAt d src cause inst data).val j = s.val j := by
  obtain ⟨h, e⟩ := s.eventAt_host_only d src cause inst data; rw [e]; rfl
@[simp] theorem State.eventAt_num (s : State) (d : Int) (src cause inst : Nat) (data : Bytes) (j : Nat) : (s.eventAt d src cause inst data).num j = s.num j := by
  obtain ⟨h, e⟩ := s.eventAt_host_only d src cause inst data; rw [e]; rfl
@[simp] theorem State.eventAt_nat (s : State) (d : Int) (src cause inst : Nat) (data : Bytes) (j : Nat) : (s.eventAt d src cause inst data).nat j = s.nat j := by
  obtain ⟨h, e⟩ := s.eventAt_host_only d src cause inst data; rw [e]; rfl
@[simp] theorem State.eventAt_modeN (s : State) (d : Int) (src cause inst : Nat) (data : Bytes) : (s.eventAt d src cause inst data).modeN = s.modeN := by
  obtain ⟨h, e⟩ := s.eventAt_host_only d src cause inst data; rw [e]; rfl
@[simp] theorem State.eventAt_frc (s : State) (d : Int) (src cause inst : Nat) (data : Bytes) (j : Nat) : (s.eventAt d src cause inst data).frc j = s.frc j := by
  obtain ⟨h, e⟩ := s.eventAt_host_only d src cause inst data; rw [e]; rfl
@[simp] theorem State.eventAt_frcN (s : State) (d : Int) (src cause inst : Nat) (data : Bytes) (j : Nat) : (s.eventAt d src cause inst data).frcN j = s.frcN j := by
  obtain ⟨h, e⟩ := s.eventAt_host_only d src cause inst data; rw [e]; rfl
@[simp] theorem State.eventAt_encOf (s : State) (d : Int) (src cause inst : Nat) (data : Bytes) (j : Nat) : (s.eventAt d src cause inst data).encOf j = s.encOf j := by
  obtain ⟨h, e⟩ := s.eventAt_host_only d src cause inst data; rw [e]; rfl
@[simp] theorem State.eventAt_laxOf (s : State) (d : Int) (src cause inst : Nat) (data : Bytes) (j : Nat) : (s.eventAt d src cause inst data).laxOf j = s.laxOf j := by
  obtain ⟨h, e⟩ := s.eventAt_host_only d src cause inst data; rw [e]; rfl
@[simp] theorem State.eventAt_ginOf (s : State) (d : Int) (src cause inst : Nat) (data : Bytes) (j : Nat) : (s.eventAt d src cause inst data).ginOf j = s.ginOf j := by
  obtain ⟨h, e⟩ := s.eventAt_host_only d src cause inst data; rw [e]; rfl
@[simp] theorem State.eventAt_plsOf (s : State) (d : Int) (src cause inst : Nat) (data : Bytes) (j : Nat) : (s.eventAt d src cause inst data).plsOf j = s.plsOf j := by
  obtain ⟨h, e⟩ := s.eventAt_host_only d src cause inst data; rw [e]; rfl
@[simp] theorem State.eventAt_talOf (s : State) (d : Int) (src cause inst : Nat) (data : Bytes) (j : Nat) : (s.eventAt d src cause inst data).talOf j = s.talOf j := by
  obtain ⟨h, e⟩ := s.eventAt_host_only d src cause inst data; rw [e]; rfl
@[simp] theorem State.eventAt_axOf (s : State) (d : Int) (src cause inst : Nat) (data : Bytes) (j : Nat) : (s.eventAt d src cause inst data).axOf j = s.axOf j := by
  obtain ⟨h, e⟩ := s.eventAt_host_only d src cause inst data; rw [e]; rfl
@[simp] theorem State.eventAt_loopOf (s : State) (d : Int) (src cause inst : Nat) (data : Bytes) (j : Nat) : (s.eventAt d src cause inst data).loopOf j = s.loopOf j := by
  obtain ⟨h, e⟩ := s.eventAt_host_only d src cause inst data; rw [e]; rfl
@[simp] theorem State.eventAt_canOf (s : State) (d : Int) (src cause inst : Nat) (data : Bytes) (j : Nat) : (s.eventAt d src cause inst data).canOf j = s.canOf j := by
  obtain ⟨h, e⟩ := s.eventAt_host_only d src cause inst data; rw [e]; rfl
@[simp] theorem State.eventAt_railOf (s : State) (d : Int) (src cause inst : Nat) (data : Bytes) (j : Nat) : (s.eventAt d src cause inst data).railOf j = s.railOf j := by
  obtain ⟨h, e⟩ := s.eventAt_host_only d src cause inst data; rw [e]; rfl
@[simp] theorem State.eventAt_casOf (s : State) (d : Int) (src cause inst : Nat) (data : Bytes) (j : Nat) : (s.eventAt d src cause inst data).casOf j = s.casOf j := by
  obtain ⟨h, e⟩ := s.eventAt_host_only d src cause inst data; rw [e]; rfl
@[simp] theorem State.eventAt_exOf (s : State) (d : Int) (src cause inst : Nat) (data : Bytes) (j : Nat) : (s.eventAt d src cause inst data).exOf j = s.exOf j := by
  obtain ⟨h, e⟩ := s.eventAt_host_only d src cause inst data; rw [e]; rfl
@[simp] theorem State.eventAt_now (s : State) (d : Int) (src cause inst : Nat) (data : Bytes) : (s.eventAt d src cause inst data).now = s.now := by
  obtain ⟨h, e⟩ := s.eventAt_host_only d src cause inst data; rw [e]; rfl

@[simp] theorem State.event_val (s : State) (src cause inst : Nat) (data : Bytes) (j : Nat) : (s.event src cause inst data).val j = s.val j := by
  obtain ⟨h, e⟩ := s.event_host_only src cause inst data; rw [e]; rfl
@[simp] theorem State.event_num (s : State) (src cause inst : Nat) (data : Bytes) (j : Nat) : (s.event src cause inst data).num j = s.num j := by
  obtain ⟨h, e⟩ := s.event_host_only src cause inst data; rw [e]; rfl
@[simp] theorem State.event_nat (s : State) (src cause inst : Nat) (data : Bytes) (j : Nat) : (s.event src cause inst data).nat j = s.nat j := by
  obtain ⟨h, e⟩ := s.event_host_only src cause inst data; rw [e]; rfl
@[simp] theorem State.event_modeN (s : State) (src cause inst : Nat) (data : Bytes) : (s.event src cause inst data).modeN = s.modeN := by
  obtain ⟨h, e⟩ := s.event_host_only src cause inst data; rw [e]; rfl
@[simp] theorem State.event_frc (s : State) (src cause inst : Nat) (data : Bytes) (j : Nat) : (s.event src cause inst data).frc j = s.frc j := by
  obtain ⟨h, e⟩ := s.event_host_only src cause inst data; rw [e]; rfl
@[simp] theorem State.event_frcN (s : State) (src cause inst : Nat) (data : Bytes) (j : Nat) : (s.event src cause inst data).frcN j = s.frcN j := by
  obtain ⟨h, e⟩ := s.event_host_only src cause inst data; rw [e]; rfl
@[simp] theorem State.event_encOf (s : State) (src cause inst : Nat) (data : Bytes) (j : Nat) : (s.event src cause inst data).encOf j = s.encOf j := by
  obtain ⟨h, e⟩ := s.event_host_only src cause inst data; rw [e]; rfl
@[simp] theorem State.event_laxOf (s : State) (src cause inst : Nat) (data : Bytes) (j : Nat) : (s.event src cause inst data).laxOf j = s.laxOf j := by
  obtain ⟨h, e⟩ := s.event_host_only src cause inst data; rw [e]; rfl
@[simp] theorem State.event_ginOf (s : State) (src cause inst : Nat) (data : Bytes) (j : Nat) : (s.event src cause inst data).ginOf j = s.ginOf j := by
  obtain ⟨h, e⟩ := s.event_host_only src cause inst data; rw [e]; rfl
@[simp] theorem State.event_plsOf (s : State) (src cause inst : Nat) (data : Bytes) (j : Nat) : (s.event src cause inst data).plsOf j = s.plsOf j := by
  obtain ⟨h, e⟩ := s.event_host_only src cause inst data; rw [e]; rfl
@[simp] theorem State.event_talOf (s : State) (src cause inst : Nat) (data : Bytes) (j : Nat) : (s.event src cause inst data).talOf j = s.talOf j := by
  obtain ⟨h, e⟩ := s.event_host_only src cause inst data; rw [e]; rfl
@[simp] theorem State.event_axOf (s : State) (src cause inst : Nat) (data : Bytes) (j : Nat) : (s.event src cause inst data).axOf j = s.axOf j := by
  obtain ⟨h, e⟩ := s.event_host_only src cause inst data; rw [e]; rfl
@[simp] theorem State.event_loopOf (s : State) (src cause inst : Nat) (data : Bytes) (j : Nat) : (s.event src cause inst data).loopOf j = s.loopOf j := by
  obtain ⟨h, e⟩ := s.event_host_only src cause inst data; rw [e]; rfl
@[simp] theorem State.event_canOf (s : State) (src cause inst : Nat) (data : Bytes) (j : Nat) : (s.event src cause inst data).canOf j = s.canOf j := by
  obtain ⟨h, e⟩ := s.event_host_only src cause inst data; rw [e]; rfl
@[simp] theorem State.event_railOf (s : State) (src cause inst : Nat) (data : Bytes) (j : Nat) : (s.event src cause inst data).railOf j = s.railOf j := by
  obtain ⟨h, e⟩ := s.event_host_only src cause inst data; rw [e]; rfl
@[simp] theorem State.event_casOf (s : State) (src cause inst : Nat) (data : Bytes) (j : Nat) : (s.event src cause inst data).casOf j = s.casOf j := by
  obtain ⟨h, e⟩ := s.event_host_only src cause inst data; rw [e]; rfl
@[simp] theorem State.event_exOf (s : State) (src cause inst : Nat) (data : Bytes) (j : Nat) : (s.event src cause inst data).exOf j = s.exOf j := by
  obtain ⟨h, e⟩ := s.event_host_only src cause inst data; rw [e]; rfl
@[simp] theorem State.event_now (s : State) (src cause inst : Nat) (data : Bytes) : (s.event src cause inst data).now = s.now := by
  obtain ⟨h, e⟩ := s.event_host_only src cause inst data; rw [e]; rfl

/-! What an instance reads after an update. -/

theorem State.encOf_setEnc (s : State) (k : Nat) (v : Enc) (j : Nat) : (s.setEnc k v).encOf j = if j = k then v else s.encOf j :=
  tget_tset _ _ k v j
@[simp] theorem State.encOf_setEnc_self (s : State) (k : Nat) (v : Enc) : (s.setEnc k v).encOf k = v := by simp [State.encOf_setEnc]
theorem State.laxOf_setLax (s : State) (k : Nat) (v : Lax) (j : Nat) : (s.setLax k v).laxOf j = if j = k then v else s.laxOf j :=
  tget_tset _ _ k v j
@[simp] theorem State.laxOf_setLax_self (s : State) (k : Nat) (v : Lax) : (s.setLax k v).laxOf k = v := by simp [State.laxOf_setLax]
theorem State.ginOf_setGin (s : State) (k : Nat) (v : Gin) (j : Nat) : (s.setGin k v).ginOf j = if j = k then v else s.ginOf j :=
  tget_tset _ _ k v j
@[simp] theorem State.ginOf_setGin_self (s : State) (k : Nat) (v : Gin) : (s.setGin k v).ginOf k = v := by simp [State.ginOf_setGin]
theorem State.plsOf_setPls (s : State) (k : Nat) (v : Pls) (j : Nat) : (s.setPls k v).plsOf j = if j = k then v else s.plsOf j :=
  tget_tset _ _ k v j
@[simp] theorem State.plsOf_setPls_self (s : State) (k : Nat) (v : Pls) : (s.setPls k v).plsOf k = v := by simp [State.plsOf_setPls]
theorem State.talOf_setTal (s : State) (k : Nat) (v : Tal) (j : Nat) : (s.setTal k v).talOf j = if j = k then v else s.talOf j :=
  tget_tset _ _ k v j
@[simp] theorem State.talOf_setTal_self (s : State) (k : Nat) (v : Tal) : (s.setTal k v).talOf k = v := by simp [State.talOf_setTal]
theorem State.axOf_setAx (s : State) (k : Nat) (v : Axis) (j : Nat) : (s.setAx k v).axOf j = if j = k then v else s.axOf j :=
  tget_tset _ _ k v j
@[simp] theorem State.axOf_setAx_self (s : State) (k : Nat) (v : Axis) : (s.setAx k v).axOf k = v := by simp [State.axOf_setAx]
theorem State.loopOf_setLoop (s : State) (k : Nat) (v : Loop) (j : Nat) : (s.setLoop k v).loopOf j = if j = k then v else s.loopOf j :=
  tget_tset _ _ k v j
@[simp] theorem State.loopOf_setLoop_self (s : State) (k : Nat) (v : Loop) : (s.setLoop k v).loopOf k = v := by simp [State.loopOf_setLoop]
theorem State.qOf_setQ (s : State) (k : Nat) (v : Queue) (j : Nat) : (s.setQ k v).qOf j = if j = k then v else s.qOf j :=
  tget_tset _ _ k v j
@[simp] theorem State.qOf_setQ_self (s : State) (k : Nat) (v : Queue) : (s.setQ k v).qOf k = v := by simp [State.qOf_setQ]
theorem State.dmaOf_setDma (s : State) (k : Nat) (v : Dma) (j : Nat) : (s.setDma k v).dmaOf j = if j = k then v else s.dmaOf j :=
  tget_tset _ _ k v j
@[simp] theorem State.dmaOf_setDma_self (s : State) (k : Nat) (v : Dma) : (s.setDma k v).dmaOf k = v := by simp [State.dmaOf_setDma]
theorem State.canOf_setCan (s : State) (k : Nat) (v : Can) (j : Nat) : (s.setCan k v).canOf j = if j = k then v else s.canOf j :=
  tget_tset _ _ k v j
@[simp] theorem State.canOf_setCan_self (s : State) (k : Nat) (v : Can) : (s.setCan k v).canOf k = v := by simp [State.canOf_setCan]
theorem State.portOf_setPort (s : State) (k : Nat) (v : FPort) (j : Nat) : (s.setPort k v).portOf j = if j = k then v else s.portOf j :=
  tget_tset _ _ k v j
@[simp] theorem State.portOf_setPort_self (s : State) (k : Nat) (v : FPort) : (s.setPort k v).portOf k = v := by simp [State.portOf_setPort]
theorem State.railOf_setRail (s : State) (k : Nat) (v : Rail) (j : Nat) : (s.setRail k v).railOf j = if j = k then v else s.railOf j :=
  tget_tset _ _ k v j
@[simp] theorem State.railOf_setRail_self (s : State) (k : Nat) (v : Rail) : (s.setRail k v).railOf k = v := by simp [State.railOf_setRail]
theorem State.casOf_setCasement (s : State) (k : Nat) (v : Cas) (j : Nat) : (s.setCasement k v).casOf j = if j = k then v else s.casOf j :=
  tget_tset _ _ k v j
@[simp] theorem State.casOf_setCasement_self (s : State) (k : Nat) (v : Cas) : (s.setCasement k v).casOf k = v := by simp [State.casOf_setCasement]
theorem State.rejOf_setRej (s : State) (k : Nat) (v : Rej) (j : Nat) : (s.setRej k v).rejOf j = if j = k then v else s.rejOf j :=
  tget_tset _ _ k v j
@[simp] theorem State.rejOf_setRej_self (s : State) (k : Nat) (v : Rej) : (s.setRej k v).rejOf k = v := by simp [State.rejOf_setRej]
theorem State.exOf_setEx (s : State) (k : Nat) (v : Exec) (j : Nat) : (s.setEx k v).exOf j = if j = k then v else s.exOf j :=
  tget_tset _ _ k v j
@[simp] theorem State.exOf_setEx_self (s : State) (k : Nat) (v : Exec) : (s.setEx k v).exOf k = v := by simp [State.exOf_setEx]

/-! What an object reads after a write of an object. -/

theorem State.val_setv (s : State) (k : Nat) (v : Val) (j : Nat) : (s.setv k v).val j = if j = k then v else s.val j :=
  tget_tset _ _ k v j
theorem State.val_setn (s : State) (k : Nat) (n : Int) (j : Nat) : (s.setn k n).val j = if j = k then .num n else s.val j :=
  State.val_setv s k _ j
theorem State.num_setn (s : State) (k : Nat) (n : Int) (j : Nat) : (s.setn k n).num j = if j = k then n else s.num j := by
  unfold State.num; rw [State.val_setn]; split <;> rfl
theorem State.nat_setn (s : State) (k : Nat) (n : Int) (j : Nat) : (s.setn k n).nat j = if j = k then n.toNat else s.nat j := by
  unfold State.nat; rw [State.num_setn]; split <;> rfl
@[simp] theorem State.val_setv_self (s : State) (k : Nat) (v : Val) : (s.setv k v).val k = v := by simp [State.val_setv]
@[simp] theorem State.num_setn_self (s : State) (k : Nat) (n : Int) : (s.setn k n).num k = n := by simp [State.num_setn]
@[simp] theorem State.nat_setn_self (s : State) (k : Nat) (n : Int) : (s.setn k n).nat k = n.toNat := by simp [State.nat_setn]
theorem State.num_setn_ne (s : State) {k j : Nat} (n : Int) (h : j ≠ k) : (s.setn k n).num j = s.num j := by
  simp [State.num_setn, h]
theorem State.nat_setn_ne (s : State) {k j : Nat} (n : Int) (h : j ≠ k) : (s.setn k n).nat j = s.nat j := by
  simp [State.nat_setn, h]
@[simp] theorem State.frc_enforce_self (s : State) (k : Nat) : (s.enforce k).frc k = s.val k := tget_tset_self _ _ _ _
theorem State.frc_enforce (s : State) (k j : Nat) : (s.enforce k).frc j = if j = k then s.val k else s.frc j :=
  tget_tset _ _ k _ j
@[simp] theorem State.answer_resp_self (s : State) (r : Resp) : (s.answer r).resp = r := rfl
@[simp] theorem State.send_out_self (s : State) (o : Out) : (s.send o).out = o :: s.out := rfl

/-- Time does not go back. -/
theorem State.tick_mono (s : State) (t : Time) : s.clk.mono ≤ (s.tick t).clk.mono := Nat.le_max_left _ _

/-- A write of device DRAM, byte by byte. -/
theorem State.dram_dramWrite (s : State) (a : Nat) (b : Bytes) (x : Nat) :
    tget zeroCell (s.dramWrite a b).mem.dram x = if a ≤ x ∧ x < a + b.length then b.getD (x - a) 0 else tget zeroCell s.mem.dram x :=
  tget_writeCells _ _ _ _ _

end Sys2Proof.Machine
end

