-- ==== Sys2Proof/Laws/Keeps.lean ====
section
/-! SUPPORT. What the shared operations keep: the queue, the passage of time, the canonical form of memory and the reserved bits of the
Fault Status Word, each lemma in the form that chains (from `Keeps s u` to `Keeps s (u.operation …)`). -/

namespace Sys2Proof.Machine

/-! ## Composition -/

theorem Keeps.refl (s : State) : Keeps s s := ⟨rfl, Nat.le_refl _, id, id⟩

theorem Keeps.trans {s u v : State} (h : Keeps s u) (g : Keeps u v) : Keeps s v :=
  ⟨g.queue.trans h.queue, Nat.le_trans h.time g.time, fun x => g.mem (h.mem x), fun x => g.fsw (h.fsw x)⟩

/-- A change of anything but the queue, the count, memory and the status word. -/
theorem Keeps.same {s u v : State} (h : Keeps s u) (e1 : v.pending = u.pending) (e2 : v.clk.mono = u.clk.mono)
    (e3 : v.mem = u.mem) (e4 : v.flt.fsw = u.flt.fsw) : Keeps s v :=
  ⟨e1.trans h.queue, e2 ▸ h.time, fun x => e3 ▸ h.mem x, fun x => by
    have := h.fsw x
    simpa [State.fswOk, e4] using this⟩

theorem Keeps.foldl {α : Type} {s u : State} (l : List α) (f : State → α → State)
    (hf : ∀ v x, Keeps s v → Keeps s (f v x)) (h : Keeps s u) : Keeps s (l.foldl f u) := by
  induction l generalizing u with
  | nil => exact h
  | cons x l ih => exact ih (hf u x h)

theorem Keeps.foldr {α : Type} {s u : State} (l : List α) (f : α → State → State)
    (hf : ∀ v x, Keeps s v → Keeps s (f x v)) (h : Keeps s u) : Keeps s (l.foldr f u) := by
  induction l with
  | nil => exact h
  | cons x l ih => exact hf _ x ih

theorem Keeps.ite {s u v : State} {c : Prop} [Decidable c] (h : Keeps s u) (g : Keeps s v) : Keeps s (if c then u else v) := by
  split
  · exact h
  · exact g

/-! ## Named operations -/

variable {s u : State}

theorem Keeps.tick (h : Keeps s u) (t : Time) : Keeps s (u.tick t) :=
  ⟨h.queue, Nat.le_trans h.time (Nat.le_max_left _ _), h.mem, h.fsw⟩
theorem Keeps.setv (h : Keeps s u) (k : Nat) (v : Val) : Keeps s (u.setv k v) := h.same rfl rfl rfl rfl
theorem Keeps.setn (h : Keeps s u) (k : Nat) (n : Int) : Keeps s (u.setn k n) := h.same rfl rfl rfl rfl
theorem Keeps.bumpBy (h : Keeps s u) (k n : Nat) : Keeps s (u.bumpBy k n) := h.same rfl rfl rfl rfl
theorem Keeps.bump (h : Keeps s u) (k : Nat) : Keeps s (u.bump k) := h.same rfl rfl rfl rfl
theorem Keeps.setbit (h : Keeps s u) (k i : Nat) (b : Bool) : Keeps s (u.setbit k i b) := h.same rfl rfl rfl rfl
theorem Keeps.setDec (h : Keeps s u) (k : Nat) (v : Val) : Keeps s (u.setDec k v) := h.same rfl rfl rfl rfl
theorem Keeps.enforce (h : Keeps s u) (k : Nat) : Keeps s (u.enforce k) := h.same rfl rfl rfl rfl
theorem Keeps.setEnc (h : Keeps s u) (n : Nat) (v : Enc) : Keeps s (u.setEnc n v) := h.same rfl rfl rfl rfl
theorem Keeps.setLax (h : Keeps s u) (n : Nat) (v : Lax) : Keeps s (u.setLax n v) := h.same rfl rfl rfl rfl
theorem Keeps.setGin (h : Keeps s u) (n : Nat) (v : Gin) : Keeps s (u.setGin n v) := h.same rfl rfl rfl rfl
theorem Keeps.setPls (h : Keeps s u) (n : Nat) (v : Pls) : Keeps s (u.setPls n v) := h.same rfl rfl rfl rfl
theorem Keeps.setTal (h : Keeps s u) (n : Nat) (v : Tal) : Keeps s (u.setTal n v) := h.same rfl rfl rfl rfl
theorem Keeps.setAx (h : Keeps s u) (n : Nat) (v : Axis) : Keeps s (u.setAx n v) := h.same rfl rfl rfl rfl
theorem Keeps.setLoop (h : Keeps s u) (n : Nat) (v : Loop) : Keeps s (u.setLoop n v) := h.same rfl rfl rfl rfl
theorem Keeps.setQ (h : Keeps s u) (n : Nat) (v : Queue) : Keeps s (u.setQ n v) := h.same rfl rfl rfl rfl
theorem Keeps.setDma (h : Keeps s u) (n : Nat) (v : Dma) : Keeps s (u.setDma n v) := h.same rfl rfl rfl rfl
theorem Keeps.setCan (h : Keeps s u) (n : Nat) (v : Can) : Keeps s (u.setCan n v) := h.same rfl rfl rfl rfl
theorem Keeps.setPort (h : Keeps s u) (n : Nat) (v : FPort) : Keeps s (u.setPort n v) := h.same rfl rfl rfl rfl
theorem Keeps.setRail (h : Keeps s u) (n : Nat) (v : Rail) : Keeps s (u.setRail n v) := h.same rfl rfl rfl rfl
theorem Keeps.setCasement (h : Keeps s u) (n : Nat) (v : Cas) : Keeps s (u.setCasement n v) := h.same rfl rfl rfl rfl
theorem Keeps.setRej (h : Keeps s u) (n : Nat) (v : Rej) : Keeps s (u.setRej n v) := h.same rfl rfl rfl rfl
theorem Keeps.setEx (h : Keeps s u) (n : Nat) (v : Exec) : Keeps s (u.setEx n v) := h.same rfl rfl rfl rfl
theorem Keeps.answer (h : Keeps s u) (r : Resp) : Keeps s (u.answer r) := h.same rfl rfl rfl rfl
theorem Keeps.send (h : Keeps s u) (o : Out) : Keeps s (u.send o) := h.same rfl rfl rfl rfl
theorem Keeps.free (h : Keeps s u) (w : Nat) : Keeps s (u.free w).2 := h.same rfl rfl rfl rfl

theorem Keeps.eventAt (h : Keeps s u) (d : Int) (src cause inst : Nat) (data : Bytes := []) :
    Keeps s (u.eventAt d src cause inst data) := by
  obtain ⟨x, hx⟩ := u.eventAt_host_only d src cause inst data
  rw [hx]
  exact h.same rfl rfl rfl rfl

theorem Keeps.event (h : Keeps s u) (src cause inst : Nat) (data : Bytes := []) : Keeps s (u.event src cause inst data) := by
  obtain ⟨x, hx⟩ := u.event_host_only src cause inst data
  rw [hx]
  exact h.same rfl rfl rfl rfl

/-! ## Memory: every write keeps the canonical form -/

theorem Mem.wf_iff (m : Mem) :
    m.wf = true ↔ twf zeroCell m.dram = true ∧ twf zeroCell m.host = true ∧ twf onesCell m.flash = true := by
  simp [Mem.wf, Bool.and_eq_true, and_assoc]

theorem Keeps.dramWrite (h : Keeps s u) (a : Nat) (b : Bytes) : Keeps s (u.dramWrite a b) :=
  ⟨h.queue, h.time, fun x => by
    obtain ⟨h1, h2, h3⟩ := (Mem.wf_iff _).mp (h.mem x)
    exact (Mem.wf_iff _).mpr ⟨twf_writeCells _ _ _ _ h1, h2, h3⟩, h.fsw⟩

theorem Keeps.hostWrite (h : Keeps s u) (a : Nat) (b : Bytes) : Keeps s (u.hostWrite a b) :=
  ⟨h.queue, h.time, fun x => by
    obtain ⟨h1, h2, h3⟩ := (Mem.wf_iff _).mp (h.mem x)
    exact (Mem.wf_iff _).mpr ⟨h1, twf_writeCells _ _ _ _ h2, h3⟩, h.fsw⟩

theorem Keeps.flashWrite (h : Keeps s u) (a : Nat) (b : Bytes) : Keeps s (u.flashWrite a b) :=
  ⟨h.queue, h.time, fun x => by
    obtain ⟨h1, h2, h3⟩ := (Mem.wf_iff _).mp (h.mem x)
    exact (Mem.wf_iff _).mpr ⟨h1, h2, twf_writeCells _ _ _ _ h3⟩, h.fsw⟩

theorem Keeps.memWrite (h : Keeps s u) (d : Bool) (a : Nat) (b : Bytes) : Keeps s (u.memWrite d a b) := by
  unfold State.memWrite
  exact (h.dramWrite a b).ite (h.hostWrite a b)

/-! ## Errors and faults -/

theorem Keeps.emcyNode (h : Keeps s u) (i code : Nat) (data : Bytes) : Keeps s (u.emcyNode i code data) := by
  unfold State.emcyNode
  dsimp only
  split
  · exact h
  · split
    · split
      · exact h
      · exact h.setCan _ _
    · exact (h.setCan _ _).send _

theorem Keeps.pushError (h : Keeps s u) (code : Nat) : Keeps s (u.pushError code) := by
  unfold State.pushError
  exact ((h.foldr _ _ (fun v x g => g.setn _ _)).setn _ _).setn _ _

theorem Keeps.emcy (h : Keeps s u) (code : Nat) (data : Bytes) : Keeps s (u.emcy code data) :=
  ((h.pushError code).emcyNode 0 code data).emcyNode 1 code data

theorem Keeps.errReg (h : Keeps s u) : Keeps s u.errReg := h.setn _ _

theorem Keeps.dropSafe (h : Keeps s u) : Keeps s u.dropSafe := by
  unfold State.dropSafe
  refine Keeps.ite (Keeps.event ?_ _ _ _) h
  exact h.same rfl rfl rfl rfl

/-- Setting a status bit below 56 keeps the reserved bits 0. -/
theorem fsw_set (v : BitVec 64) (b : Nat) (hb : b < 56) (h : v.toNat < 2 ^ 56) : (v ||| BitVec.ofNat 64 (2 ^ b)).toNat < 2 ^ 56 := by
  have h1 : (2 : Nat) ^ b < 2 ^ 56 := Nat.pow_lt_pow_right (by omega) hb
  have h2 : (BitVec.ofNat 64 (2 ^ b)).toNat < 2 ^ 56 := by
    rw [BitVec.toNat_ofNat]
    exact Nat.lt_of_le_of_lt (Nat.mod_le _ _) h1
  rw [BitVec.toNat_or]
  exact Nat.or_lt_two_pow h h2

theorem Keeps.setFault (h : Keeps s u) (b : Nat) (hb : b < 56) : Keeps s (u.setFault b) :=
  ⟨h.queue, h.time, h.mem, fun x => decide_eq_true (fsw_set _ b hb (of_decide_eq_true (h.fsw x)))⟩

theorem Keeps.firstFault (h : Keeps s u) (b : Nat) : Keeps s (u.firstFault b) := by
  unfold State.firstFault
  have h1 : Keeps s { u with flt := { u.flt with firstT := u.now } } := h.same rfl rfl rfl rfl
  exact Keeps.ite (h1.setn _ _) (Keeps.ite (h.setn _ _) h)

theorem Keeps.noteFault (h : Keeps s u) (b syn : Nat) (was : Bool) : Keeps s (u.noteFault b syn was) := by
  unfold State.noteFault
  dsimp only
  have h1 : Keeps s (if was then u.setn (oFlt b 5) (min (u.nat (oFlt b 5) + 1) (2 ^ 32 - 1) : Nat)
      else (u.setn (oFlt b 5) 1).setn (oFlt b 4) (u.dev.toNat : Nat)) := Keeps.ite (h.setn _ _) ((h.setn _ _).setn _ _)
  exact ((Keeps.ite h1 (h1.setn _ _)).setn _ _).setn _ _

theorem Keeps.latchFault (h : Keeps s u) (b cause inst detail : Nat) (inj : Bool) (cls : Nat) (hb : b < 56) :
    Keeps s (u.latchFault b cause inst detail inj cls) := by
  unfold State.latchFault
  dsimp only
  have h1 := ((h.firstFault b).setFault b hb).noteFault b (b2n inj * 2147483648 + (cause % 128) * 16777216 + (inst % 256) * 65536 + detail % 65536)
    (u.flt.fsw.getLsbD b)
  have h2 := Keeps.errReg (Keeps.ite (c := (State.noteFault ((u.firstFault b).setFault b) b (b2n inj * 2147483648 + (cause % 128) * 16777216 + (inst % 256) * 65536 + detail % 65536)
    (u.flt.fsw.getLsbD b)).obit (oFlt b 2) 0 = true) (h1.event (0xC8 + b / 16) (0x0600 + b) inst (leBytes 4 (b2n inj * 2147483648 + (cause % 128) * 16777216 + (inst % 256) * 65536 + detail % 65536))) h1)
  exact Keeps.ite h2 (h2.emcy _ _)

theorem Keeps.stopPulses (h : Keeps s u) (c : Nat) : Keeps s (u.stopPulses c) := by
  unfold State.stopPulses
  exact ((h.setCasement _ _).send _).ite (h.setCasement _ _)

theorem Keeps.casFault (h : Keeps s u) (c cause : Nat) : Keeps s (u.casFault c cause) := by
  unfold State.casFault
  refine Keeps.ite h (Keeps.setn (Keeps.setn (Keeps.stopPulses ?_ _) _ _) _ _)
  exact h.same rfl rfl rfl rfl

theorem Keeps.casStop (h : Keeps s u) (b c : Nat) : Keeps s (u.casStop b c) := by
  unfold State.casStop
  refine Keeps.ite ?_ (h.casFault c 1)
  exact (h.casFault c 1).same rfl rfl rfl rfl

theorem Keeps.putAx (h : Keeps s u) (n : Nat) (v : Axis) : Keeps s (u.putAx n v) := Keeps.ite (h.setAx _ _) (h.setAx _ _)

theorem Keeps.rampFaulted (h : Keeps s u) (a : Nat) : Keeps s (u.rampFaulted a) := (h.putAx _ _).setn _ _

theorem Keeps.axStop (h : Keeps s u) (a why : Nat) : Keeps s (u.axStop a why) := by
  unfold State.axStop
  dsimp only
  split
  · exact (h.setAx _ _).setn _ _
  · split <;> exact h.setAx _ _
  · exact (h.rampFaulted a).ite h
  · exact h

theorem Keeps.axFault (h : Keeps s u) (a i : Nat) (brakes : Bool) : Keeps s (u.axFault a i brakes) := by
  unfold State.axFault
  exact Keeps.ite h ((((h.putAx _ _).setn _ _).setbit _ _ _).setn _ _)

theorem Keeps.lsyncHold (h : Keeps s u) (x : Nat) : Keeps s (u.lsyncHold x) := by
  unfold State.lsyncHold
  refine Keeps.ite (Keeps.setn ?_ _ _) h
  exact h.same rfl rfl rfl rfl

theorem Keeps.startProgram (h : Keeps s u) (x e : Nat) : Keeps s (u.startProgram x e) := by
  unfold State.startProgram
  dsimp only
  have h1 := h.lsyncHold x
  refine Keeps.setn (Keeps.setn (Keeps.ite ?_ (h1.setEx _ _)) _ _) _ _
  exact h1.same rfl rfl rfl rfl

theorem Keeps.hwShutdown (h : Keeps s u) : Keeps s u.hwShutdown := by
  unfold State.hwShutdown
  exact Keeps.ite h (h.startProgram _ _)

theorem Keeps.enterMode (h : Keeps s u) (m : Nat) : Keeps s (u.enterMode m) := by
  unfold State.enterMode
  exact Keeps.event (((h.setn _ _).setn _ _).foldl _ _ (fun v x g => g.setCan _ _)) _ _ _ _

theorem Keeps.enterSafe (h : Keeps s u) : Keeps s u.enterSafe := by
  unfold State.enterSafe
  refine Keeps.ite ?_ h
  refine Keeps.foldl _ _ (fun v x g => (g.axStop x 3).ite g) (Keeps.hwShutdown (Keeps.enterMode ?_ 7))
  exact h.same rfl rfl rfl rfl

/-- A fault with all its reactions. -/
theorem Keeps.fault (h : Keeps s u) (b cause inst detail : Nat) : Keeps s (u.fault b cause inst detail) := by
  unfold State.fault
  by_cases hb : 56 ≤ b
  · rw [if_pos hb]
    exact h
  · rw [if_neg hb]
    generalize u.faultTakes b cause inst = p
    obtain ⟨cls, cas⟩ := p
    dsimp only
    have hb' : b < 56 := by omega
    split
    · refine Keeps.casStop (Keeps.ite (Keeps.dropSafe ?_) ?_) _ _ <;> refine Keeps.latchFault ?_ _ _ _ _ _ _ hb' <;> split <;>
        exact h.same rfl rfl rfl rfl
    · refine Keeps.axStop (Keeps.ite (Keeps.dropSafe ?_) ?_) _ _ <;> refine Keeps.latchFault ?_ _ _ _ _ _ _ hb' <;> split <;>
        exact h.same rfl rfl rfl rfl
    · refine Keeps.enterSafe (Keeps.ite (Keeps.dropSafe ?_) ?_) <;> refine Keeps.latchFault ?_ _ _ _ _ _ _ hb' <;> split <;>
        exact h.same rfl rfl rfl rfl
    · refine Keeps.ite (Keeps.dropSafe ?_) ?_ <;> refine Keeps.latchFault ?_ _ _ _ _ _ _ hb' <;> split <;>
        exact h.same rfl rfl rfl rfl

theorem Keeps.setLive (h : Keeps s u) (b : Nat) (on : Bool) : Keeps s (u.setLive b on) := h.same rfl rfl rfl rfl

theorem Keeps.axisFault (h : Keeps s u) (a cause detail : Nat) : Keeps s (u.axisFault a cause detail) := h.fault _ _ _ _

theorem Keeps.positionLost (h : Keeps s u) (a : Nat) : Keeps s (u.positionLost a) := (h.axFault a 6 true).axisFault a 3 0

theorem Keeps.railOff (h : Keeps s u) (n : Nat) : Keeps s (u.railOff n) := by
  unfold State.railOff
  exact Keeps.ite (((h.setRail _ _).setn _ _).stopPulses _) ((h.setRail _ _).setn _ _)

theorem Keeps.allOff (h : Keeps s u) : Keeps s u.allOff := h.foldl _ _ (fun _ x g => g.railOff x)

/-! ## One-time rows -/

theorem otpWord_mod (v : Nat) : otpWord v % 2 ^ 32 = v % 2 ^ 32 := by unfold otpWord; omega

/-- A row written for a value stands in the code. -/
theorem otpValid_otpWord (v : Nat) : otpValid (otpWord v) = true := by
  have h : BitVec.ofNat 32 (otpWord v) = BitVec.ofNat 32 v := by
    apply BitVec.eq_of_toNat_eq
    simp only [BitVec.toNat_ofNat]
    exact otpWord_mod v
  have : otpWord (otpWord v) = otpWord v := by
    conv_lhs => rw [otpWord, h, otpWord_mod]
    rfl
  simp [otpValid, this]

/-- It reads back as that value, with no correction. -/
theorem otpDecode_otpWord (v : Nat) : otpDecode (otpWord v) = (v % 2 ^ 32, 0) := by
  simp [otpDecode, otpValid_otpWord]
  exact otpWord_mod v

end Sys2Proof.Machine
end

