-- ==== Sys2Proof/Machine/Package.lean ====
section
/-! DEFINITION. The balls of the package and the supplies at them (R183, R451 to R458, R460). They change no state: every pin that a rule acts on is a field of State or a command, and here stands the ball at which it is found. -/

namespace Sys2Proof.Machine

/-! ## Balls (R451) -/

/-- A ball: row index 0 to 48, column 1 to 49. -/
structure Ball where
  row : Nat
  col : Nat
  deriving DecidableEq, Repr

/-- The letters a row name is made of, in order. -/
def rowLetters : List String :=
  ["A", "B", "C", "D", "E", "F", "G", "H", "J", "K", "L", "M", "N", "P", "T", "U", "V", "W", "Y"]

/-- The letters of row `r` (R451). -/
def rowName (r : Nat) : String :=
  let l (i : Nat) : String := (rowLetters[i]?).getD ""
  if r < 19 then l r else if r < 38 then "A" ++ l (r - 19) else "B" ++ l (r - 38)

/-- The name of a ball (R451). -/
def Ball.name (b : Ball) : String := rowName b.row ++ toString b.col

/-! ## Signals (R452) -/

/-- The signal balls. `m` tells the _M wire of a pair from its _P wire; an index `i` is the place in the table's Members column. -/
inductive Signal where
  | sash (s : Fin 192) (m : Bool)
  | cclk (c : Fin 48) (m : Bool)
  | pcie (i : Fin 9) (m : Bool)
  | perst
  | clkreq
  | casement (c : Fin 48) (i : Fin 7)
  | en (n : Fin 64)
  | pg (n : Fin 64)
  | azrov (p : Fin 4) (rx m : Bool)
  | powerPort (a : Fin 16) (i : Fin 15)
  /-- Of axis 16 + a. -/
  | stepAxis (a : Fin 32) (i : Fin 3)
  | encoder (e : Fin 16) (i : Fin 6)
  | gin (n : Fin 64)
  | gout (n : Fin 32)
  | service (i : Fin 81)
  | ddr (i : Fin 90)
  deriving DecidableEq, Repr

/-- The service list of R452, in order. -/
def serviceList : List String :=
  ["X40_IN", "X40_OUT", "X32_IN", "X32_OUT", "VBAT", "VPP", "TEST"]
  ++ ["PORST_N", "MR_N", "PB_N", "LSYNC", "SAFE_A", "SAFE_B", "BOOT0", "BOOT1", "BOOT2"]
  ++ ["TCK", "TMS", "TDI", "TDO", "TRST_N", "UART_TX", "UART_RX", "CAN0_TX", "CAN0_RX", "CAN1_TX", "CAN1_RX"]
  ++ (List.range 8).flatMap (fun n => ["PLS" ++ toString n ++ "_A", "PLS" ++ toString n ++ "_B"])
  ++ ["XSPI_CLK", "XSPI_CS_N", "XSPI_DQS"] ++ (List.range 8).map (fun n => "XSPI_DQ" ++ toString n) ++ ["XSPI_RESET_N"]
  ++ (List.range 2).flatMap (fun m =>
      let p := "RGMII" ++ toString m ++ "_"
      [p ++ "TXC", p ++ "TX_CTL"] ++ (List.range 4).map (fun n => p ++ "TXD" ++ toString n)
      ++ [p ++ "RXC", p ++ "RX_CTL"] ++ (List.range 4).map (fun n => p ++ "RXD" ++ toString n))
  ++ ["MDC", "MDIO"]

/-- The DDR4 list of R452, in order. -/
def ddrList : List String :=
  ((List.range 5).flatMap (fun l =>
      (List.range 8).map (fun n => "DQ" ++ toString (8 * l + n))
      ++ ["DQS" ++ toString l ++ "_P", "DQS" ++ toString l ++ "_M", "DM" ++ toString l ++ "_N"])
    ++ ["CK_P", "CK_M"] ++ (List.range 18).map (fun n => "A" ++ toString n)
    ++ ["BA0", "BA1", "BG0", "BG1", "ACT_N", "CS0_N", "CS1_N", "CKE0", "CKE1", "ODT0", "ODT1", "PAR", "ALERT_N",
        "RESET_N", "ZQ"]).map (fun n => "DDR_" ++ n)

/-- _P or _M. -/
def wire (m : Bool) : String := if m then "_M" else "_P"

/-- The name of a signal. -/
def Signal.name : Signal → String
  | .sash s m => "SASH" ++ toString s.val ++ wire m
  | .cclk c m => "CCLK" ++ toString c.val ++ wire m
  | .pcie i m =>
    (if i.val < 4 then "PE_TX" ++ toString i.val else if i.val < 8 then "PE_RX" ++ toString (i.val - 4) else "PE_REFCLK") ++ wire m
  | .perst => "PERST_N"
  | .clkreq => "CLKREQ_N"
  | .casement c i =>
    let n := toString c.val
    (["CFRM" ++ n, "CSTB" ++ n ++ "0", "CSTB" ++ n ++ "1", "CSILL" ++ n, "CTH" ++ n, "CVS" ++ n, "CMS" ++ n][i.val]?).getD ""
  | .en n => "EN" ++ toString n.val
  | .pg n => "PG" ++ toString n.val
  | .azrov p rx m => "AZ" ++ toString p.val ++ (if rx then "_RX" else "_TX") ++ wire m
  | .powerPort a i =>
    "PP" ++ toString a.val ++ (if i.val < 8 then "_G" ++ toString i.val else if i.val < 12 then "_IS" ++ toString (i.val - 8)
      else "_VP" ++ toString (i.val - 12))
  | .stepAxis a i => "SD" ++ toString (a.val + 16) ++ ((["_STEP", "_DIR", "_EN"][i.val]?).getD "")
  | .encoder e i =>
    "ENC" ++ toString e.val ++ (if i.val < 2 then "_A/SIN" else if i.val < 4 then "_B/COS" else "_Z") ++ wire (i.val % 2 == 1)
  | .gin n => "GIN" ++ toString n.val
  | .gout n => "GOUT" ++ toString n.val
  | .service i => (serviceList[i.val]?).getD ""
  | .ddr i => (ddrList[i.val]?).getD ""

/-- The ball at place `k` of a block of rows `w` wide that starts at row `r`, column `c`. -/
def ballAt (r c w k : Nat) : Ball := ⟨r + k / w, c + k % w⟩

/-- The ball of place `k` on the flank of casements and rails: west for the lower half, east for the upper (R452). -/
def flank (upper : Bool) (k : Nat) : Ball := ballAt 15 (if upper then 34 else 4) 13 k

/-- The ball of a signal (R452). -/
def Signal.ball : Signal → Ball
  | .sash s m => ⟨s.val / 16, 3 * (s.val % 16) + (if m then 2 else 1)⟩
  | .cclk c m => ⟨12 + c.val / 16, 3 * (c.val % 16) + (if m then 2 else 1)⟩
  | .pcie i m => ⟨15 + 2 * i.val, if m then 2 else 1⟩
  | .perst => ⟨33, 1⟩
  | .clkreq => ⟨33, 2⟩
  | .casement c i => flank (24 ≤ c.val) (7 * (c.val % 24) + i.val)
  | .en n => flank (32 ≤ n.val) (168 + 2 * (n.val % 32))
  | .pg n => flank (32 ≤ n.val) (169 + 2 * (n.val % 32))
  | .azrov p rx m => ⟨15 + 2 * (2 * p.val + (if rx then 1 else 0)), if m then 48 else 49⟩
  | .powerPort a i => ballAt 34 1 49 (15 * a.val + i.val)
  | .stepAxis a i => ballAt 39 1 49 (3 * a.val + i.val)
  | .encoder e i => ⟨41 + e.val / 8, 1 + 6 * (e.val % 8) + i.val⟩
  | .gin n => ballAt 43 1 49 n.val
  | .gout n => ballAt 43 1 49 (64 + n.val)
  | .service i => ballAt 45 1 49 i.val
  | .ddr i => ⟨48 - i.val / 49, 1 + i.val % 49⟩

/-- Every signal ball. -/
def allSignals : List Signal :=
  let two := [false, true]
  (List.finRange 192).flatMap (fun s => two.map (Signal.sash s))
  ++ (List.finRange 48).flatMap (fun c => two.map (Signal.cclk c))
  ++ (List.finRange 9).flatMap (fun i => two.map (Signal.pcie i))
  ++ [.perst, .clkreq]
  ++ (List.finRange 48).flatMap (fun c => (List.finRange 7).map (Signal.casement c))
  ++ (List.finRange 64).map Signal.en ++ (List.finRange 64).map Signal.pg
  ++ (List.finRange 4).flatMap (fun p => two.flatMap (fun rx => two.map (Signal.azrov p rx)))
  ++ (List.finRange 16).flatMap (fun a => (List.finRange 15).map (Signal.powerPort a))
  ++ (List.finRange 32).flatMap (fun a => (List.finRange 3).map (Signal.stepAxis a))
  ++ (List.finRange 16).flatMap (fun e => (List.finRange 6).map (Signal.encoder e))
  ++ (List.finRange 64).map Signal.gin ++ (List.finRange 32).map Signal.gout
  ++ (List.finRange 81).map Signal.service ++ (List.finRange 90).map Signal.ddr

/-! ## Supplies (R453 to R456) -/

/-- The supplies of the device. -/
inductive Supply where
  | vdd | vddm | vddq | vddio18 | vddio33 | vdda18 | vdds | vddsh | vbat
  deriving DecidableEq, Repr

/-- The supply at an even column of a core row (R453). -/
def coreSupply (r col : Nat) : Option Supply :=
  if r < 15 ∨ 33 < r ∨ col < 18 ∨ 32 < col ∨ col % 2 = 1 then none
  else if r < 17 then some .vddio18
  else if r = 17 then some .vddm
  else if r < 27 then some .vdd
  else if r = 27 then some .vddm
  else if r < 30 then some .vddq
  else if r = 30 then some .vdda18
  else if r = 31 then some (if col ≤ 24 then .vdds else .vddsh)
  else if r = 32 then some .vddio33
  else some .vddio18

/-- What is found at a ball: a signal (R452), a supply (R453) or VSS (R454). -/
inductive BallNet where
  | signal (s : Signal)
  | supply (s : Supply)
  | vss
  deriving DecidableEq, Repr

/-- The net of a ball (R452 to R454). -/
def Ball.net (b : Ball) : BallNet :=
  match allSignals.find? (fun s => s.ball == b) with
  | some s => .signal s
  | none =>
    match coreSupply b.row b.col with
    | some v => .supply v
    | none => .vss

/-- The recommended range of a supply, in mV (R456). -/
def Supply.recommended : Supply → Int × Int
  | .vdd => (776, 824)
  | .vddm => (873, 927)
  | .vddq => (1140, 1260)
  | .vddio18 | .vdda18 | .vddsh => (1710, 1890)
  | .vddio33 => (3135, 3465)
  | .vdds => (825, 875)
  | .vbat => (1550, 3600)

/-- The absolute maximum ratings of a supply, in mV (R455). -/
def Supply.absolute : Supply → Int × Int
  | .vdd => (-300, 950)
  | .vdds => (-300, 1000)
  | .vddm => (-300, 1050)
  | .vddq => (-300, 1500)
  | .vddio18 | .vdda18 | .vddsh => (-300, 2100)
  | .vddio33 => (-300, 3900)
  | .vbat => (-300, 4000)

/-- Whether a voltage lies in a range, both ends included. -/
def within (r : Int × Int) (mv : Int) : Bool := decide (r.1 ≤ mv ∧ mv ≤ r.2)

/-- Whether the rules of the manual hold at voltages `v` (R428, R456): every supply but VBAT in its recommended range. -/
def supplied (v : Supply → Int) : Bool :=
  [Supply.vdd, .vddm, .vddq, .vddio18, .vddio33, .vdda18, .vdds, .vddsh].all (fun s => within s.recommended (v s))

/-- Where the VBAT domain is fed from (R456). -/
def vbatDomainFrom (v : Supply → Int) : Supply := if 2900 < v .vddio33 then .vddio33 else .vbat

/-! ## Levels (R183, R457, R458, R460) -/

/-- Electrical kinds of balls. -/
inductive IoKind where
  | schmitt33 | out33 | openDrain33 | cmos18 | sill | analog | sashOut | casementOut | encoderIn | ddr4 | lane | supplyOrClock
  deriving DecidableEq, Repr

/-- The kind of a signal ball (R183, R458). -/
def Signal.kind : Signal → IoKind
  | .sash _ _ | .cclk _ _ => .sashOut
  | .pcie _ _ | .azrov _ _ _ => .lane
  | .perst | .clkreq => .lane
  | .casement _ i => if i.val < 3 then .casementOut else if i.val = 3 then .sill else .analog
  | .en _ | .gout _ | .stepAxis _ _ => .out33
  | .pg _ | .gin _ => .schmitt33
  | .powerPort _ i => if i.val < 8 then .out33 else .analog
  | .encoder _ _ => .encoderIn
  | .ddr _ => .ddr4
  | .service i =>
    if i.val < 7 then .supplyOrClock
    else if i.val = 10 then .openDrain33
    else if i.val ∈ [11, 12, 19, 21, 23, 25] then .out33
    else if i.val < 27 then .schmitt33
    else if i.val < 43 then .out33
    else .cmos18

/-- The level that an input of a kind reads at a voltage in mV, given the voltage of VDDIO18; none between its limits and for a kind
without a logic input (R183, R458). -/
def IoKind.reads (k : IoKind) (vddio18 mv : Int) : Option Bool :=
  let cut (lo hi : Int) : Option Bool := if mv ≤ lo then some false else if hi ≤ mv then some true else none
  match k with
  | .schmitt33 | .openDrain33 => cut 800 2000
  | .cmos18 => cut (vddio18 * 35 / 100) (-(-(vddio18 * 65) / 100))
  | .sill => cut 500 1200
  | _ => none

/-- Balls that may be held high while their supply is off (R457). -/
def Signal.failSafe : Signal → Bool
  | .gin _ | .pg _ | .encoder _ _ => true
  | .casement _ i => i.val == 3
  | .service i => decide (i.val ∈ [7, 8, 9, 10])
  | _ => false

/-- The internal pull of a ball: up (true) or down (false), 50 kohm (R458). -/
def Signal.pull : Signal → Option Bool
  | .service i => if i.val ∈ [8, 9, 17, 18] then some true else if i.val = 20 then some false else none
  | _ => none

/-- Balls that must be tied to VSS where they are unused (R460), and TEST, which always must (R454). -/
def Signal.tied : Signal → Bool
  | .gin _ | .pg _ => true
  | .powerPort _ i => decide (8 ≤ i.val)
  | .casement _ i => decide (4 ≤ i.val)
  | .perst => true
  | .service i => decide (i.val ∈ [6, 22, 24, 26])
  | _ => false

end Sys2Proof.Machine
end

