-- ==== Sys2Proof/WellFormed.lean ====
section
/-! DEFINITION. Which commands are well formed: operands inside the widths and ranges that the spec's tables give them. `exec` is total on
ill-formed commands too; statements may restrict themselves to well-formed ones. -/

namespace Sys2Proof

/-- A queue number (R296). -/
def queueOk (q : Nat) : Bool := Nat.blt q 16384

/-- A path that exists: a dictionary queue is a user's (R3). -/
def pathOk (p : Path) : Bool :=
  match p with
  | .queue q => queueOk q && Nat.ble 16 q
  | _ => true

/-- A number of at most 64 bits. -/
def natOk (n : Nat) : Bool := Nat.blt n (2 ^ 64)

/-- A signed number of at most 64 bits. -/
def intOk (x : Int) : Bool := decide (-2 ^ 63 ≤ x ∧ x < 2 ^ 63)

/-- A signed number of at most 64 bits, or none. -/
def optIntOk (x : Option Int) : Bool := x.all intOk

/-- An offset into a base address register: 64 MiB and 256 MiB (R293). -/
def offsetOk (off : Nat) : Bool := Nat.blt off (2 ^ 28)

/-- A datagram, a value or a frame: at most the 1,472 bytes of a KDP datagram (R346). -/
def bytesOk (b : Bytes) : Bool := Nat.ble b.length 1472

/-- A value, or none. -/
def optBytesOk (b : Option Bytes) : Bool := b.all bytesOk

/-- A mark identity (R360): node 0 to 31, casement 0 to 47. -/
def markOk (i : MarkId) : Bool := Nat.blt i.node 32 && Nat.blt i.casement 48 && Nat.blt i.seq (2 ^ 32)

/-- The fields of a POSITION frame (R360). -/
def posOk (f : PosFrame) : Bool :=
  Nat.blt f.src 32 && Nat.blt f.seq 65536 && Nat.blt f.slot 256 && Nat.blt f.axis 32 && Nat.blt f.status 65536 && natOk f.epoch
    && natOk f.ftime && intOk f.pos && intOk f.vel

/-- Neighbour entries name ports 0 to 3. -/
def entriesOk (l : List TopoEntry) : Bool :=
  l.all (fun e => Nat.blt e.port 4 && Nat.blt e.nbNode 256 && Nat.blt e.nbPort 256 && Nat.blt e.state 256)

/-- The longest response of a sill line is that of a READ of 128 bytes, 131 bytes (R173). -/
def replyOk (r : SillReply) : Bool := Nat.ble r.cells.length (8 * 131)

/-- The numbers of a PTP message. -/
def ptpOk (m : PtpMsg) : Bool :=
  match m with
  | .announce gm p c _ u => natOk gm && natOk p && natOk c && intOk u
  | .sync seq o _ rx => natOk seq && intOk o && intOk rx
  | .followUp seq o => natOk seq && intOk o
  | .delayReq seq port rx => natOk seq && natOk port && intOk rx
  | .delayResp seq rx => natOk seq && intOk rx
  | .pdelayReq seq rx => natOk seq && intOk rx
  | .pdelayResp seq a b rx => natOk seq && intOk a && intOk b && intOk rx
  | .management => true

/-- A well-formed command. -/
def Instr.wf (i : Instr) : Bool :=
  match i with
  | .registerWrite _ off _ _ => offsetOk off
  | .dictionaryWrite _ p _ _ v => pathOk p && bytesOk v
  | .encoderEdge _ _ _ _ => true
  | .sincosSample _ _ s c => intOk s && intOk c
  | .index _ _ => true
  | .wireCheckExpiry _ _ _ => true
  | .autoTrackUpdate _ _ smin smax cmin cmax freq => intOk smin && intOk smax && intOk cmin && intOk cmax && intOk freq
  | .encStatusClear _ _ _ _ => true
  | .lineAxisUpdate _ _ => true
  | .sourceKindWrite _ p _ v => pathOk p && natOk v
  | .sourceSwitch _ _ => true
  | .lineAxisSourceFault _ _ => true
  | .deadReckonExpiry _ _ => true
  | .zeroSpeedTimeout _ _ => true
  | .ginEdge _ _ => true
  | .ginPulseRejected _ _ => true
  | .ginStuckTimeout _ _ => true
  | .plsStepOut _ _ => true
  | .plsRatioWrite _ p _ _ v => pathOk p && natOk v
  | .laxSnap _ => true
  | .decisionPoint _ _ => true
  | .compositionStart _ _ => true
  | .changeApply _ => true
  | .markClose _ _ => true
  | .goDeadline _ _ => true
  | .reportMarginReached _ _ => true
  | .rejectPosition _ _ => true
  | .rejectPulseEnd _ _ => true
  | .casementArm _ p _ => pathOk p
  | .casementDisarm _ p _ => pathOk p
  | .casementEnterService _ p _ => pathOk p
  | .casementLeaveService _ p _ => pathOk p
  | .casementClearFault _ p _ => pathOk p
  | .armingComplete _ _ => true
  | .armingTimeout _ _ => true
  | .headPoll _ _ => true
  | .templateCommit _ p v => pathOk p && natOk v
  | .glyphSetCommit _ p v => pathOk p && natOk v
  | .rotorTableCommit _ p v => pathOk p && natOk v
  | .commitValidationDone _ _ => true
  | .glyphSetPin _ p _ v => pathOk p && natOk v
  | .templateQuery _ p v => pathOk p && natOk v
  | .typeCaseFillDone _ set block => natOk set && natOk block
  | .compositionUnitDispatch _ _ => true
  | .galleyRefillDone _ _ line => natOk line
  | .timeWriteStaged _ p => pathOk p
  | .timeWriteImmediate _ p => pathOk p
  | .stagedTimeApply _ => true
  | .ptpOffset _ theta utc => intOk theta && optIntOk utc
  | .ptpHoldoverTimeout _ => true
  | .holdoverExpiry _ => true
  | .calendarRealign _ => true
  | .calendarTrimStep _ => true
  | .timeSnap _ => true
  | .leapSecondApply _ => true
  | .daylightChange _ => true
  | .shiftChange _ => true
  | .tallyWrite _ p _ v => pathOk p && natOk v
  | .tallyLoRead _ _ => true
  | .persistMarkConfirmed _ _ => true
  | .notaryDispatch _ => true
  | .notaryOperationDone _ => true
  | .keyImport _ p v => pathOk p && natOk v
  | .keyRevoke _ p v => pathOk p && natOk v
  | .verifyExecute _ p v => pathOk p && natOk v
  | .trainingEnd _ _ => true
  | .strobeLimit _ _ _ => true
  | .sillTransactionStart _ _ => true
  | .sillTransactionDone _ _ r => replyOk r
  | .sillRetry _ _ => true
  | .adcConversion _ _ _ code => natOk code
  | .vddaReferenceConversion _ _ code => natOk code
  | .serviceRead _ p _ => pathOk p
  | .serviceWrite _ p _ => pathOk p
  | .lineLoad _ _ => true
  | .loadDeadline _ _ => true
  | .lineFreeze _ _ => true
  | .lineTrigger _ _ => true
  | .lineFired _ _ => true
  | .minPeriodRefresh _ _ => true
  | .measureCycle _ _ vb vh von => natOk vb && natOk vh && natOk von
  | .measurePassStart _ _ => true
  | .serviceFullPass _ p _ => pathOk p
  | .serviceOneElement _ p _ => pathOk p
  | .defectDeclare _ p _ e => pathOk p && natOk e
  | .defectClear _ p _ e => pathOk p && natOk e
  | .scrubStep _ => true
  | .consumeAdjust _ p _ v => pathOk p && natOk v
  | .spoolSpan _ _ => true
  | .inkSensorPoll _ _ => true
  | .hostSensorWrite _ p _ v => pathOk p && natOk v
  | .newSupply _ p _ v => pathOk p && natOk v
  | .usageLinesFlush _ _ => true
  | .usageHour _ _ => true
  | .recordWrite _ p _ v => pathOk p && natOk v
  | .ledgerExport _ p _ => pathOk p
  | .ledgerImport _ p _ => pathOk p
  | .axisEnable _ p _ => pathOk p
  | .axisDisable _ p _ => pathOk p
  | .axisMove _ p _ => pathOk p
  | .axisVelocity _ p _ => pathOk p
  | .axisRun _ p _ => pathOk p
  | .axisStop _ p _ => pathOk p
  | .axisAlign _ p _ => pathOk p
  | .axisBrake _ p _ => pathOk p
  | .axisClearFault _ p _ => pathOk p
  | .axisTick _ _ => true
  | .runCheckDone _ _ => true
  | .runTrigger _ _ => true
  | .limitInput _ _ _ => true
  | .followingError _ _ => true
  | .holdCurrentTimeout _ _ => true
  | .chopOff _ _ _ i => intOk i
  | .chopCycleEnd _ _ _ sense => intOk sense.1
  | .overcurrent _ _ _ => true
  | .observerUpdate _ _ _ _ _ _ => true
  | .observerDisagreement _ _ => true
  | .startTimeout _ _ => true
  | .catchDone _ _ => true
  | .segmentWrite _ p data => pathOk p && bytesOk data
  | .loopTick _ => true
  | .coefficientApply _ p _ v => pathOk p && natOk v
  | .loopOverrunClear _ p v => pathOk p && natOk v
  | .plannedPassRefresh _ => true
  | .bar2Access _ off write len _ => offsetOk off && optBytesOk write && natOk len
  | .queueEnable _ q => queueOk q
  | .queueDisable _ q => queueOk q
  | .doorbellWrite _ p q _ => pathOk p && queueOk q
  | .porterGrant _ _ => true
  | .agingPromotion _ q => queueOk q
  | .markRequestAccept _ q _ => queueOk q
  | .recordAccept _ q _ => queueOk q
  | .dictionaryRequest _ => true
  | .mailboxSubmit _ _ => true
  | .completionDrain _ q => queueOk q
  | .eventWrite _ => true
  | .irqModerationTimeout _ q => queueOk q
  | .dmaStart _ _ => true
  | .dmaAbort _ _ => true
  | .dmaBurst _ _ _ => true
  | .hostReset _ _ => true
  | .storeSave _ p v => pathOk p && natOk v
  | .storeRestore _ p v => pathOk p && natOk v
  | .storeSaveDone _ => true
  | .autoSave _ => true
  | .dramDataWrite _ p data => pathOk p && bytesOk data
  | .dramDataRead _ p _ => pathOk p
  | .usdoRequest _ _ _ _ write => optBytesOk write
  | .rpdoReceive _ _ _ data => bytesOk data
  | .tpdoTransmit _ _ _ => true
  | .syncReceive _ _ counter => natOk counter
  | .nmtStartRemoteNode _ _ => true
  | .nmtEnterPreoperational _ _ => true
  | .nmtStopRemoteNode _ _ => true
  | .nmtResetCommunication _ _ => true
  | .nmtResetNode _ _ => true
  | .heartbeatTimeout _ _ _ => true
  | .emcyInhibitExpiry _ _ => true
  | .busOff _ _ => true
  | .busOffRecovery _ _ => true
  | .kdpRequest _ _ _ _ data => bytesOk data
  | .kdpEventSend _ => true
  | .arpRequest _ _ _ _ _ => true
  | .icmpEcho _ _ _ _ data => bytesOk data
  | .ptpMessage _ _ domain msg => natOk domain && ptpOk msg
  | .ptpAnnounceTimeout _ => true
  | .portUp _ _ => true
  | .portDown _ _ _ => true
  | .positionSend _ _ => true
  | .position _ _ f => posOk f
  | .positionLossTimeout _ _ => true
  | .timeSyncSend _ _ => true
  | .timeSync _ _ seq t1 t2 t3 t4 foffParent => natOk seq && intOk t1 && intOk t2 && intOk t3 && intOk t4 && intOk foffParent
  | .helloSend _ => true
  | .hello _ _ seq src fabric nbPort _ serial => natOk seq && natOk src && natOk fabric && natOk nbPort && natOk serial
  | .topology _ _ seq src version entries => natOk seq && natOk src && natOk version && entriesOk entries
  | .viewStable _ => true
  | .tree _ _ seq version applyTime root epoch => natOk seq && natOk version && natOk applyTime && natOk root && natOk epoch
  | .treeApply _ => true
  | .failover _ _ link => natOk link
  | .rediscoveryStart _ link => natOk link
  | .ack _ _ seq => natOk seq
  | .nak _ _ seq => natOk seq
  | .replayTimeout _ _ => true
  | .anchor _ _ seq dst id ref aref ftime template tag => natOk seq && natOk dst && markOk id && natOk ref && intOk aref && natOk ftime && natOk template && natOk tag
  | .voteReceive _ _ seq id src cas _ items deadline => natOk seq && markOk id && natOk src && natOk cas && natOk items && natOk deadline
  | .voteCutoff _ _ => true
  | .go _ _ seq id => natOk seq && markOk id
  | .abort _ _ seq id => natOk seq && markOk id
  | .report _ _ seq id src cas _ late => natOk seq && markOk id && natOk src && natOk cas && natOk late
  | .pgChange _ _ _ => true
  | .pgTimeout _ _ => true
  | .retryDelayExpiry _ _ => true
  | .retryCountReset _ _ => true
  | .programStart _ p v => pathOk p && natOk v
  | .end_ _ _ => true
  | .enable _ _ => true
  | .disable _ _ => true
  | .wait _ _ => true
  | .waitPg _ _ => true
  | .checkJump _ _ => true
  | .syncStep _ _ => true
  | .lsyncQualify _ => true
  | .lsyncRedrive _ => true
  | .syncTimeout _ _ => true
  | .contention _ => true
  | .programTimeLimit _ _ => true
  | .shutdownTimeLimit _ => true
  | .storeCommit _ p v => pathOk p && natOk v
  | .pressed _ => true
  | .short _ => true
  | .forceOff _ => true
  | .manualReset _ => true
  | .otpRead _ => true
  | .otpMarginRead _ _ => true
  | .otpProgram _ p v => pathOk p && natOk v
  | .otpProgramDone _ _ => true
  | .lifecycleAdvance _ p v => pathOk p && natOk v
  | .setRestrict _ p => pathOk p
  | .setDebugLock _ p => pathOk p
  | .revokeFirmwareKey _ p v => pathOk p && natOk v
  | .advanceSecurityCounter _ p v => pathOk p && natOk v
  | .updateExecute _ p v => pathOk p && natOk v
  | .updateDone _ _ => true
  | .activate _ p v => pathOk p && natOk v
  | .confirmed _ => true
  | .hostBootLoad _ _ => true
  | .requestConfigure _ p => pathOk p
  | .requestStandby _ p => pathOk p
  | .requestReady _ p => pathOk p
  | .requestMarking _ p => pathOk p
  | .requestService _ p => pathOk p
  | .requestSafe _ p => pathOk p
  | .modeTransitionComplete _ => true
  | .porstLow _ => true
  | .porstRelease _ _ => true
  | .startupStandbyRequest _ => true
  | .deviceResetCommand _ p => pathOk p
  | .firmwareRestartCommand _ p => pathOk p
  | .resetHoldEnd _ => true
  | .restartEnd _ => true
  | .faultOccurrence _ _ cause inst detail => natOk cause && natOk inst && natOk detail
  | .faultClear _ p _ => pathOk p
  | .fswLoRead _ _ => true
  | .watchdog _ code => natOk code
  | .watchdogRestartStart _ => true
  | .lockstepMismatch _ group => natOk group
  | .dieTemperatureMeasure _ celsius => intOk celsius
  | .referenceLost _ _ => true
  | .injectionExecute _ p => pathOk p
  | .injectionRewrite _ => true
  | .safeHeartbeat _ => true
  | .inputInactive _ _ => true
  | .alignTimeExpiry _ _ => true
  | .catchBrakeExpiry _ _ => true
  | .pcieLinkUp _ speed width => natOk speed && natOk width
  | .ethernetLinkUp _ _ speed => natOk speed
  | .ethernetLinkDown _ _ => true
  | .errorPassive _ _ _ => true
  | .heartbeatProduce _ _ => true
  | .syncProduce _ _ => true
  | .ptpTransmit _ _ => true

end Sys2Proof
end

