-- ==== Sys2Proof/Tests/Slice0.lean ====
section
/-! SUPPORT. The model's own tests: ill-formed commands that WellFormed refuses, and for every statement a state and operands that meet
its hypotheses. -/

namespace Sys2Proof.Tests

open Sys2Proof.Machine

set_option maxRecDepth 100000
set_option linter.unusedVariables false

/-- The worked example of R454: the balls of casement 30. -/
theorem test_casement30_balls :
    [Signal.sash 120 false, .sash 123 true, .cclk 30 true, .casement 30 0, .casement 30 6].map (fun s => (rowName s.ball.row, s.ball.col))
      = [("H", 25), ("H", 35), ("P", 44), ("Y", 37), ("Y", 43)] := by decide

/-- The number of signal balls, TEST included (R454). -/
theorem test_signal_ball_count : allSignals.length = 1679 := by
  simp [allSignals, List.length_flatMap]

/-- The state after reset with some objects given. -/
def withObj (o : Tbl Val) : State := { State.reset with obj := o }

/-- A state in device mode `m` with some objects given. -/
def inMode (m : Nat) (o : Tbl Val) : State := withObj ((ky 0x2100 2, .num m) :: o)

/-- An identity record that fits a sash port of one link. -/
def goodRecord : Bytes := List.replicate 6 0 ++ [9, 1, 8] ++ List.replicate 12 0 ++ [8, 0xC0, 3] ++ List.replicate 72 0

/-- Casement 0 in COLD with a sash port and a record that fits it. -/
def withHead : State :=
  { withObj [(ky 0x2100 2, .num 4), (oCas 0 2 1, .num 1)] with
    force := [(oCas 0 4 1, .num 1), (oCas 0 4 3, .num 1), (oCas 0 4 4, .num 1)],
    cas := [(0, { Cas.init with recOk := true, recd := goodRecord })] }

/-- A rotor-angle table of 256 entries in two columns, all 0, with its CRC, in DRAM at 0 and staged for a commit. -/
def withRotor : State :=
  let s := withObj [(ky 0x2041 3, .num 1040), (ky 0x2100 2, .num 3)]
  { s with mem := { s.mem with dram := [(0, 0x4B), (1, 0x44), (2, 0x53), (3, 0x54), (4, 1), (5, 2), (7, 1), (12, 0x30), (13, 0xB4),
      (14, 0xC9), (15, 0x45)] } }

/-- A mark whose template is chosen and whose composition has started. -/
def readyMark : Mark := { Mark.init with comp := some 1, tpl := some ⟨0, 0, 0, 1, 1, 0, [], []⟩ }

/-- A line whose pulses run. -/
def firingLine : Line := ⟨.firing, 0, true, [], [], [], 0, 0, [5], [0], 0, 100⟩

/-- A sealing request. -/
def sealReq : NReq := ⟨0, 0, 0, 0, [], 0, 0⟩

/-- Casement 0 in ARMED with a measurement in its gap. -/
def withGap : State :=
  { withObj [(ky 0x2100 2, .num 5), (oCas 0 2 1, .num 3), (oCas 0 0x0D 1, .num 1), (oCas 0 5 2, .num 1)] with
    cas := [(0, { Cas.init with recOk := true, cthT := some 0, cvsT := some 0, pass := true, meas := some ⟨0, 0, false, 0, 0⟩ })] }

/-- MARKING with axis 0 in state `st`, of kind `k`, with encoder `e` (255: none). -/
def axIn (st k e : Nat) : State :=
  { withObj [(ky 0x2100 2, .num 5), (oAx 0 0 2, .num e), (oAx 0 2 3, .num 255), (oAx 0 2 5, .num st)] with force := [(oAx 0 0 1, .num k)] }

/-- A node joined to its neighbour 1 over port 0, in MARKING. -/
def fabricUp : State :=
  { withObj [(ky 0x2100 2, .num 5)] with
    force := [(ky 0x2400 1, .num 1), (ky 0x2400 2, .num 0), (ky 0x2400 5, .num 15)],
    fab := { State.reset.fab with ports := [(0, { FPort.init with up := true, nb := some (1, 0) })], tree := [(0, 4)] } }

/-- A stitched mark of lead casement 0. -/
def stitch : Stitch := ⟨⟨0, 0, 1⟩, [], none, none, [], false, [], false, 0⟩

/-- Executor 0 at step 0 with program word `w`. -/
def lampAt (w : Nat) : State :=
  { withObj [(ky 0x2100 2, .num 5), (exKey 0 1, .num 1), (exKey 0 2, .num 0)] with
    lamp := { State.reset.lamp with words := [(0, w)], locked := false } }

/-! ## Ill-formed commands, one for each check of WellFormed -/

theorem ill_queue : (Instr.queueEnable 0 16384).wf = false := by decide
theorem ill_path : (Instr.casementArm 0 (.queue 3) 0).wf = false := by decide
theorem ill_number : (Instr.templateCommit 0 .mailbox (2 ^ 64)).wf = false := by decide
theorem ill_integer : (Instr.chopOff 0 0 0 (2 ^ 63)).wf = false := by decide
theorem ill_offset_integer : (Instr.ptpOffset 0 0 (some (2 ^ 63))).wf = false := by decide
theorem ill_offset : (Instr.registerWrite 0 (2 ^ 28) false 0).wf = false := by decide
theorem ill_bytes : (Instr.dictionaryWrite 0 .mailbox 0x2700 1 (List.replicate 1473 0)).wf = false := by decide
theorem ill_optional_bytes : (Instr.usdoRequest 0 0 0x2700 1 (some (List.replicate 1473 0))).wf = false := by decide
theorem ill_mark : (Instr.report 0 0 0 ⟨32, 0, 0⟩ 0 0 0 0).wf = false := by decide
theorem ill_position : (Instr.position 0 0 ⟨32, 0, 0, 0, 0, 0, 0, 0, 0⟩).wf = false := by decide
theorem ill_entries : (Instr.topology 0 0 0 1 0 [⟨4, 0, 0, 0⟩]).wf = false := by decide
theorem ill_reply : (Instr.sillTransactionDone 0 0 ⟨List.replicate 1049 (true, false)⟩).wf = false := by decide
theorem ill_ptp : (Instr.ptpMessage 0 0 0 (.announce (2 ^ 64) 0 0 false 0)).wf = false := by decide

/-! ## Values worked out in the spec or given by the standards it names -/

/-- The CRC-32 of R359 and the CRCs of R153 and R173 over "123456789", the check values published for their parameters. -/
theorem test_crc : crc32 [0x31, 0x32, 0x33, 0x34, 0x35, 0x36, 0x37, 0x38, 0x39] = 0xCBF43926 ∧
    crc16 [0x31, 0x32, 0x33, 0x34, 0x35, 0x36, 0x37, 0x38, 0x39] = 0x29B1 ∧
    crc8 [0x31, 0x32, 0x33, 0x34, 0x35, 0x36, 0x37, 0x38, 0x39] = 0xF4 := by decide

/-- 08_firing, the thermal head's example: fv, ft and the widths in full and compressed. -/
theorem test_widths : voltFactor 24000 23400 = 17235 ∧ tempFactor (fun i => if i = 12 then 15360 else 16384) 640 = 15360 ∧
    [12800, 9600, 6400].map (fun w => rawWidth w 17235 15360 32768 65208 32768) = [12560, 9420, 6280] ∧
    [12800, 9600, 6400].map (fun w => rawWidth w 17235 15360 32768 65208 29811) = [11427, 8570, 5713] := by decide

/-- 08_firing: the frame of 16,384 payload bits, and the frame of 4,096 bits less its trailer. -/
theorem test_frame : frameLen 16384 = 16736 ∧ frameLen 4096 - 16 = 4240 := by decide

/-- 11_loop_engine, the spool's example: feed-forward, proportional and integral terms, and the ramp at k = 25. -/
theorem test_loop : mulSat 8149 2147484 24 = 1043 ∧ mulSat 845 (-100) 8 = -331 ∧ mulSat 1 (-100) 4 = -7 ∧
    rampStep (-385) 50 25 = (-192, true) ∧ rampStep (-385) 50 50 = (0, false) := by decide

/-- R94: 1 January 2027 lies in week 53 of 2026, 31 December 2024 in week 1 of 2025. -/
theorem test_isoWeek : isoWeek (daysOf 2027 1 1) = (2026, 53) ∧ isoWeek (daysOf 2024 12 31) = (2025, 1) := by decide

/-- R95: one month after 31 January is the last of February. -/
theorem test_shiftDate : dateOf (shiftDate (daysOf 2028 1 31) 1 1) = (2028, 2, 29) := by decide

/-- R217, R233: one inverted bit of a record is corrected, two are not. -/
theorem test_record : readCheck (withCheck 0x1234567) = (0x1234567, 0) ∧ readCheck (withCheck 0x1234567 ^^^ 8) = (0x1234567, 1) ∧
    (readCheck (withCheck 0x1234567 ^^^ 12)).2 = 2 := by decide

/-- No word of the table spells a command. -/
theorem test_words : Sys2Proof.decodeTableWord 16 5 = none := by decide

/-! ## For every statement, a state and operands that meet its hypotheses -/

theorem wit_encoderEdge : ∃ (t : Time) (s0 : State) (e : Fin 16) (a b : Bool),
    let s := s0.tick t
    let x := s.encOf e
    let d := (quad a b + 4 - quad x.a x.b) % 4
    (s.nat (oEnc e 1) = 1) ∧ (¬(x.a = a ∧ x.b = b)) ∧ (∀ l : Time, x.last = some l → l + nsT 16 ≤ edgeTime t) ∧ (d ≠ 2) :=
  ⟨0, withObj [(oEnc 0 1, .num 1)], 0, true, false, by decide, by decide, nofun, by decide⟩

theorem wit_encoderEdge_illegal : ∃ (t : Time) (s0 : State) (e : Fin 16) (a b : Bool),
    let s := s0.tick t
    let x := s.encOf e
    (s.nat (oEnc e 1) = 1) ∧ (¬(x.a = a ∧ x.b = b)) ∧ (∀ l : Time, x.last = some l → l + nsT 16 ≤ edgeTime t) ∧ ((quad a b + 4 - quad x.a x.b) % 4 = 2) :=
  ⟨0, withObj [(oEnc 0 1, .num 1)], 0, true, true, by decide, by decide, nofun, by decide⟩

theorem wit_sincosSample : ∃ (t : Time) (s0 : State) (e : Fin 16) (sn cs : Int),
    let s := s0.tick t
    let x := s.encOf e
    (s.nat (oEnc e 1) = 2) ∧ (s.nat (oEnc e 9) = 0) ∧ (x.angKnown = true) :=
  ⟨0, { withObj [(oEnc 0 1, .num 2)] with enc := [(0, { Enc.init with angKnown := true })] }, 0, 5, 5, by decide⟩

theorem wit_index : ∃ (t : Time) (s0 : State) (e : Fin 16),
    let s := s0.tick t
    (s.nat (oEnc e 1) = 2) ∧ (∀ a : Nat, a < 16 → s.frcN (oAx a 6 5) ≠ 1) :=
  ⟨0, withObj [(oEnc 0 1, .num 2)], 0, by decide⟩

theorem wit_wireCheckExpiry : ∃ (t : Time) (s0 : State) (e : Fin 16) (pair : WirePair),
    let s := s0.tick t
    s.nat (oEnc e 1) ≠ 0 :=
  ⟨0, withObj [(oEnc 0 1, .num 2)], 0, .a, by decide⟩

theorem wit_autoTrackUpdate : ∃ (t : Time) (s0 : State) (e : Fin 16) (smin smax cmin cmax freq : Int),
    let s := s0.tick t
    (s.nat (oEnc e 1) = 2) ∧ (s.nat (oEnc e 9) = 1) ∧ (10 ≤ freq) ∧ (freq ≤ 100000) :=
  ⟨0, withObj [(oEnc 0 1, .num 2), (oEnc 0 9, .num 1)], 0, 0, 0, 0, 0, 10, by decide⟩

theorem wit_lineAxisUpdate : ∃ (t : Time) (s0 : State) (k : Fin 32),
    let s := s0.tick t
    (1 < s.modeN) ∧ ((s.laxOf k).upT + usT 1 ≤ t) :=
  ⟨usT 1, inMode 3 [], 0, by decide⟩

theorem wit_sourceSwitch : ∃ (t : Time) (s0 : State) (k : Fin 32) (kind inst : Nat),
    let s := s0.tick t
    (s.laxOf k).pend = some (kind, inst) :=
  ⟨0, { State.reset with lax := [(0, { Lax.init with pend := some (1, 3) })] }, 0, 1, 3, by decide⟩

theorem wit_lineAxisSourceFault : ∃ (t : Time) (s0 : State) (k : Fin 32),
    let s := s0.tick t
    let x := s.laxOf k
    (x.kind ≠ 0) ∧ (x.dr = none) ∧ (bit x.st 7 = false) ∧ (x.follow = none) ∧ (x.kind ≠ 1 ∨ (s.encOf x.inst).st &&& 0xFC ≠ 0) :=
  ⟨0, { State.reset with lax := [(0, { Lax.init with kind := 2 })] }, 0, by decide⟩

theorem wit_deadReckonExpiry : ∃ (t : Time) (s0 : State) (k : Fin 32) (t1 : Time),
    let s := s0.tick t
    ((s.laxOf k).dr = some t1) ∧ (t1 + usT (s.laxOf k).drLim ≤ t) :=
  ⟨usT 5000, { State.reset with lax := [(0, { Lax.init with dr := some 0, drLim := 5000 })] }, 0, 0, by decide⟩

theorem wit_zeroSpeedTimeout : ∃ (t : Time) (s0 : State) (k : Fin 32),
    let s := s0.tick t
    let x := s.laxOf k
    (x.kind = 1 ∨ x.kind = 2) ∧ (x.follow = none) ∧ (x.dr = none) ∧ (usT x.zsLim < t - x.tk) ∧ (bit x.st 4 = false) :=
  ⟨usT 200000, { State.reset with lax := [(0, { Lax.init with kind := 1, st := 0 })] }, 0, by decide⟩

theorem wit_plsStepOut : ∃ (t : Time) (s0 : State) (n : Fin 8) (f : Bool) (r : List Bool),
    let s := s0.tick t
    let x := s.plsOf n
    (x.q = f :: r) ∧ (∀ l : Time, x.last = some l → l + s.nat (oPls n 4) * nsT 25 / 2 ≤ t) ∧ (s.nat (oPls n 1) ≤ 15) ∧ (1 < s.modeN) :=
  ⟨0, { inMode 3 [(oPls 0 1, .num 0)] with pls := [(0, { Pls.init with q := [true] })] }, 0, true, [], by decide, nofun, by decide, by decide⟩

theorem wit_laxSnap : ∃ (t : Time) (s0 : State),
    let s := s0.tick t
    s.modeN ≠ 0 :=
  ⟨0, inMode 3 [], by decide⟩

theorem wit_ginEdge : ∃ (t : Time) (s0 : State) (n : Fin 64),
    let s := s0.tick t
    let x := s.ginOf n
    let pa := s.laxAt (s.nat (oGin n 3)) t
    (1 < s.modeN) ∧ (x.active = false) ∧ (x.ignored = false) ∧ (∀ r : Int, x.rearm = some r → 0 ≤ sdiff pa r) :=
  ⟨0, inMode 3 [], 0, by decide, by decide, by decide, nofun⟩

theorem wit_ginPulseRejected : ∃ (t : Time) (s0 : State) (n : Fin 64),
    let s := s0.tick t
    (1 < s.modeN) ∧ ((s.ginOf n).active = false) :=
  ⟨0, inMode 3 [], 0, by decide⟩

theorem wit_inputInactive : ∃ (t : Time) (s0 : State) (n : Fin 64),
    let s := s0.tick t
    1 < s.modeN :=
  ⟨0, inMode 3 [], 0, by decide⟩

theorem wit_ginStuckTimeout : ∃ (t : Time) (s0 : State) (n : Fin 64),
    let s := s0.tick t
    let x := s.ginOf n
    (1 < s.modeN) ∧ (x.active = true) ∧ (x.ignored = false) ∧ (x.lim ≠ 0) ∧ (msT x.lim < x.run + (if bit (s.laxStatus (s.nat (oGin n 3))) 4 then 0 else t - x.runT)) :=
  ⟨msT 501, { inMode 3 [] with gin := [(0, { Gin.init with active := true, lim := 500 })], lax := [(0, { Lax.init with st := 0 })] }, 0, by decide⟩

theorem wit_stagedTimeApply : ∃ (t : Time) (s0 : State) (w : Nat) (u : Time),
    let s := s0.tick t
    (s.clk.staged = some (w, u)) ∧ (u + nsT 1 ≤ t) ∧ (s.dev % 1000000000 = 0) :=
  ⟨secT 1, { State.reset with clk := { State.reset.clk with staged := some (7, 0) } }, 7, 0, by decide⟩

theorem wit_ptpOffset : ∃ (t : Time) (s0 : State) (theta : Int) (utc : Option Int),
    let s := s0.tick t
    (s.nat (ky 0x2302 1) = 1) ∧ (s.num (ky 0x2302 2) < (theta.natAbs : Int)) :=
  ⟨0, inMode 3 [(ky 0x2302 1, .num 1)], 2000000, none, by decide⟩

theorem wit_ptpHoldoverTimeout : ∃ (t : Time) (s0 : State) (o : Time),
    let s := s0.tick t
    (s.clk.offsetT = some o) ∧ (s.nat (ky 0x2300 2) = 3) ∧ (o + msT (s.nat (ky 0x2302 5)) ≤ t) :=
  ⟨secT 5, { inMode 3 [(ky 0x2300 2, .num 3)] with clk := { State.reset.clk with offsetT := some 0 } }, 0, by decide⟩

theorem wit_holdoverExpiry : ∃ (t : Time) (s0 : State) (h : Time),
    let s := s0.tick t
    (s.clk.holdT = some h) ∧ (s.nat (ky 0x2300 2) = 4) ∧ (h + secT 60 ≤ t) :=
  ⟨secT 60, { inMode 3 [(ky 0x2300 2, .num 4)] with clk := { State.reset.clk with holdT := some 0 } }, 0, by decide⟩

theorem wit_calendarRealign : ∃ (t : Time) (s0 : State),
    let s := s0.tick t
    (2 ≤ s.nat (ky 0x2300 2)) ∧ (s.nat (ky 0x2300 2) ≤ 4) ∧ (s.dev / 1000000000 % 60 = 0) :=
  ⟨0, inMode 3 [(ky 0x2300 2, .num 2)], by decide⟩

theorem wit_calendarTrimStep : ∃ (t : Time) (s0 : State),
    let s := s0.tick t
    s.clk.trimT + secT 64 ≤ t :=
  ⟨secT 64, State.reset, by decide⟩

theorem wit_timeSnap : ∃ (t : Time) (s0 : State),
    let s := s0.tick t
    s.modeN ≠ 0 :=
  ⟨0, inMode 3 [], by decide⟩

theorem wit_leapSecondApply : ∃ (t : Time) (s0 : State),
    let s := s0.tick t
    let tai := s.dev / 1000000000
    ((leapList s.calNow).any (fun e => e.1 = tai) = true) ∧ (∀ p : Int × Time, s.clk.leapAt = some p → p.1 = tai → p.2 + secT 1 ≤ t) :=
  ⟨secT 2, { State.reset with force := [(ky 0x2306 1, .num 131108)] }, by decide, nofun⟩

theorem wit_daylightChange : ∃ (t : Time) (s0 : State),
    let s := s0.tick t
    let d := (calendar s.calNow s.dev).dst
    d ≠ s.clk.dayOn :=
  ⟨0, { State.reset with clk := { State.reset.clk with dayOn := true } }, by decide⟩

theorem wit_shiftChange : ∃ (t : Time) (s0 : State),
    let s := s0.tick t
    let x := (calendar s.calNow s.dev).shift
    x ≠ s.clk.shiftNow :=
  ⟨0, { State.reset with clk := { State.reset.clk with shiftNow := 3 } }, by decide⟩

theorem wit_tallyLoRead : ∃ (t : Time) (s0 : State) (n : Fin 256),
    let s := s0.tick t
    s.modeN ≠ 0 :=
  ⟨0, inMode 3 [], 0, by decide⟩

theorem wit_persistMarkConfirmed : ∃ (t : Time) (s0 : State) (n : Fin 256) (m : Nat),
    let s := s0.tick t
    let x := s.talOf n
    x.pend = some m :=
  ⟨0, { State.reset with tal := [(0, { Tal.init with pend := some 5 })] }, 0, 5, by decide⟩

theorem wit_talDraw_held : ∃ (s : State) (n : Fin 256), (s.talOf n).held = true :=
  ⟨{ State.reset with tal := [(0, { Tal.init with held := true })] }, 0, by decide⟩

theorem wit_talDraw_advance : ∃ (s : State) (n : Fin 256), (s.talOf n).held = false ∧ s.talGuard n = 0 ∧
    s.nat (oTal n 0) + s.nat (oTal n 4) ≤ s.talLimit n :=
  ⟨State.reset, 3, by decide⟩

theorem wit_talDraw_stick : ∃ (s : State) (n : Fin 256), (s.talOf n).held = false ∧ s.talGuard n = 0 ∧
    s.talLimit n < s.nat (oTal n 0) + s.nat (oTal n 4) ∧ s.nat (oTal n 5) = 1 :=
  ⟨withObj [(oTal 0 0, .num 9), (oTal 0 3, .num 9), (oTal 0 5, .num 1)], 0, by decide⟩

theorem wit_talDraw_restart : ∃ (s : State) (n : Fin 256), (s.talOf n).held = false ∧ s.talGuard n = 0 ∧
    s.talLimit n < s.nat (oTal n 0) + s.nat (oTal n 4) ∧ s.nat (oTal n 5) = 0 :=
  ⟨withObj [(oTal 0 0, .num 9), (oTal 0 3, .num 9)], 0, by decide⟩

theorem wit_talDraw_wrap : ∃ (s : State) (n : Fin 256), (s.talOf n).held = false ∧ s.talGuard n = 0 ∧
    s.talLimit n < s.nat (oTal n 0) + s.nat (oTal n 4) ∧ s.nat (oTal n 5) = 2 :=
  ⟨withObj [(oTal 0 0, .num 9), (oTal 0 3, .num 9), (oTal 0 5, .num 2)], 0, by decide⟩

theorem wit_casementArm : ∃ (t : Time) (s0 : State) (p : Path) (c : Fin 48),
    let s := s0.tick t
    (s.serves p = true) ∧ (s.casCheck c 1 = none) :=
  ⟨0, withHead, .mailbox,  0, by decide⟩

theorem wit_casementDisarm_open : ∃ (t : Time) (s0 : State) (p : Path) (c : Fin 48),
    let s := s0.tick t
    (s.serves p = true) ∧ (4 ≤ s.modeN) ∧ (s.modeN ≤ 6) ∧ (s.casState c = 3 ∨ s.casState c = 4) :=
  ⟨0, inMode 5 [(oCas 0 2 1, .num 4)], .mailbox, 0, by decide⟩

theorem wit_casementDisarm : ∃ (t : Time) (s0 : State) (p : Path) (c : Fin 48),
    let s := s0.tick t
    (s.serves p = true) ∧ (4 ≤ s.modeN) ∧ (s.modeN ≤ 6) ∧ (s.casState c = 2) :=
  ⟨0, inMode 5 [(oCas 0 2 1, .num 2)], .mailbox, 0, by decide⟩

theorem wit_casementEnterService : ∃ (t : Time) (s0 : State) (p : Path) (c : Fin 48),
    let s := s0.tick t
    (s.serves p = true) ∧ (4 ≤ s.modeN) ∧ (s.modeN ≤ 6) ∧ (s.casState c = 1) :=
  ⟨0, inMode 4 [(oCas 0 2 1, .num 1)], .mailbox, 0, by decide⟩

theorem wit_casementEnterService_armed : ∃ (t : Time) (s0 : State) (p : Path) (c : Fin 48),
    let s := s0.tick t
    (s.serves p = true) ∧ (4 ≤ s.modeN) ∧ (s.modeN ≤ 6) ∧ (s.casState c = 3 ∨ s.casState c = 4) :=
  ⟨0, inMode 4 [(oCas 0 2 1, .num 3)], .mailbox, 0, by decide⟩

theorem wit_casementLeaveService : ∃ (t : Time) (s0 : State) (p : Path) (c : Fin 48),
    let s := s0.tick t
    (s.serves p = true) ∧ (4 ≤ s.modeN) ∧ (s.modeN ≤ 6) ∧ (s.casState c = 5) ∧ ((s.casOf c).svc = none) :=
  ⟨0, inMode 6 [(oCas 0 2 1, .num 5)], .mailbox, 0, by decide⟩

theorem wit_casementLeaveService_meas : ∃ (t : Time) (s0 : State) (p : Path) (c : Fin 48) (v : Svc),
    let s := s0.tick t
    (s.serves p = true) ∧ (4 ≤ s.modeN) ∧ (s.modeN ≤ 6) ∧ (s.casState c = 5) ∧ ((s.casOf c).svc = some v) ∧ (v.phase ≠ 3) :=
  ⟨0, { inMode 6 [(oCas 0 2 1, .num 5)] with cas := [(0, { Cas.init with svc := some ⟨1, 0, 1, 0⟩ })] }, .mailbox, 0, ⟨1, 0, 1, 0⟩, by decide⟩

theorem wit_casementLeaveService_ending : ∃ (t : Time) (s0 : State) (p : Path) (c : Fin 48) (v : Svc),
    let s := s0.tick t
    (s.serves p = true) ∧ (4 ≤ s.modeN) ∧ (s.modeN ≤ 6) ∧ (s.casState c = 5) ∧ ((s.casOf c).svc = some v) ∧ (v.phase = 3) :=
  ⟨0, { inMode 6 [(oCas 0 2 1, .num 5)] with cas := [(0, { Cas.init with svc := some ⟨1, 0, 3, 0⟩ })] }, .mailbox, 0, ⟨1, 0, 3, 0⟩, by decide⟩

theorem wit_casementClearFault_rails : ∃ (t : Time) (s0 : State) (p : Path) (c : Fin 48),
    let s := s0.tick t
    (s.serves p = true) ∧ (4 ≤ s.modeN) ∧ (s.modeN ≤ 6) ∧ (s.casState c = 6) ∧ ((s.casOf c).opened = []) ∧ ((s.casOf c).after = none) ∧ (s.faultEnded c = true) ∧ (s.railsOn c = true) :=
  ⟨0, { inMode 6 [(oCas 0 2 1, .num 6), (oRail 0 0x0A, .num 2)] with force := [(oRail 0 1, .num 0)] }, .mailbox, 0, by decide⟩

theorem wit_casementClearFault : ∃ (t : Time) (s0 : State) (p : Path) (c : Fin 48),
    let s := s0.tick t
    (s.serves p = true) ∧ (4 ≤ s.modeN) ∧ (s.modeN ≤ 6) ∧ (s.casState c = 6) ∧ ((s.casOf c).opened = []) ∧ ((s.casOf c).after = none) ∧ (s.faultEnded c = true) ∧ (s.railsOn c = false) :=
  ⟨0, inMode 6 [(oCas 0 2 1, .num 6)], .mailbox, 0, by decide⟩

theorem wit_armingComplete : ∃ (t : Time) (s0 : State) (c : Fin 48),
    let s := s0.tick t
    let x := s.casOf c
    (s.casState c = 2) ∧ (x.after = none) ∧ (s.exBusy c = false) ∧ (x.trained = true) ∧ (x.train = none) ∧ (s.headOk c t (fun k => s.dec k t) = true) :=
  ⟨0, { inMode 5 [(oCas 0 2 1, .num 2), (oCas 0 5 2, .num 1)] with cas := [(0, { Cas.init with trained := true, recOk := true, cthT := some 0, cvsT := some 0 })] }, 0, by decide⟩

theorem wit_armingTimeout : ∃ (t : Time) (s0 : State) (c : Fin 48),
    let s := s0.tick t
    ((s.casOf c).armT + msT (s.frcN (oCas c 0 0x0E)) ≤ t) ∧ (s.casState c = 2) ∧ ((s.casOf c).after = none) :=
  ⟨secT 60, inMode 5 [(oCas 0 2 1, .num 2)], 0, by decide⟩

theorem wit_usageLinesFlush : ∃ (t : Time) (s0 : State) (c : Fin 48),
    let s := s0.tick t
    s.casState c = 3 ∨ s.casState c = 4 :=
  ⟨0, inMode 5 [(oCas 0 2 1, .num 3)], 0, by decide⟩

theorem wit_usageHour : ∃ (t : Time) (s0 : State) (c : Fin 48) (h : Time),
    let s := s0.tick t
    let x := s.casOf c
    (x.hourT = some h) ∧ (s.casState c = 3 ∨ s.casState c = 4) ∧ (h + secT 3600 ≤ t) :=
  ⟨secT 3600, { inMode 5 [(oCas 0 2 1, .num 3)] with cas := [(0, { Cas.init with hourT := some 0 })] }, 0, 0, by decide⟩

theorem wit_compositionStart : ∃ (t : Time) (s0 : State) (c : Fin 48) (m : Mark),
    let s := s0.tick t
    let u := s.applyChanges t
    let x := u.casOf c
    (x.pend.find? (fun m => m.comp.isNone && (!m.needReq || m.req.isSome)) = some m) ∧ (x.opened.length + (x.pend.filter (fun m => m.comp.isSome)).length < 2) :=
  ⟨0, { State.reset with cas := [(0, { Cas.init with pend := [Mark.init] })] }, 0, Mark.init, by decide⟩

theorem wit_decisionPoint : ∃ (t : Time) (s0 : State) (c : Fin 48) (m : Mark),
    let s := s0.tick t
    let u := (s.applyChanges t).closesFirst c t
    ((u.casOf c).pend.find? (fun m => m.vote.isNone) = some m) ∧ (u.reached c m = true) :=
  ⟨0, { State.reset with cas := [(0, { Cas.init with pend := [Mark.init] })] }, 0, Mark.init, by decide⟩

theorem wit_templateCommit : ∃ (t : Time) (s0 : State) (p : Path),
    let s := s0.tick t
    (s.serves p = true) ∧ (s.modeN ≤ 6) ∧ (s.commitCheck .template = none) :=
  ⟨0, inMode 3 [], .mailbox, by decide⟩

theorem wit_glyphSetCommit : ∃ (t : Time) (s0 : State) (p : Path),
    let s := s0.tick t
    (s.serves p = true) ∧ (s.modeN ≤ 6) ∧ (s.commitCheck .glyphSet = none) :=
  ⟨0, inMode 3 [], .mailbox, by decide⟩

theorem wit_rotorTableCommit : ∃ (t : Time) (s0 : State) (p : Path),
    let s := s0.tick t
    (s.serves p = true) ∧ (s.modeN ≤ 3) ∧ (s.commitCheck .rotorTable = none) :=
  ⟨0, withRotor, .mailbox, by decide +kernel⟩

theorem wit_glyphSetPin : ∃ (t : Time) (s0 : State) (p : Path) (n : Fin 64) (v : Nat),
    let s := s0.tick t
    (s.serves p = true) ∧ (s.modeN ≤ 5) ∧ (v ≤ 1) ∧ ((s.setn (ky (0x5010 + n) 2) v).pinCheck n v = none) :=
  ⟨0, inMode 3 [], .mailbox, 0, 0, by decide⟩

theorem wit_templateQuery : ∃ (t : Time) (s0 : State) (p : Path) (v : Nat),
    let s := s0.tick t
    (s.serves p = true) ∧ (s.modeN ≤ 6) ∧ (v ≤ 4095) :=
  ⟨0, inMode 3 [], .mailbox, 5, by decide⟩

theorem wit_commitValidationDone : ∃ (t : Time) (s0 : State) (k : CommitKind) (x : Commit),
    let s := s0.tick t
    s.committing k = some x :=
  ⟨0, { State.reset with comp := { State.reset.comp with commitT := some ⟨0, 0, 0, .mailbox⟩ } }, .template, ⟨0, 0, 0, .mailbox⟩, by decide⟩

theorem wit_typeCaseFillDone : ∃ (t : Time) (s0 : State) (n k : Nat) (b : Nat × Nat × Nat),
    let s := s0.tick t
    s.comp.fills.find? (fun b => b.1 = n ∧ b.2.2 = k) = some b :=
  ⟨0, { State.reset with comp := { State.reset.comp with fills := [(1, 2, 3)] } }, 1, 3, (1, 2, 3), by decide⟩

theorem wit_compositionUnitDispatch : ∃ (t : Time) (s0 : State) (k : Fin 8) (pr : Int) (n : Nat) (m : Mark) (tp : Template),
    let s := s0.tick t
    let u := s.applyChanges t
    (bestJob (u.jobs.filterMap (fun x =>
        if u.workable x.2 && (x.2.unit == some k.val || (x.2.unit.isNone && decide ((u.jobs.filter (fun p => p.2.unit = some k.val)).length < 2)))
        then some (u.jobUrgency x.1 x.2, x.1, x.2) else none)) = some (pr, n, m)) ∧ (m.tpl = some tp) :=
  ⟨0, { State.reset with cas := [(0, { Cas.init with pend := [readyMark] })] }, 0, (secT 1 : Nat), 0, readyMark, ⟨0, 0, 0, 1, 1, 0, [], []⟩, by decide⟩

theorem wit_keyImport : ∃ (t : Time) (s0 : State) (p : Path),
    let s := s0.tick t
    (s.serves p = true) ∧ (s.modeN = 2) ∧ (s.keyBusy = false) :=
  ⟨0, inMode 2 [], .mailbox, by decide⟩

theorem wit_keyRevoke : ∃ (t : Time) (s0 : State) (p : Path),
    let s := s0.tick t
    (s.serves p = true) ∧ (s.modeN ≤ 3) ∧ (s.keyBusy = false) :=
  ⟨0, inMode 2 [], .mailbox, by decide⟩

theorem wit_verifyExecute : ∃ (t : Time) (s0 : State) (p : Path),
    let s := s0.tick t
    (s.serves p = true) ∧ (s.modeN ≤ 6) ∧ (s.verifyCheck = none) :=
  ⟨0, inMode 2 [], .mailbox, by decide⟩

theorem wit_notaryDispatch : ∃ (t : Time) (s0 : State) (r : NReq),
    let s := s0.tick t
    let n := s.notary
    (n.op = none) ∧ (nextSeal n.queue = some r) :=
  ⟨0, { State.reset with notary := { State.reset.notary with queue := [sealReq] } }, sealReq, by decide⟩

theorem wit_notaryDispatch_import : ∃ (t : Time) (s0 : State) (k : Nat) (x : Bytes),
    let s := s0.tick t
    let n := s.notary
    (n.op = none) ∧ (nextSeal n.queue = none) ∧ (n.import_ = some (k, x)) :=
  ⟨0, { State.reset with notary := { State.reset.notary with import_ := some (1, []) } }, 1, [], by decide⟩

theorem wit_notaryDispatch_verify : ∃ (t : Time) (s0 : State) (v : VReq),
    let s := s0.tick t
    let n := s.notary
    (n.op = none) ∧ (nextSeal n.queue = none) ∧ (n.import_ = none) ∧ (n.verify = some v) :=
  ⟨0, { State.reset with notary := { State.reset.notary with verify := some ⟨0, [], [], [], []⟩ } }, ⟨0, [], [], [], []⟩, by decide⟩

theorem wit_notaryOperationDone : ∃ (t : Time) (s0 : State) (r : NReq),
    let s := s0.tick t
    let n := s.notary
    (n.op = some (.seal r false)) ∧ (n.startT + nsT 41600 ≤ t) :=
  ⟨nsT 41600, { State.reset with notary := { State.reset.notary with op := some (.seal sealReq false) } }, sealReq, by decide⟩

theorem wit_notaryOperationDone_verify : ∃ (t : Time) (s0 : State) (v : VReq),
    let s := s0.tick t
    let n := s.notary
    (n.op = some (.verify v)) ∧ (n.startT + nsT 41600 ≤ t) :=
  ⟨nsT 41600, { State.reset with notary := { State.reset.notary with op := some (.verify ⟨0, [], [], [], []⟩) } }, ⟨0, [], [], [], []⟩, by decide⟩

theorem wit_notaryOperationDone_import : ∃ (t : Time) (s0 : State) (k : Nat) (x : Bytes),
    let s := s0.tick t
    let n := s.notary
    let st := s.importStatus k x
    (n.op = some (.import_ k x)) ∧ (n.startT + nsT 41600 ≤ t) ∧ (st ≠ 0) :=
  ⟨nsT 41600, { State.reset with notary := { State.reset.notary with op := some (.import_ 0 []) } }, 0, [], by decide⟩

theorem wit_serviceRead : ∃ (t : Time) (s0 : State) (p : Path) (c : Fin 48),
    let s := s0.tick t
    (s.serves p = true) ∧ (s.modeN = 6) ∧ (s.svcCheck c 1 = none) :=
  ⟨0, inMode 6 [], .mailbox, 0, by decide⟩

theorem wit_serviceWrite : ∃ (t : Time) (s0 : State) (p : Path) (c : Fin 48),
    let s := s0.tick t
    (s.serves p = true) ∧ (s.modeN = 6) ∧ (s.svcCheck c 2 = none) :=
  ⟨0, inMode 6 [(oCas 0 5 4, .num 0x80)], .mailbox, 0, by decide⟩

theorem wit_sillTransactionStart : ∃ (t : Time) (s0 : State) (c : Fin 48) (k : SillKind),
    let s := s0.tick t
    let x := s.casOf c
    (x.sill = none) ∧ (x.sillQ.foldl (fun (acc : Option SillKind) k =>
        if !(match k with | .add _ _ q => x.recOk && q == serialOf x.recd | _ => true) then acc
        else match acc with | none => some k | some b => if k.rank < b.rank then some k else some b) none = some k) :=
  ⟨0, { State.reset with cas := [(0, { Cas.init with sillQ := [.poll] })] }, 0, .poll, by decide⟩

theorem wit_sillTransactionDone : ∃ (t : Time) (s0 : State) (c : Fin 48) (w : Sill) (r : SillReply) (d : Bytes),
    let s := s0.tick t
    let x := s.casOf c
    (x.sill = some w) ∧ (w.retry = none) ∧ (sillHear r = some (0, d)) ∧ (d.length = w.kind.answerLen) :=
  ⟨0, { State.reset with cas := [(0, { Cas.init with sill := some ⟨.poll, 0, 0, none⟩ })] }, 0, ⟨.poll, 0, 0, none⟩, sillAnswer 0 [0, 0, 0, 0], [0, 0, 0, 0], by decide⟩

theorem wit_sillTransactionDone_busy : ∃ (t : Time) (s0 : State) (c : Fin 48) (w : Sill) (r : SillReply) (d : Bytes),
    let s := s0.tick t
    let x := s.casOf c
    (x.sill = some w) ∧ (w.retry = none) ∧ (sillHear r = some (1, d)) :=
  ⟨0, { State.reset with cas := [(0, { Cas.init with sill := some ⟨.poll, 0, 0, none⟩ })] }, 0, ⟨.poll, 0, 0, none⟩, sillAnswer 1 [], [], by decide⟩

theorem wit_sillTransactionDone_error : ∃ (t : Time) (s0 : State) (c : Fin 48) (w : Sill) (r : SillReply) (st : Byte) (d : Bytes),
    let s := s0.tick t
    let x := s.casOf c
    (x.sill = some w) ∧ (w.retry = none) ∧ (sillHear r = some (st, d)) ∧ (2 ≤ st.toNat) ∧ (w.kind.isService = true) :=
  ⟨0, { State.reset with cas := [(0, { Cas.init with sill := some ⟨.svcRead 0 1, 0, 0, none⟩ })] }, 0, ⟨.svcRead 0 1, 0, 0, none⟩, sillAnswer 2 [], 2, [], by decide⟩

theorem wit_sillTransactionDone_bad : ∃ (t : Time) (s0 : State) (c : Fin 48) (w : Sill) (r : SillReply),
    let s := s0.tick t
    let x := s.casOf c
    (x.sill = some w) ∧ (w.retry = none) ∧ (sillHear r = none ∨ ∃ st d, sillHear r = some (st, d) ∧ (st = 0 ∧ d.length ≠ w.kind.answerLen ∨ 2 ≤ st.toNat ∧ w.kind.isService = false)) :=
  ⟨0, { State.reset with cas := [(0, { Cas.init with sill := some ⟨.poll, 0, 0, none⟩ })] }, 0, ⟨.poll, 0, 0, none⟩, ⟨[]⟩, by decide, by decide, .inl (by decide)⟩

theorem wit_sillRetry : ∃ (t : Time) (s0 : State) (c : Fin 48) (w : Sill) (u : Time),
    let s := s0.tick t
    let x := s.casOf c
    (x.sill = some w) ∧ (w.retry = some u) ∧ (u ≤ t) :=
  ⟨5, { State.reset with cas := [(0, { Cas.init with sill := some ⟨.poll, 0, 0, some 0⟩ })] }, 0, ⟨.poll, 0, 0, some 0⟩, 0, by decide⟩

theorem wit_headPoll : ∃ (t : Time) (s0 : State) (c : Fin 48),
    let s := s0.tick t
    let x := s.casOf c
    (1 < s.modeN) ∧ (s.configured c = true) ∧ (x.sillQ = []) ∧ (x.sill = none) ∧ (elapsed x.pollT (msT 100) t = true) :=
  ⟨0, { inMode 4 [] with force := [(oCas 0 4 1, .num 1)] }, 0, by decide⟩

theorem wit_adcConversion : ∃ (t : Time) (s0 : State) (c : Fin 48) (code : Nat) (rpu rt b : Nat),
    let s := s0.tick t
    let a := { s with adc := tset (fun _ => (0, 0)) s.adc (c.val / 6) ((adcPlace c .cth + 1) % 18, t + nsT 200) }
    let k := a.adcCode (c.val / 6) code
    let x := a.casOf c
    (s.adcTurn (c.val / 6) (adcPlace c .cth) t = true) ∧ (x.table = some (rpu, rt, b)) ∧ (15 < k) ∧ (k < 4080) :=
  ⟨0, { inMode 4 [(oCas 0 2 1, .num 1)] with force := [(oCas 0 4 1, .num 1)], cas := [(0, { Cas.init with table := some (1, 1, 1) })] }, 0, 100, 1, 1, 1, by decide⟩

theorem wit_adcConversion_short : ∃ (t : Time) (s0 : State) (c : Fin 48) (code : Nat),
    let s := s0.tick t
    let a := { s with adc := tset (fun _ => (0, 0)) s.adc (c.val / 6) ((adcPlace c .cth + 1) % 18, t + nsT 200) }
    let x := a.casOf c
    (s.adcTurn (c.val / 6) (adcPlace c .cth) t = true) ∧ (x.table.isSome = true) ∧ (a.adcCode (c.val / 6) code ≤ 15) :=
  ⟨0, { inMode 4 [(oCas 0 2 1, .num 1)] with force := [(oCas 0 4 1, .num 1)], cas := [(0, { Cas.init with table := some (1, 1, 1) })] }, 0, 0, by decide⟩

theorem wit_adcConversion_open : ∃ (t : Time) (s0 : State) (c : Fin 48) (code : Nat),
    let s := s0.tick t
    let a := { s with adc := tset (fun _ => (0, 0)) s.adc (c.val / 6) ((adcPlace c .cth + 1) % 18, t + nsT 200) }
    let x := a.casOf c
    (s.adcTurn (c.val / 6) (adcPlace c .cth) t = true) ∧ (x.table.isSome = true) ∧ (4080 ≤ a.adcCode (c.val / 6) code) :=
  ⟨0, { inMode 4 [(oCas 0 2 1, .num 1)] with force := [(oCas 0 4 1, .num 1)], cas := [(0, { Cas.init with table := some (1, 1, 1) })] }, 0, 4095, by decide⟩

theorem wit_adcConversion_cvs : ∃ (t : Time) (s0 : State) (c : Fin 48) (code : Nat),
    let s := s0.tick t
    let j := c.val / 6
    s.adcTurn j (adcPlace c .cvs) t = true :=
  ⟨0, { inMode 4 [(oCas 0 2 1, .num 1)] with force := [(oCas 0 4 1, .num 1)], adc := [(0, (1, 0))] }, 0, 100, by decide⟩

theorem wit_adcConversion_other : ∃ (t : Time) (s0 : State) (c : Fin 48) (code : Nat) (pin : AdcPin),
    let s := s0.tick t
    (s.adcTurn (c.val / 6) (adcPlace c pin) t = true) ∧ (pin = .cms ∨ pin = .cth ∧ (s.casOf c).table = none) :=
  ⟨0, { inMode 4 [(oCas 0 2 1, .num 1)] with force := [(oCas 0 4 1, .num 1)] }, 0, 0, .cth, by decide, .inr (by decide)⟩

theorem wit_vddaReferenceConversion : ∃ (t : Time) (s0 : State) (j : Fin 8) (code : Nat),
    let s := s0.tick t
    let k := s.adcCode j code
    (1 < s.modeN) ∧ (k ≠ 0) :=
  ⟨0, inMode 4 [], 0, 100, by decide⟩

theorem wit_trainingEnd : ∃ (t : Time) (s0 : State) (c : Fin 48) (w : Nat),
    let s := s0.tick t
    let x := s.casOf c
    (x.train = some w) ∧ (x.trainT + usT (s.frcN (oCas c 4 0x0A)) ≤ t) ∧ (s.pinsDriven c = true) :=
  ⟨secT 60, { inMode 5 [(oCas 0 2 1, .num 3)] with force := [(oCas 0 4 1, .num 1)], cas := [(0, { Cas.init with train := some 1, opened := [Mark.init] })] }, 0, 1, by decide⟩

theorem wit_strobeLimit : ∃ (t : Time) (s0 : State) (c : Fin 48) (v : Bool) (u : Time),
    let s := s0.tick t
    let x := s.casOf c
    (s.strobing c t = some u) ∧ (v = true ∨ u + usT (s.nat (oCas c 4 0x0B)) ≤ t) ∧ (x.meas = none) :=
  ⟨0, { State.reset with cas := [(0, { Cas.init with opened := [{ Mark.init with lns := [(0, firingLine)] }] })] }, 0, true, 0, by decide⟩

theorem wit_strobeLimit_measure : ∃ (t : Time) (s0 : State) (c : Fin 48) (v : Bool) (u : Time) (m : Meas),
    let s := s0.tick t
    let x := s.casOf c
    (s.strobing c t = some u) ∧ (v = true ∨ u + usT (s.nat (oCas c 4 0x0B)) ≤ t) ∧ (x.meas = some m) ∧ (m.start c ≤ t) ∧ (t < m.stop c) :=
  ⟨roundT + nsT 500, { State.reset with cas := [(0, { Cas.init with meas := some ⟨0, 0, false, 0, 0⟩ })] }, 0, true, roundT + nsT 400, ⟨0, 0, false, 0, 0⟩, by decide⟩

theorem wit_lineLoad : ∃ (t : Time) (s0 : State) (n : Fin 48) (m : Mark) (l : Nat) (u : Int),
    let s := s0.tick t
    let w := s.settleLoads n t
    ((w.casOf n).findLine (fun l => l.st == .waiting) = some (m, l)) ∧ (w.lineReady n m l = true) ∧ (w.linkFree n m l t = true) ∧ (w.trigT n m l = some u) ∧ ((t : Int) ≤ u - (w.leadT n : Int)) :=
  ⟨0, { inMode 5 [(oCas 0 2 1, .num 4)] with cas := [(0, { Cas.init with opened := [{ Mark.init with order := 1, count := 1, s0 := 10000000, lns := [(0, { Line.init with st := .waiting })] }] })], lax := [(0, { Lax.init with st := 0, vf := 65536 })] }, 0, { Mark.init with order := 1, count := 1, s0 := 10000000, lns := [(0, { Line.init with st := .waiting })] }, 0, 42949672960000000000, by decide⟩

theorem wit_lineLoad_standing : ∃ (t : Time) (s0 : State) (n : Fin 48) (m : Mark) (l : Nat),
    let s := s0.tick t
    let w := s.settleLoads n t
    ((w.casOf n).findLine (fun l => l.st == .waiting) = some (m, l)) ∧ (w.lineReady n m l = true) ∧ (w.linkFree n m l t = true) ∧ (w.trigT n m l = none) :=
  ⟨0, { inMode 5 [(oCas 0 2 1, .num 4)] with cas := [(0, { Cas.init with opened := [{ Mark.init with order := 1, count := 1, lns := [(0, { Line.init with st := .waiting })] }] })], lax := [(0, { Lax.init with st := 0, vf := 0 })] }, 0, { Mark.init with order := 1, count := 1, lns := [(0, { Line.init with st := .waiting })] }, 0, by decide⟩

theorem wit_loadDeadline : ∃ (t : Time) (s0 : State) (n : Fin 48) (m : Mark) (l : Nat) (u : Int),
    let s := s0.tick t
    let w := s.settleLoads n t
    ((w.casOf n).findLine (fun l => l.st == .waiting) = some (m, l)) ∧ (w.trigT n m l = some u) ∧ (u - (w.leadT n : Int) ≤ (t : Int)) :=
  ⟨0, { inMode 5 [(oCas 0 2 1, .num 4)] with cas := [(0, { Cas.init with opened := [{ Mark.init with order := 1, count := 1, lns := [(0, { Line.init with st := .waiting })] }] })], lax := [(0, { Lax.init with st := 0, vf := 65536 })] }, 0, { Mark.init with order := 1, count := 1, lns := [(0, { Line.init with st := .waiting })] }, 0, 0, by decide⟩

theorem wit_minPeriodRefresh : ∃ (t : Time) (s0 : State) (n : Fin 48),
    let s := s0.tick t
    let x := s.casOf n
    (x.opened = []) ∧ (s.configured n = true) ∧ (1 < s.modeN) ∧ (elapsed x.refreshT (usT 100) t = true) :=
  ⟨0, { inMode 3 [] with force := [(oCas 0 4 1, .num 1)] }, 0, by decide⟩

theorem wit_lineFreeze_fault : ∃ (t : Time) (s0 : State) (n : Fin 48) (m : Mark) (l : Nat) (u : Int),
    let s := s0.tick t
    let w0 := s.settleLoads n t
    let m1 := { m with minV := min m.minV (w0.nat (oCas n 6 4)), maxT := max m.maxT (w0.num (oCas n 6 3)) }
    let fv := (w0.factors n m1).1
    let ft := (w0.factors n m1).2
    let w := ((w0.setOpen n m1).setn (oCas n 9 3) (fv : Nat)).setn (oCas n 9 4) (ft : Nat)
    let x := m.line l
    let ahead := (w0.casOf n).ahead m l
    let wd := (w.widths n m1 fv ft 32768 32768).1
    let dline := ((x.nj.zip wd).map (fun p => p.1 * p.2)).sum
    let hb := w.budget n m1 ahead dline
    let w2 := ((w.setCasement n { w.casOf n with hb := hb }).setn (oCas n 9 5) (hb : Nat)).publish n m1 fv ft hb
    ((w0.casOf n).findLine (fun l => l.st == .loading || l.st == .loaded) = some (m, l)) ∧ (w0.trigT n m l = some u) ∧ (u ≤ (t + nsT 200 : Nat)) ∧ (ahead.any (fun a => a.st == .loading || a.st == .loaded || a.st == .waiting) = false) ∧ (w2.lineFault n m1 = true) :=
  ⟨0, { inMode 5 [(oCas 0 2 1, .num 6)] with cas := [(0, { Cas.init with opened := [{ Mark.init with order := 1, count := 1, lns := [(0, { Line.init with st := .loaded })] }] })], lax := [(0, { Lax.init with st := 0, vf := 65536 })] }, 0, { Mark.init with order := 1, count := 1, lns := [(0, { Line.init with st := .loaded })] }, 0, 0, by decide⟩

theorem wit_lineFreeze_skip : ∃ (t : Time) (s0 : State) (n : Fin 48) (m : Mark) (l : Nat) (u : Int),
    let s := s0.tick t
    let w0 := s.settleLoads n t
    let m1 := { m with minV := min m.minV (w0.nat (oCas n 6 4)), maxT := max m.maxT (w0.num (oCas n 6 3)) }
    let fv := (w0.factors n m1).1
    let ft := (w0.factors n m1).2
    let w := ((w0.setOpen n m1).setn (oCas n 9 3) (fv : Nat)).setn (oCas n 9 4) (ft : Nat)
    let x := m.line l
    let ahead := (w0.casOf n).ahead m l
    let wd := (w.widths n m1 fv ft 32768 32768).1
    let dline := ((x.nj.zip wd).map (fun p => p.1 * p.2)).sum
    let hb := w.budget n m1 ahead dline
    let w2 := ((w.setCasement n { w.casOf n with hb := hb }).setn (oCas n 9 5) (hb : Nat)).publish n m1 fv ft hb
    let tT := nearEdge u
    let setup := if w.portKind n = 1 then nsT (w.headLatch n) else w.longT (w.shiftPeriod n + 2 * w.latchUnits n) / 2 + unitT (w.nat (oCas n 4 7))
    ((w0.casOf n).findLine (fun l => l.st == .loading || l.st == .loaded) = some (m, l)) ∧ (w0.trigT n m l = some u) ∧ (u ≤ (t + nsT 200 : Nat)) ∧ (ahead.any (fun a => a.st == .loading || a.st == .loaded || a.st == .waiting) = false) ∧ (w2.lineFault n m1 = false) ∧ (tT < t ∨ tT < x.frameEnd + setup ∨ tT < (w2.casOf n).lastEnd ∨ ahead.any (fun a => decide (tT < a.endT)) = true) :=
  ⟨secT 1, { inMode 5 [(oCas 0 2 1, .num 4)] with cas := [(0, { Cas.init with opened := [{ Mark.init with order := 1, count := 1, pitch := 1000000, lns := [(0, { Line.init with st := .loaded, frameEnd := secT 2 })] }] })], lax := [(0, { Lax.init with st := 0, vf := 65536 })] }, 0, { Mark.init with order := 1, count := 1, pitch := 1000000, lns := [(0, { Line.init with st := .loaded, frameEnd := secT 2 })] }, 0, (secT 1 : Nat), by decide⟩

theorem wit_lineFreeze : ∃ (t : Time) (s0 : State) (n : Fin 48) (m : Mark) (l : Nat) (u : Int),
    let s := s0.tick t
    let w0 := s.settleLoads n t
    let m1 := { m with minV := min m.minV (w0.nat (oCas n 6 4)), maxT := max m.maxT (w0.num (oCas n 6 3)) }
    let fv := (w0.factors n m1).1
    let ft := (w0.factors n m1).2
    let w := ((w0.setOpen n m1).setn (oCas n 9 3) (fv : Nat)).setn (oCas n 9 4) (ft : Nat)
    let x := m.line l
    let ahead := (w0.casOf n).ahead m l
    let wd := (w.widths n m1 fv ft 32768 32768).1
    let dline := ((x.nj.zip wd).map (fun p => p.1 * p.2)).sum
    let hb := w.budget n m1 ahead dline
    let w2 := ((w.setCasement n { w.casOf n with hb := hb }).setn (oCas n 9 5) (hb : Nat)).publish n m1 fv ft hb
    let tT := nearEdge u
    let setup := if w.portKind n = 1 then nsT (w.headLatch n) else w.longT (w.shiftPeriod n + 2 * w.latchUnits n) / 2 + unitT (w.nat (oCas n 4 7))
    let g := m1.nat (oCas n 7 7)
    let v := (w2.widths n m1 fv ft hb 32768).1
    ((w0.casOf n).findLine (fun l => l.st == .loading || l.st == .loaded) = some (m, l)) ∧ (w0.trigT n m l = some u) ∧ (u ≤ (t + nsT 200 : Nat)) ∧ (ahead.any (fun a => a.st == .loading || a.st == .loaded || a.st == .waiting) = false) ∧ (w2.lineFault n m1 = false) ∧ (t ≤ tT) ∧ (x.frameEnd + setup ≤ tT) ∧ ((w2.casOf n).lastEnd ≤ tT) ∧ (ahead.any (fun a => decide (tT < a.endT)) = false) ∧ (w2.fits (w2.need n g v) (w2.nextGap n m1 l) (w2.laxVf 33 (w2.casAxis n)) = true) :=
  ⟨secT 1, { inMode 5 [(oCas 0 2 1, .num 4)] with cas := [(0, { Cas.init with opened := [{ Mark.init with order := 1, count := 1, pitch := 1000000, lns := [(0, { Line.init with st := .loaded })] }] })], lax := [(0, { Lax.init with st := 0, vf := 65536 })] }, 0, { Mark.init with order := 1, count := 1, pitch := 1000000, lns := [(0, { Line.init with st := .loaded })] }, 0, (secT 1 : Nat), by decide⟩

theorem wit_lineFreeze_policy : ∃ (t : Time) (s0 : State) (n : Fin 48) (m : Mark) (l : Nat) (u : Int),
    let s := s0.tick t
    let w0 := s.settleLoads n t
    let m1 := { m with minV := min m.minV (w0.nat (oCas n 6 4)), maxT := max m.maxT (w0.num (oCas n 6 3)) }
    let fv := (w0.factors n m1).1
    let ft := (w0.factors n m1).2
    let w := ((w0.setOpen n m1).setn (oCas n 9 3) (fv : Nat)).setn (oCas n 9 4) (ft : Nat)
    let x := m.line l
    let ahead := (w0.casOf n).ahead m l
    let wd := (w.widths n m1 fv ft 32768 32768).1
    let dline := ((x.nj.zip wd).map (fun p => p.1 * p.2)).sum
    let hb := w.budget n m1 ahead dline
    let w2 := ((w.setCasement n { w.casOf n with hb := hb }).setn (oCas n 9 5) (hb : Nat)).publish n m1 fv ft hb
    let tT := nearEdge u
    let setup := if w.portKind n = 1 then nsT (w.headLatch n) else w.longT (w.shiftPeriod n + 2 * w.latchUnits n) / 2 + unitT (w.nat (oCas n 4 7))
    let g := m1.nat (oCas n 7 7)
    let v := (w2.widths n m1 fv ft hb 32768).1
    ((w0.casOf n).findLine (fun l => l.st == .loading || l.st == .loaded) = some (m, l)) ∧ (w0.trigT n m l = some u) ∧ (u ≤ (t + nsT 200 : Nat)) ∧ (ahead.any (fun a => a.st == .loading || a.st == .loaded || a.st == .waiting) = false) ∧ (w2.lineFault n m1 = false) ∧ (t ≤ tT) ∧ (x.frameEnd + setup ≤ tT) ∧ ((w2.casOf n).lastEnd ≤ tT) ∧ (ahead.any (fun a => decide (tT < a.endT)) = false) ∧ (w2.fits (w2.need n g v) (w2.nextGap n m1 l) (w2.laxVf 33 (w2.casAxis n)) = false) ∧ (m1.nat (oCas n 7 4) = 2) :=
  ⟨secT 1, { inMode 5 [(oCas 0 2 1, .num 4)] with cas := [(0, { Cas.init with opened := [{ Mark.init with order := 1, count := 1, cfg := [(oCas 0 7 4, .num 2)], lns := [(0, { Line.init with st := .loaded })] }] })], lax := [(0, { Lax.init with st := 0, vf := 65536 })] }, 0, { Mark.init with order := 1, count := 1, cfg := [(oCas 0 7 4, .num 2)], lns := [(0, { Line.init with st := .loaded })] }, 0, (secT 1 : Nat), by decide⟩

theorem wit_lineTrigger_fault : ∃ (t : Time) (s0 : State) (n : Fin 48) (m : Mark) (l : Nat),
    let s := s0.tick t
    let w := s.settleLoads n t
    let x := m.line l
    ((w.casOf n).findLine (fun l => l.st == .frozen) = some (m, l)) ∧ (x.tT ≤ t) ∧ (w.lineFault n m = true) :=
  ⟨0, { inMode 5 [(oCas 0 2 1, .num 6)] with cas := [(0, { Cas.init with opened := [{ Mark.init with order := 1, count := 1, lns := [(0, { Line.init with st := .frozen })] }] })], lax := [(0, { Lax.init with st := 0, vf := 65536 })] }, 0, { Mark.init with order := 1, count := 1, lns := [(0, { Line.init with st := .frozen })] }, 0, by decide⟩

theorem wit_lineTrigger : ∃ (t : Time) (s0 : State) (n : Fin 48) (m : Mark) (l : Nat),
    let s := s0.tick t
    let w := s.settleLoads n t
    let x := m.line l
    ((w.casOf n).findLine (fun l => l.st == .frozen) = some (m, l)) ∧ (x.tT ≤ t) ∧ (w.lineFault n m = false) :=
  ⟨0, { inMode 5 [(oCas 0 2 1, .num 4)] with cas := [(0, { Cas.init with opened := [{ Mark.init with order := 1, count := 1, lns := [(0, { Line.init with st := .frozen })] }] })], lax := [(0, { Lax.init with st := 0, vf := 65536 })], force := [(oCas 0 4 1, .num 1)] }, 0, { Mark.init with order := 1, count := 1, lns := [(0, { Line.init with st := .frozen })] }, 0, by decide⟩

theorem wit_rejectPosition : ∃ (t : Time) (s0 : State) (r : Fin 8),
    let s := s0.tick t
    let x := s.rejOf r
    let p := s.laxPos (s.nat (oRej r 2)) t
    let hit := x.tags.filter (fun g => decide (0 ≤ sdiff p g.pos))
    (hit ≠ []) ∧ (s.nat (oRej r 4) = 0) :=
  ⟨0, { State.reset with rej := [(0, { Rej.init with tags := [⟨.input 0 0, 0⟩] })] }, 0, by decide⟩

theorem wit_rejectPosition_distance : ∃ (t : Time) (s0 : State) (r : Fin 8),
    let s := s0.tick t
    let x := s.rejOf r
    let p := s.laxPos (s.nat (oRej r 2)) t
    let hit := x.tags.filter (fun g => decide (0 ≤ sdiff p g.pos))
    (hit ≠ []) ∧ (s.nat (oRej r 4) ≠ 0) :=
  ⟨0, { withObj [(oRej 0 4, .num 1)] with rej := [(0, { Rej.init with tags := [⟨.input 0 0, 0⟩] })] }, 0, by decide⟩

theorem wit_rejectPulseEnd : ∃ (t : Time) (s0 : State) (r : Fin 8),
    let s := s0.tick t
    let p := s.laxPos (s.nat (oRej r 2)) t
    let u := s.rejSettle r p
    (u.nat (oRej r 0x0B) ≠ 1) ∧ ((u.rejOf r).ended t p = true) :=
  ⟨0, State.reset, 0, by decide⟩

theorem wit_serviceFullPass : ∃ (t : Time) (s0 : State) (p : Path) (n : Fin 48),
    let s := s0.tick t
    (s.serves p = true) ∧ (s.modeN = 6) ∧ (s.measSvcCheck n 1 = none) :=
  ⟨0, { inMode 6 [(oCas 0 2 1, .num 5)] with force := [(oCas 0 4 1, .num 1)], cas := [(0, { Cas.init with recOk := true })] }, .mailbox, 0, by decide⟩

theorem wit_serviceOneElement : ∃ (t : Time) (s0 : State) (p : Path) (n : Fin 48),
    let s := s0.tick t
    (s.serves p = true) ∧ (s.modeN = 6) ∧ (s.measSvcCheck n 2 = none) :=
  ⟨0, { inMode 6 [(oCas 0 2 1, .num 5)] with force := [(oCas 0 4 1, .num 1)], cas := [(0, { Cas.init with recOk := true, recd := goodRecord })] }, .mailbox, 0, by decide⟩

theorem wit_defectDeclare : ∃ (t : Time) (s0 : State) (p : Path) (n : Fin 48) (e : Nat),
    let s := s0.tick t
    (s.serves p = true) ∧ (s.modeN ≤ 6) ∧ (e < s.ne n) ∧ (e < 2 ^ 32) :=
  ⟨0, { inMode 4 [] with cas := [(0, { Cas.init with recd := goodRecord })] }, .mailbox, 0, 3, by decide⟩

theorem wit_defectClear : ∃ (t : Time) (s0 : State) (p : Path) (n : Fin 48) (e : Nat),
    let s := s0.tick t
    (s.serves p = true) ∧ (s.modeN ≤ 6) ∧ (e = 0xFFFFFFFF ∨ e < s.ne n) ∧ (e < 2 ^ 32) :=
  ⟨0, inMode 4 [], .mailbox, 0, 0xFFFFFFFF, by decide⟩

theorem wit_consumeAdjust : ∃ (t : Time) (s0 : State) (p : Path) (n : Fin 48) (v : Nat),
    let s := s0.tick t
    (s.serves p = true) ∧ (s.modeN ≤ 6) ∧ (v < 2 ^ 32) :=
  ⟨0, inMode 4 [], .mailbox, 0, 9, by decide⟩

theorem wit_hostSensorWrite : ∃ (t : Time) (s0 : State) (p : Path) (n : Fin 48) (v : Nat),
    let s := s0.tick t
    (s.serves p = true) ∧ (s.modeN ≤ 6) ∧ (v < 2 ^ 64) ∧ (s.nat (oCas n 0x0F 5) = 2) :=
  ⟨0, inMode 4 [(oCas 0 0x0F 5, .num 2)], .mailbox, 0, 9, by decide⟩

theorem wit_newSupply : ∃ (t : Time) (s0 : State) (p : Path) (n : Fin 48),
    let s := s0.tick t
    (s.serves p = true) ∧ (s.modeN ≤ 6) :=
  ⟨0, inMode 4 [], .mailbox, 0, by decide⟩

theorem wit_recordWrite : ∃ (t : Time) (s0 : State) (p : Path) (n : Fin 48) (v : Nat),
    let s := s0.tick t
    (s.serves p = true) ∧ (s.modeN = 2 ∨ s.modeN = 6) ∧ (s.portAIdle n = true) ∧ (s.nat (oCas n 0x10 1) < s.ne n) ∧ (v < 2 ^ 32) :=
  ⟨0, { inMode 6 [(oCas 0 2 1, .num 5)] with cas := [(0, { Cas.init with recd := goodRecord })] }, .mailbox, 0, 9, by decide⟩

theorem wit_ledgerExport : ∃ (t : Time) (s0 : State) (p : Path) (n : Fin 48),
    let s := s0.tick t
    (s.serves p = true) ∧ (s.modeN = 2 ∨ s.modeN = 6) :=
  ⟨0, inMode 6 [], .mailbox, 0, by decide⟩

theorem wit_ledgerImport : ∃ (t : Time) (s0 : State) (p : Path) (n : Fin 48),
    let s := s0.tick t
    (s.serves p = true) ∧ (s.modeN = 2 ∨ s.modeN = 6) ∧ (s.portAIdle n = true) :=
  ⟨0, inMode 6 [(oCas 0 2 1, .num 1)], .mailbox, 0, by decide⟩

theorem wit_measureCycle : ∃ (t : Time) (s0 : State) (n : Fin 48) (vb vh von : Nat) (m : Meas) (v : Svc),
    let s := s0.tick t
    ((s.casOf n).svc = some v) ∧ (v.phase = 2) ∧ (s.casState n = 5) ∧ ((s.casOf n).meas = some m) ∧ (m.stop n ≤ t) :=
  ⟨secT 1, { inMode 6 [(oCas 0 2 1, .num 5)] with cas := [(0, { Cas.init with svc := some ⟨1, 0, 2, 0⟩, meas := some ⟨1, 0, false, 0, 0⟩ })] }, 0, 1, 2, 3, ⟨1, 0, false, 0, 0⟩, ⟨1, 0, 2, 0⟩, by decide⟩

theorem wit_measureCycle_gap : ∃ (t : Time) (s0 : State) (n : Fin 48) (vb vh von : Nat) (m : Meas),
    let s := s0.tick t
    ((s.casOf n).svc = none) ∧ (s.gapOk n = true) ∧ ((s.casOf n).pass = true) ∧ ((s.casOf n).meas = some m) ∧ (m.stop n ≤ t) :=
  ⟨roundT + nsT 600, { withGap with cas := [(0, { withGap.casOf 0 with meas := some ⟨0, 0, false, 0, 0⟩ })] }, 0, 1, 2, 3, ⟨0, 0, false, 0, 0⟩, by decide⟩

theorem wit_measurePassStart : ∃ (t : Time) (s0 : State) (n : Fin 48),
    let s := s0.tick t
    let x := s.casOf n
    (s.gapOk n = true) ∧ (x.pass = false) ∧ (∀ u : Time, x.passT = some u → u + secT (s.nat (oCas n 0x0D 7)) ≤ t) :=
  ⟨0, { withGap with cas := [(0, { withGap.casOf 0 with pass := false, passT := none, meas := none })] }, 0, by decide, by decide, nofun⟩

theorem wit_scrubStep : ∃ (t : Time) (s0 : State),
    let s := s0.tick t
    (s.nat (ky 0x2020 1) ≠ 0) ∧ (1 < s.modeN) ∧ (elapsed s.ledScrubT (usT (s.nat (ky 0x2020 1))) t = true) :=
  ⟨0, inMode 3 [(ky 0x2020 1, .num 1)], by decide⟩

theorem wit_spoolSpan : ∃ (t : Time) (s0 : State) (n : Fin 48) (p0 : Int),
    let s := s0.tick t
    let x := s.casOf n
    let span := x.span
    let p := s.num (oAx (s.nat (oCas n 0x0F 6)) 1 8)
    let k := (sdiff p p0).natAbs
    (x.spool = some p0) ∧ (s.nat (oCas n 1 1) = 1) ∧ (s.nat (oCas n 0x0F 5) = 3) ∧ (span ≤ x.ribbon) ∧ (k ≠ 0) :=
  ⟨0, { inMode 5 [(oCas 0 1 1, .num 1), (oCas 0 0x0F 5, .num 3), (oAx 0 1 8, .num 7), (oCas 0 0x0F 0x0A, .num 10)] with cas := [(0, { Cas.init with spool := some 0, ribbon := 10, span := 10 })] }, 0, 0, by decide⟩

theorem wit_inkSensorPoll : ∃ (t : Time) (s0 : State) (n : Fin 48),
    let s := s0.tick t
    let x := s.casOf n
    (1 < s.modeN) ∧ (s.configured n = true) ∧ (s.casState n ≠ 0) ∧ (s.nat (oCas n 1 1) = 2) ∧ (s.nat (oCas n 0x0F 5) = 1) ∧ (elapsed x.inkT (secT 10) t = true) :=
  ⟨0, { inMode 5 [(oCas 0 2 1, .num 3), (oCas 0 1 1, .num 2), (oCas 0 0x0F 5, .num 1)] with force := [(oCas 0 4 1, .num 1)] }, 0, by decide⟩

theorem wit_axisEnable : ∃ (t : Time) (s0 : State) (p : Path) (a : Fin 48),
    let s := s0.tick t
    (s.serves p = true) ∧ (4 ≤ s.modeN) ∧ (s.modeN ≤ 6) ∧ (s.axCheck a 1 = none) :=
  ⟨0, axIn 0 2 255, .mailbox, 0, by decide⟩

theorem wit_axisDisable : ∃ (t : Time) (s0 : State) (p : Path) (a : Fin 48),
    let s := s0.tick t
    (s.serves p = true) ∧ (4 ≤ s.modeN) ∧ (s.modeN ≤ 6) ∧ (s.axCheck a 2 = none) :=
  ⟨0, axIn 1 2 255, .mailbox, 0, by decide⟩

theorem wit_axisMove : ∃ (t : Time) (s0 : State) (p : Path) (a : Fin 48),
    let s := s0.tick t
    (s.serves p = true) ∧ (4 ≤ s.modeN) ∧ (s.modeN ≤ 6) ∧ (s.axCheck a 3 = none) :=
  ⟨0, axIn 1 2 255, .mailbox, 0, by decide⟩

theorem wit_axisVelocity : ∃ (t : Time) (s0 : State) (p : Path) (a : Fin 48),
    let s := s0.tick t
    (s.serves p = true) ∧ (4 ≤ s.modeN) ∧ (s.modeN ≤ 6) ∧ (s.axCheck a 4 = none) :=
  ⟨0, axIn 1 2 255, .mailbox, 0, by decide⟩

theorem wit_axisRun : ∃ (t : Time) (s0 : State) (p : Path) (a : Fin 48),
    let s := s0.tick t
    (s.serves p = true) ∧ (4 ≤ s.modeN) ∧ (s.modeN ≤ 6) ∧ (s.axCheck a 5 = none) :=
  ⟨0, axIn 1 2 255, .mailbox, 0, by decide⟩

theorem wit_axisStop : ∃ (t : Time) (s0 : State) (p : Path) (a : Fin 48),
    let s := s0.tick t
    (s.serves p = true) ∧ (4 ≤ s.modeN) ∧ (s.modeN ≤ 6) ∧ (s.axCheck a 6 = none) :=
  ⟨0, axIn 2 2 255, .mailbox, 0, by decide⟩

theorem wit_axisAlign : ∃ (t : Time) (s0 : State) (p : Path) (a : Fin 48),
    let s := s0.tick t
    (s.serves p = true) ∧ (4 ≤ s.modeN) ∧ (s.modeN ≤ 6) ∧ (s.axCheck a 7 = none) :=
  ⟨0, axIn 1 2 0, .mailbox, 0, by decide⟩

theorem wit_axisBrake : ∃ (t : Time) (s0 : State) (p : Path) (a : Fin 48),
    let s := s0.tick t
    (s.serves p = true) ∧ (4 ≤ s.modeN) ∧ (s.modeN ≤ 6) ∧ (s.axCheck a 8 = none) :=
  ⟨0, axIn 1 2 255, .mailbox, 0, by decide⟩

theorem wit_axisClearFault : ∃ (t : Time) (s0 : State) (p : Path) (a : Fin 48),
    let s := s0.tick t
    (s.serves p = true) ∧ (4 ≤ s.modeN) ∧ (s.modeN ≤ 6) ∧ (s.axCheck a 9 = none) :=
  ⟨0, axIn 4 2 255, .mailbox, 0, by decide⟩

theorem wit_segmentWrite : ∃ (t : Time) (s0 : State) (p : Path) (b : Bytes),
    let s := s0.tick t
    (s.serves p = true) ∧ (s.modeN ≤ 6) ∧ (b.length = 16) ∧ (s.segBusy (s.nat (ky 0x2040 1)) = false) :=
  ⟨0, inMode 3 [], .mailbox, List.replicate 16 1, by decide⟩

theorem wit_runCheckDone : ∃ (t : Time) (s0 : State) (a : Fin 48) (n : Nat),
    let s := s0.tick t
    let x := s.axOf a
    let r := s.runCheck a n
    let g := s.nat (oAx a 2 3)
    (x.checking = some n) ∧ (r = 0) ∧ (64 ≤ g) :=
  ⟨0, { axIn 1 2 255 with axes := [(0, { Axis.init with checking := some 0 })], segs := [(0, [1, 0, 0, 0, 0, 0, 0, 0, 0, 0, 0, 0, 0, 0x20, 0, 0])] }, 0, 0, by decide⟩

theorem wit_runCheckDone_refused : ∃ (t : Time) (s0 : State) (a : Fin 48) (n : Nat),
    let s := s0.tick t
    let x := s.axOf a
    let r := s.runCheck a n
    (x.checking = some n) ∧ (r ≠ 0) :=
  ⟨0, { State.reset with axes := [(0, { Axis.init with checking := some 0 })] }, 0, 0, by decide⟩

theorem wit_runCheckDone_armed : ∃ (t : Time) (s0 : State) (a : Fin 48) (n : Nat),
    let s := s0.tick t
    let x := s.axOf a
    let r := s.runCheck a n
    let g := s.nat (oAx a 2 3)
    (x.checking = some n) ∧ (r = 0) ∧ (g < 64) :=
  ⟨0, { axIn 1 2 255 with obj := (axIn 1 2 255).obj.map (fun p => if p.1 = oAx 0 2 3 then (p.1, .num 5) else p), axes := [(0, { Axis.init with checking := some 0 })], segs := [(0, [1, 0, 0, 0, 0, 0, 0, 0, 0, 0, 0, 0, 0, 0x20, 0, 0])] }, 0, 0, by decide⟩

theorem wit_runTrigger : ∃ (t : Time) (s0 : State) (a : Fin 48) (n g : Nat),
    let s := s0.tick t
    let x := s.axOf a
    (x.armed = some (n, g)) ∧ ((s.ginOf g).active = true) :=
  ⟨0, { State.reset with axes := [(0, { Axis.init with armed := some (3, 5) })], gin := [(5, { Gin.init with active := true })] }, 0, 3, 5, by decide⟩

theorem wit_limitInput : ∃ (t : Time) (s0 : State) (a : Fin 48) (v : Bool),
    let s := s0.tick t
    s.limitOn a v = true :=
  ⟨0, { withObj [(oAx 0 4 1, .num 5)] with gin := [(5, { Gin.init with active := true })] }, 0, true, by decide⟩

theorem wit_axisTick : ∃ (t : Time) (s0 : State) (a : Fin 48),
    let s := s0.tick t
    (1 < s.modeN) ∧ (s.axKind a ≠ 0) ∧ (s.tickDue a t = true) :=
  ⟨0, axIn 1 2 255, 0, by decide⟩

theorem wit_followingError : ∃ (t : Time) (s0 : State) (a : Fin 48) (b : Time),
    let s := s0.tick t
    ((s.axOf a).followT = some b) ∧ (b + msT (s.nat (oAx a 4 8)) < t) ∧ (1 ≤ s.axState a) ∧ (s.axState a ≤ 3) ∧ (s.obit (oAx a 2 6) 5 = false) :=
  ⟨secT 1000, { axIn 1 2 255 with axes := [(0, { Axis.init with followT := some 0 })] }, 0, 0, by decide⟩

theorem wit_holdCurrentTimeout : ∃ (t : Time) (s0 : State) (a : Fin 48) (z : Time),
    let s := s0.tick t
    let x := s.axOf a
    (x.zeroT = some z) ∧ (s.axKind a = 1) ∧ (x.vm = 0) ∧ (z + msT 100 ≤ t) :=
  ⟨msT 100, { withObj [(oAx 0 0 1, .num 1)] with axes := [(0, { Axis.init with zeroT := some 0 })], force := [(oAx 0 0 1, .num 1)] }, 0, 0, by decide⟩

theorem wit_catchDone : ∃ (t : Time) (s0 : State) (a : Fin 48) (b : Time),
    let s := s0.tick t
    let x := s.axOf a
    (x.catchT = some b) ∧ (x.catchBrake = false) ∧ (b + msT (s.frcN (oAx a 7 0x0B) % 65536) ≤ t) ∧ (s.onObserver a = true) ∧ (x.obs.valid = true) :=
  ⟨secT 100, { axIn 1 2 255 with axes := [(0, { Axis.init with catchT := some 0, obs := { Axis.init.obs with valid := true } })] }, 0, 0, by decide⟩

theorem wit_catchDone_brake : ∃ (t : Time) (s0 : State) (a : Fin 48) (b : Time),
    let s := s0.tick t
    let x := s.axOf a
    (x.catchT = some b) ∧ (x.catchBrake = false) ∧ (b + msT (s.frcN (oAx a 7 0x0B) % 65536) ≤ t) ∧ (s.onObserver a = true) ∧ (x.obs.valid = false) :=
  ⟨secT 100, { axIn 1 2 255 with axes := [(0, { Axis.init with catchT := some 0 })] }, 0, 0, by decide⟩

theorem wit_catchDone_encoder : ∃ (t : Time) (s0 : State) (a : Fin 48) (b : Time),
    let s := s0.tick t
    let x := s.axOf a
    let w := msT (s.frcN (oAx a 7 0x0B) % 65536)
    (x.catchT = some b) ∧ (x.catchBrake = false) ∧ (b + w ≤ t) ∧ (s.onObserver a = false) :=
  ⟨secT 100, { axIn 1 2 0 with axes := [(0, { Axis.init with catchT := some 0 })] }, 0, 0, by decide⟩

theorem wit_catchBrakeExpiry : ∃ (t : Time) (s0 : State) (a : Fin 48) (b : Time),
    let s := s0.tick t
    let x := s.axOf a
    (x.catchT = some b) ∧ (x.catchBrake = true) ∧ (b + msT (s.frcN (oAx a 7 0x0B) / 65536) ≤ t) :=
  ⟨secT 1000, { State.reset with axes := [(0, { Axis.init with catchT := some 0, catchBrake := true })] }, 0, 0, by decide⟩

theorem wit_alignTimeExpiry : ∃ (t : Time) (s0 : State) (a : Fin 48) (b : Time),
    let s := s0.tick t
    let x := s.axOf a
    (x.alignT = some b) ∧ (b + msT (s.nat (oAx a 6 6) / 65536) ≤ t) :=
  ⟨secT 1000, { State.reset with axes := [(0, { Axis.init with alignT := some 0 })] }, 0, 0, by decide⟩

theorem wit_chopOff : ∃ (t : Time) (s0 : State) (a : Fin 16) (ph : Fin 3) (i : Int),
    let s := s0.tick t
    let x := s.axOf a
    let y := tget (fun _ => Chop.init) x.chop ph
    let cfg := s.frcN (oAx a 5 9)
    (s.regulates a = true) ∧ (ph.val < s.phases a) ∧ (y.on = true) ∧ (y.t0 + chopT (max (bits cfg 15 0) (bits cfg 31 16)) ≤ t) ∧ ((y.hi : Int) ≤ i) :=
  ⟨secT 1, { axIn 1 2 255 with axes := [(0, { Axis.init with gates := true, chop := [(0, { Chop.init with on := true })] })] }, 0, 0, 5, by decide⟩

theorem wit_chopOff_brake : ∃ (t : Time) (s0 : State) (a : Fin 16) (ph : Fin 3) (i : Int),
    let s := s0.tick t
    let x := s.axOf a
    let gi := s.frcI (oAx a 5 1)
    (x.braking = true) ∧ (gi ≠ 0) ∧ (ph.val < brakePhases (s.axKind a)) ∧ (tget (fun _ => 0) x.brk ph ≤ t) ∧ ((chopCode (tdiv (s.num (oAx a 7 0x0E) * 65536) gi) : Int) < i) :=
  ⟨0, { axIn 0 2 255 with axes := [(0, { Axis.init with braking := true })], force := [(oAx 0 0 1, .num 2), (oAx 0 5 1, .num 65536)] }, 0, 0, 300, by decide⟩

theorem wit_chopCycleEnd : ∃ (t : Time) (s0 : State) (a : Fin 16) (ph : Fin 3) (i : Int) (mean : Fin 4096),
    let s := s0.tick t
    let x := s.axOf a
    let y := tget (fun _ => Chop.init) x.chop ph
    let cfg := s.frcN (oAx a 5 9)
    (s.regulates a = true) ∧ (ph.val < s.phases a) ∧ (y.on = false) ∧ (y.offT + chopT (bits cfg 47 32) ≤ t ∧ i ≤ (y.lo : Int) ∨ y.offT + chopT (bits cfg 63 48) ≤ t) ∧ (y.t0 * s.frcN (oAx a 5 0x0A) + msT 1 ≤ t * s.frcN (oAx a 5 0x0A)) ∧ (y ≠ Chop.init) ∧ (s.frcI (oAx a 5 1) ≠ 0) :=
  ⟨secT 1, { axIn 1 2 255 with axes := [(0, { Axis.init with gates := true, chop := [(0, { Chop.init with offT := 1 })] })] }, 0, 0, 5, 7, by decide⟩

theorem wit_overcurrent : ∃ (t : Time) (s0 : State) (a : Fin 16) (pin : Fin 4) (code : Fin 256),
    let s := s0.tick t
    let st := s.axState a
    (1 ≤ s.axKind a) ∧ (s.axKind a ≤ 3) ∧ (s.nat (oAx a 5 4) ≤ code.val) ∧ (st ≠ 0) ∧ (st ≠ 4) :=
  ⟨0, axIn 1 2 255, 0, 2, 255, by decide⟩

theorem wit_overcurrent_faulted : ∃ (t : Time) (s0 : State) (a : Fin 16) (pin : Fin 4) (code : Fin 256),
    let s := s0.tick t
    let st := s.axState a
    (1 ≤ s.axKind a) ∧ (s.axKind a ≤ 3) ∧ (s.nat (oAx a 5 4) ≤ code.val) ∧ (st = 4) :=
  ⟨0, axIn 4 2 255, 0, 2, 255, by decide⟩

theorem wit_overcurrent_disabled : ∃ (t : Time) (s0 : State) (a : Fin 16) (pin : Fin 4) (code : Fin 256),
    let s := s0.tick t
    let st := s.axState a
    (1 ≤ s.axKind a) ∧ (s.axKind a ≤ 3) ∧ (s.nat (oAx a 5 4) ≤ code.val) ∧ (st = 0) :=
  ⟨0, axIn 0 2 255, 0, 2, 255, by decide⟩

theorem wit_observerUpdate : ∃ (t : Time) (s0 : State) (a : Fin 16) (is01 is23 vp01 : Fin 4096 × Fin 4096) (vp2 : Fin 4096),
    let s := s0.tick t
    (s.axKind a = 2) ∧ (s.axEnc a = true) ∧ (s.onObserver a = false) ∧ (elapsed (s.axOf a).roundT (nsT 1400) t = true) :=
  ⟨0, axIn 1 2 0, 0, (1, 1), (1, 1), (1, 1), 1, by decide⟩

theorem wit_observerDisagreement : ∃ (t : Time) (s0 : State) (a : Fin 16) (b : Time),
    let s := s0.tick t
    let x := s.axOf a
    (x.disagreeT = some b) ∧ (x.obs.valid = true) ∧ (b + msT (s.nat (oAx a 7 6) / 65536) < t) ∧ (s.axState a ≠ 0) ∧ (s.axState a ≠ 4) ∧ (s.obit (oAx a 2 6) 3 = false) :=
  ⟨secT 1000, { axIn 1 2 255 with axes := [(0, { Axis.init with disagreeT := some 0, obs := { Axis.init.obs with valid := true } })] }, 0, 0, by decide⟩

theorem wit_startTimeout : ∃ (t : Time) (s0 : State) (a : Fin 16) (b : Time),
    let s := s0.tick t
    let x := s.axOf a
    (x.startT = some b) ∧ (b + msT (s.frcN (oAx a 7 9)) ≤ t) ∧ (x.obs.valid = false) :=
  ⟨secT 1000, { State.reset with axes := [(0, { Axis.init with startT := some 0 })] }, 0, 0, by decide⟩

theorem wit_coefficientApply : ∃ (t : Time) (s0 : State) (p : Path) (n : Fin 64),
    let s := s0.tick t
    (s.serves p = true) ∧ (s.modeN ≤ 6) :=
  ⟨0, inMode 3 [], .mailbox, 0, by decide⟩

theorem wit_loopOverrunClear : ∃ (t : Time) (s0 : State) (p : Path),
    let s := s0.tick t
    (s.serves p = true) ∧ (s.modeN ≤ 6) :=
  ⟨0, inMode 3 [], .mailbox, by decide⟩

theorem wit_loopTick : ∃ (t : Time) (s0 : State),
    let s := s0.tick t
    (3 ≤ s.modeN) ∧ (t % nsT 20000 = 0) ∧ (∀ l : Time, s.clk.loopT = some l → l < t) :=
  ⟨0, inMode 3 [], by decide, by decide, nofun⟩

theorem wit_plannedPassRefresh : ∃ (t : Time) (s0 : State),
    let s := s0.tick t
    1 < s.modeN :=
  ⟨0, inMode 3 [], by decide⟩

theorem wit_registerWrite4 : ∃ (t : Time) (s0 : State) (off : Nat) (v : BitVec 64),
    let s := s0.tick t
    (s.modeN ≠ 0) ∧ (off % 4 = 0) :=
  ⟨0, inMode 3 [], 0x80, 5, by decide⟩

theorem wit_registerWrite : ∃ (t : Time) (s0 : State) (off : Nat) (v : BitVec 64),
    let s := s0.tick t
    (s.modeN ≠ 0) ∧ (off % 8 = 0) :=
  ⟨0, inMode 3 [], 0x30000, 5, by decide⟩

theorem wit_bar2Access : ∃ (t : Time) (s0 : State) (off len : Nat) (b : Bytes) (bad : Bool),
    let s := s0.tick t
    let a := s.host.bar2 * 1048576 + off
    (s.modeN ≠ 0) ∧ (off + b.length ≤ 268435456) ∧ (s.inDram a b.length = true) :=
  ⟨0, inMode 3 [], 16, 0, [1, 2, 3], false, by decide⟩

theorem wit_bar2Access_read : ∃ (t : Time) (s0 : State) (off len : Nat),
    let s := s0.tick t
    let a := s.host.bar2 * 1048576 + off
    (s.modeN ≠ 0) ∧ (off + len ≤ 268435456) ∧ (s.inDram a len = true) :=
  ⟨0, inMode 3 [], 16, 4, by decide⟩

theorem wit_bar2Access_poisoned : ∃ (t : Time) (s0 : State) (off len : Nat),
    let s := s0.tick t
    let a := s.host.bar2 * 1048576 + off
    (s.modeN ≠ 0) ∧ (off + len ≤ 268435456) ∧ (s.inDram a len = true) :=
  ⟨0, inMode 3 [], 16, 4, by decide⟩

theorem wit_dictionaryWrite : ∃ (t : Time) (s0 : State) (p : Path) (idx : BitVec 16) (sub : BitVec 8) (b : Bytes) (base i : Nat) (row : Row) (v : Val),
    let s := s0.tick t
    let u := s.writeVal (ky idx.toNat sub.toNat) row v
    (s.serves p = true) ∧ (s.writeParse idx.toNat sub.toNat b = .ok (base, i, row, v)) ∧ (u.relCheck base i sub.toNat v b = none) :=
  ⟨0, inMode 3 [], .mailbox, 0x5003, 1, [3, 0], 0x5003, 0, ⟨1, 1, .uns 2, 31, false, 0, .rng 0 4095, .imm⟩, .num 3, by decide⟩

theorem wit_dramDataWrite : ∃ (t : Time) (s0 : State) (p : Path) (b : Bytes),
    let s := s0.tick t
    (s.serves p = true) ∧ (s.modeN ≤ 6) ∧ (1 ≤ b.length) ∧ (b.length ≤ 1024) ∧ (s.dramAccess b.length = true) :=
  ⟨0, inMode 3 [], .mailbox, [7, 8], by decide⟩

theorem wit_dramDataRead : ∃ (t : Time) (s0 : State) (p : Path),
    let s := s0.tick t
    (s.serves p = true) ∧ (s.dramAccess (s.nat (ky 0x2070 3)) = true) :=
  ⟨0, inMode 3 [], .mailbox, by decide⟩

theorem wit_doorbellWrite : ∃ (t : Time) (s0 : State) (q : Nat) (v : BitVec 32),
    let s := s0.tick t
    (1 < s.modeN) ∧ (q < 16384) ∧ (s.doorbellCheck q v.toNat = none) :=
  ⟨0, { inMode 3 [] with host := { State.reset.host with queues := [(16, { Queue.init with enabled := true, typ := 1 })] } }, 16, 3, by decide⟩

theorem wit_doorbellWrite_dictionary : ∃ (t : Time) (s0 : State) (p : Path) (q : Nat) (v : BitVec 32),
    let s := s0.tick t
    (s.serves p = true) ∧ (s.modeN ≤ 6) ∧ (q < 16384) ∧ (s.doorbellCheck q v.toNat = none) :=
  ⟨0, { inMode 3 [] with host := { State.reset.host with queues := [(16, { Queue.init with enabled := true, typ := 1 })] } }, .mailbox, 16, 3, by decide⟩

theorem wit_queueEnable : ∃ (t : Time) (s0 : State) (q : Nat),
    let s := s0.tick t
    (1 < s.modeN) ∧ (16 ≤ q) ∧ (q < 16384) ∧ ((s.qOf q).enabled = false) :=
  ⟨0, inMode 3 [], 16, by decide⟩

theorem wit_queueDisable : ∃ (t : Time) (s0 : State) (q : Nat),
    let s := s0.tick t
    (1 < s.modeN) ∧ (16 ≤ q) ∧ (q < 16384) :=
  ⟨0, inMode 3 [], 16, by decide⟩

theorem wit_irqModerationTimeout : ∃ (t : Time) (s0 : State) (q : Nat),
    let s := s0.tick t
    let x := s.qOf q
    (x.irqEn = true) ∧ (0 < x.unsig) ∧ (x.unsigT + usT x.irqTime ≤ t) :=
  ⟨0, { inMode 3 [] with host := { State.reset.host with queues := [(16, { Queue.init with irqEn := true, unsig := 2 })] } }, 16, by decide⟩

theorem wit_porterGrant : ∃ (t : Time) (s0 : State) (ok : Bool) (q k : Nat) (fresh : Bool),
    let s := s0.tick t
    let w := s.porterScan
    (1 < w.modeN) ∧ (w.inFlight < 32) ∧ (w.host.grantT ≤ t) ∧ (w.porterPick = some (q, k, fresh)) :=
  ⟨0, { inMode 3 [] with host := { State.reset.host with queues := [(16, { Queue.init with enabled := true, typ := 1, prod := 1 })] } }, true, 16, 4, true, by decide⟩

theorem wit_agingPromotion : ∃ (t : Time) (s0 : State) (q : Nat) (a : Time),
    let s := s0.tick t
    let w := s.porterScan
    let x := w.qOf q
    (x.agedAt = some a) ∧ (0 < x.eff) ∧ (a + usT (w.nat (ky 0x2502 (x.eff + 1))) ≤ t) :=
  ⟨secT 60, { inMode 3 [] with host := { State.reset.host with queues := [(16, { Queue.init with enabled := true, typ := 1, prod := 1, agedAt := some 0 })] } }, 16, 0, by decide⟩

theorem wit_markRequestAccept : ∃ (t : Time) (s0 : State) (q : Nat) (ok : Bool) (b : Bytes) (r : List Bytes) (n : Nat) (ovr : Option (Nat × Bytes)),
    let s := s0.tick t
    let x := s.qOf q
    let u := (s.setQ q { x with count := (x.count + 1) % 2 ^ 32 }).popEntry q
    (x.got = b :: r) ∧ (s.requestCas q = some n) ∧ (x.typ = 1) ∧ (s.blocked q = false) ∧ (s.override b ok = some ovr) ∧ (u.nat (oCas n 0 1) ≠ 2) :=
  ⟨0, { inMode 5 [(oCas 0 0 9, .num 16)] with host := { State.reset.host with queues := [(16, { Queue.init with enabled := true, typ := 1, got := [List.replicate 64 0] })] } }, 16, true, List.replicate 64 0, [], 0, none, by decide⟩

theorem wit_markRequestAccept_anchor : ∃ (t : Time) (s0 : State) (q : Nat) (ok : Bool) (b : Bytes) (r : List Bytes) (n : Nat) (ovr : Option (Nat × Bytes)),
    let s := s0.tick t
    let x := s.qOf q
    let u := (s.setQ q { x with count := (x.count + 1) % 2 ^ 32 }).popEntry q
    (x.got = b :: r) ∧ (s.requestCas q = some n) ∧ (x.typ = 1) ∧ (s.blocked q = false) ∧ (s.override b ok = some ovr) ∧ (u.nat (oCas n 0 1) = 2) :=
  ⟨0, { inMode 5 [(oCas 0 0 9, .num 16), (oCas 0 0 1, .num 2)] with host := { State.reset.host with queues := [(16, { Queue.init with enabled := true, typ := 1, got := [List.replicate 64 0] })] } }, 16, true, List.replicate 64 0, [], 0, none, by decide⟩

theorem wit_recordAccept : ∃ (t : Time) (s0 : State) (q : Nat) (ok : Bool) (b : Bytes) (r : List Bytes),
    let s := s0.tick t
    let x := s.qOf q
    let a := fieldLE b 0x10 8
    let n := byteAt b 2
    (x.got = b :: r) ∧ (x.typ = 2) ∧ (s.blocked q = false) ∧ (bit (byteAt b 1) 0 = true → ok = true ∧ (bit (byteAt b 1) 1 = true → s.inDram a n = true)) :=
  ⟨0, { inMode 3 [] with host := { State.reset.host with queues := [(16, { Queue.init with enabled := true, typ := 2, param := 5, got := [List.replicate 64 0] })] } }, 16, true, List.replicate 64 0, [], by decide⟩

theorem wit_recordAccept_bad : ∃ (t : Time) (s0 : State) (q : Nat) (ok : Bool) (b : Bytes) (r : List Bytes),
    let s := s0.tick t
    let x := s.qOf q
    (x.got = b :: r) ∧ (x.typ = 2) ∧ (s.blocked q = false) ∧ (bit (byteAt b 1) 0 = true) ∧ (ok = false ∨ bit (byteAt b 1) 1 = true ∧ s.inDram (fieldLE b 0x10 8) (byteAt b 2) = false) :=
  ⟨0, { inMode 3 [] with host := { State.reset.host with queues := [(16, { Queue.init with enabled := true, typ := 2, param := 5, got := [List.replicate 64 1] })] } }, 16, false, List.replicate 64 1, [], by decide⟩

theorem wit_completionDrain : ∃ (t : Time) (s0 : State) (q : Nat),
    let s := s0.tick t
    let x := s.qOf q
    let k := takeEntries q (min 8 (min (2 ^ x.z - x.level) (2 ^ x.z - x.prod % 2 ^ x.z))) s.host.buffer
    (x.enabled = true) ∧ (x.typ = 3) ∧ (x.atEnd = false) ∧ (s.host.drainT ≤ t) ∧ (k.1 ≠ []) :=
  ⟨0, { inMode 3 [] with host := { State.reset.host with queues := [(16, { Queue.init with enabled := true, typ := 3 })], buffer := [⟨16, 0, 0, [List.replicate 32 0]⟩] } }, 16, by decide⟩

theorem wit_eventWrite : ∃ (t : Time) (s0 : State) (e : Nat) (r : EvRec),
    let s := s0.tick t
    let w := s.holdEvents (s.host.events.map Prod.fst)
    (w.host.events.find? (fun p => w.routeOf p.1 != 0 && !w.eventHeld p.1) = some (e, r)) ∧ (w.host.eventT ≤ t) :=
  ⟨0, { inMode 3 [] with host := { State.reset.host with queues := [(16, { Queue.init with enabled := true, typ := 4 })], events := [(3, ⟨0, 0, [], 0, 0, false⟩)], routes := [(3, 16)] } }, 3, ⟨0, 0, [], 0, 0, false⟩, by decide⟩

theorem wit_mailboxSubmit : ∃ (t : Time) (s0 : State) (v : BitVec 32),
    let s := s0.tick t
    (1 < s.modeN) ∧ (v.getLsbD 0 = true) ∧ (s.host.mboxBusy = false) :=
  ⟨0, inMode 3 [], 1, by decide⟩

theorem wit_dictionaryRequest_mailbox : ∃ (t : Time) (s0 : State) (r : DReq) (l : List DReq),
    let s := s0.tick t
    (1 < s.modeN) ∧ (s.deaf = false) ∧ (s.host.reqs = r :: l) ∧ (r.queue = none) :=
  ⟨0, { inMode 3 [] with host := { State.reset.host with reqs := [⟨none, 0, []⟩] } }, ⟨none, 0, []⟩, [], by decide⟩

theorem wit_dictionaryRequest : ∃ (t : Time) (s0 : State) (r : DReq) (l : List DReq) (q : Nat),
    let s := s0.tick t
    (1 < s.modeN) ∧ (s.deaf = false) ∧ (s.host.reqs = r :: l) ∧ (r.queue = some q) :=
  ⟨0, { inMode 3 [] with host := { State.reset.host with reqs := [⟨some 16, 0, []⟩] } }, ⟨some 16, 0, []⟩, [], 16, by decide⟩

theorem wit_dmaStart : ∃ (t : Time) (s0 : State) (n : Fin 64),
    let s := s0.tick t
    s.modeN ≠ 0 :=
  ⟨0, inMode 3 [], 0, by decide⟩

theorem wit_dmaAbort : ∃ (t : Time) (s0 : State) (n : Fin 64),
    let s := s0.tick t
    s.modeN ≠ 0 :=
  ⟨0, inMode 3 [], 0, by decide⟩

theorem wit_dmaBurst : ∃ (t : Time) (s0 : State) (n : Fin 64) (ok : Bool),
    let s := s0.tick t
    let u := s.dmaSettle
    (u.modeN ≠ 0) ∧ (u.dmaReady n = true) ∧ (u.dmaWaits n = false) :=
  ⟨0, { inMode 3 [] with host := { State.reset.host with dma := [(0, { Dma.init with busy := true })] } }, 0, true, by decide⟩

theorem wit_hostReset : ∃ (t : Time) (s0 : State) (k : HostResetKind),
    let s := s0.tick t
    (s.modeN ≠ 0) ∧ (k ≠ .linkLoss) :=
  ⟨0, inMode 3 [], .hot, by decide⟩

theorem wit_hostReset_link : ∃ (t : Time) (s0 : State),
    let s := s0.tick t
    s.modeN ≠ 0 :=
  ⟨0, inMode 3 [], by decide⟩

theorem wit_pcieLinkUp : ∃ (t : Time) (s0 : State) (v w : Nat),
    let s := s0.tick t
    s.modeN ≠ 0 :=
  ⟨0, inMode 3 [], 3, 4, by decide⟩

theorem wit_portUp : ∃ (t : Time) (s0 : State) (p : Fin 4),
    let s := s0.tick t
    let x := s.portOf p
    (s.portOn p = true) ∧ (x.up = false) :=
  ⟨0, fabricUp, 1, by decide⟩

theorem wit_portDown : ∃ (t : Time) (s0 : State) (p : Fin 4) (k : DownCause),
    let s := s0.tick t
    let x := s.portOf p
    x.up = true :=
  ⟨0, fabricUp, 0, .lock, by decide⟩

theorem wit_failover : ∃ (t : Time) (s0 : State) (p : Fin 4) (l : Nat),
    let s := s0.tick t
    s.usable p = true :=
  ⟨0, fabricUp, 0, 5, by decide⟩

theorem wit_rediscoveryStart : ∃ (t : Time) (s0 : State) (l : Nat),
    let s := s0.tick t
    (s.fab.failed.contains l = true) ∧ ((List.range 4).any (fun p => (s.portOf p).up && decide ((s.portOf p).since + msT 100 ≤ t) && decide (s.linkOf p |>.any (fun x => linkId x = l))) = true) :=
  ⟨secT 1, { fabricUp with fab := { fabricUp.fab with failed := [0] } }, 0, by decide⟩

theorem wit_helloSend : ∃ (t : Time) (s0 : State),
    let s := s0.tick t
    (s.fabricOn = true) ∧ (s.sendDue 0 10000 t = true) :=
  ⟨0, fabricUp, by decide⟩

theorem wit_hello : ∃ (t : Time) (s0 : State) (p : Fin 4) (q src fid np : Nat) (root : Bool) (serial : Nat),
    let s := s0.tick t
    let a := s.taken p q
    ((s.portOf p).up = true) ∧ (s.linkNew p q = true) ∧ (fid = a.frcN (ky 0x2400 3)) :=
  ⟨0, fabricUp, 0, 3, 2, 0, 1, true, 7, by decide⟩

theorem wit_hello_mismatch : ∃ (t : Time) (s0 : State) (p : Fin 4) (q src fid np : Nat) (root : Bool) (serial : Nat),
    let s := s0.tick t
    let a := s.taken p q
    ((s.portOf p).up = true) ∧ (s.linkNew p q = true) ∧ (fid ≠ a.frcN (ky 0x2400 3)) :=
  ⟨0, fabricUp, 0, 3, 2, 99, 1, true, 7, by decide⟩

theorem wit_hello_repeated : ∃ (t : Time) (s0 : State) (p : Fin 4) (q src fid np : Nat) (root : Bool) (serial : Nat),
    let s := s0.tick t
    ((s.portOf p).up = true) ∧ (s.linkNew p q = false) :=
  ⟨0, { fabricUp with fab := { fabricUp.fab with ports := [(0, { FPort.init with up := true, rxSeq := some 3 })] } }, 0, 3, 2, 0, 1, true, 7, by decide⟩

theorem wit_topology : ∃ (t : Time) (s0 : State) (p : Fin 4) (q src v : Nat) (l : List TopoEntry),
    let s := s0.tick t
    let a := s.taken p q
    ((s.portOf p).up = true) ∧ (s.linkNew p q = true) ∧ (a.usable p = true) ∧ (src ≠ a.node) ∧ (a.fab.view.any (fun x => x.node = src ∧ v ≤ x.version) = false) :=
  ⟨0, fabricUp, 0, 3, 1, 1, [], by decide⟩

theorem wit_viewStable_member : ∃ (t : Time) (s0 : State),
    let s := s0.tick t
    let u := (s.setn (ky 0x2400 6) 2).event 0xD4 0x0711 s.node
    (s.nodeState = 1) ∧ (s.fab.viewT + msT 1 ≤ t) ∧ (u.newTree.1 ≠ u.node) :=
  ⟨secT 1, { { fabricUp with fab := { fabricUp.fab with roots := [1], view := [⟨0, 1, [⟨0, 1, 0, 1⟩]⟩, ⟨1, 1, [⟨0, 0, 0, 1⟩]⟩] } } with obj := [(ky 0x2400 6, .num 1)] }, by decide⟩

theorem wit_viewStable : ∃ (t : Time) (s0 : State),
    let s := s0.tick t
    let u := (s.setn (ky 0x2400 6) 2).event 0xD4 0x0711 s.node
    let r := u.newTree.1
    (s.nodeState = 1) ∧ (s.fab.viewT + msT 1 ≤ t) ∧ (r = u.node) :=
  ⟨secT 1, { fabricUp with obj := [(ky 0x2400 6, .num 1)] }, by decide⟩

theorem wit_tree : ∃ (t : Time) (s0 : State) (p : Fin 4) (q v at_ r e : Nat),
    let s := s0.tick t
    let a := s.taken p q
    ((s.portOf p).up = true) ∧ (s.linkNew p q = true) ∧ (a.usable p = true) ∧ (a.fab.staged = none ∧ (a.nat (ky 0x2400 7) / 256 ≠ r ∨ a.fab.treeVersion < v) ∨ ∃ y, a.fab.staged = some y ∧ (y.2.2.1 ≠ r ∨ y.1 < v)) :=
  ⟨0, fabricUp, 0, 3, 3, 100, 1, 0, by decide, by decide, by decide, .inl (by decide)⟩

theorem wit_treeApply : ∃ (t : Time) (s0 : State) (v at_ r e : Nat),
    let s := s0.tick t
    (s.fab.staged = some (v, at_, r, e)) ∧ ((at_ : Int) ≤ s.ftime) :=
  ⟨0, { fabricUp with fab := { fabricUp.fab with staged := some (2, 0, 1, 0) } }, 2, 0, 1, 0, by decide⟩

theorem wit_replayTimeout : ∃ (t : Time) (s0 : State) (p : Fin 4) (f : Sent),
    let s := s0.tick t
    (s.portOf p).replay.find? (fun f => f.tries ≠ 0 ∧ f.at_ + usT 2 ≤ t) = some f :=
  ⟨usT 2, { fabricUp with fab := { fabricUp.fab with ports := [(0, { FPort.init with up := true, replay := [⟨3, [], 1, 0⟩] })] } }, 0, ⟨3, [], 1, 0⟩, by decide⟩

theorem wit_timeSyncSend : ∃ (t : Time) (s0 : State) (p : Fin 4),
    let s := s0.tick t
    (s.childOn p = true) ∧ (s.sendDue (1 + p) 100000 t = true) :=
  ⟨0, { fabricUp with obj := [(ky 0x2100 2, .num 5), (ky 0x2400 7, .num 256)] }, 0, by decide⟩

theorem wit_timeSync : ∃ (t : Time) (s0 : State) (p : Fin 4) (q : Nat) (t1 t2 t3 t4 fp : Int),
    let s := s0.tick t
    let a := s.taken p q
    ((s.portOf p).up = true) ∧ (s.linkNew p q = true) ∧ (a.childOn p = true) :=
  ⟨0, { fabricUp with obj := [(ky 0x2100 2, .num 5), (ky 0x2400 7, .num 256)] }, 0, 3, 1, 2, 3, 4, 5, by decide⟩

theorem wit_timeSync_answer : ∃ (t : Time) (s0 : State) (p : Fin 4) (q : Nat) (t1 t2 t3 t4 fp : Int),
    let s := s0.tick t
    let a := s.taken p q
    ((s.portOf p).up = true) ∧ (s.linkNew p q = true) ∧ (a.childOn p = false) ∧ (a.fabricOn = true) ∧ (a.portStateOf p = 1) :=
  ⟨0, fabricUp, 0, 3, 1, 2, 3, 0, 0, by decide⟩

theorem wit_positionSend : ∃ (t : Time) (s0 : State) (j : Fin 8),
    let s := s0.tick t
    let k := s.frcN (ky (0x2408 + j) 1)
    (s.fabricOn = true) ∧ (k ≤ 31) ∧ (s.fab.conflict = false) ∧ (s.fab.slotConflict.contains j.val = false) ∧ (s.treePorts ≠ []) ∧ (s.sendDue (8 + j) 1000 t = true) :=
  ⟨0, { fabricUp with force := (ky 0x2408 1, .num 0) :: fabricUp.force }, 0, by decide⟩

theorem wit_position : ∃ (t : Time) (s0 : State) (p : Fin 4) (f : PosFrame),
    let s := s0.tick t
    let u := s.sendPos f.src f.seq (posBytes f.slot f.axis f.status f.epoch f.ftime f.pos f.vel) (some p.val)
    let n := f.src * 32 + f.axis
    let last := tget (fun _ => 65536) u.fab.axisSeq n
    (s.fabricOn = true) ∧ (s.portStateOf p = 1) ∧ (8 ≤ f.slot) ∧ (f.epoch = u.nat (ky 0x2400 7) % 256) ∧ (last = 65536 ∨ 0 < wrapS 16 ((f.seq : Int) - last)) :=
  ⟨0, fabricUp, 0, ⟨1, 0, 9, 0, 1, 0, 0, 0, 0⟩, by decide⟩

theorem wit_positionLossTimeout : ∃ (t : Time) (s0 : State) (k : Fin 32),
    let s := s0.tick t
    let x := s.laxOf k
    (x.kind = 3) ∧ (s.sourceFaulty k = true) ∧ (max x.ownT (tget (fun _ => 0) s.fab.axisT x.inst) + usT (s.nat (ky 0x2410 1)) ≤ t) :=
  ⟨secT 1000, { fabricUp with lax := [(0, { Lax.init with kind := 3 })] }, 0, by decide⟩

theorem wit_anchor : ∃ (t : Time) (s0 : State) (p : Fin 4) (q ds : Nat) (id : MarkId) (r : Nat) (ar : Int) (ft tp tg : Nat),
    let s := s0.tick t
    let a := s.taken p q
    ((s.portOf p).up = true) ∧ (s.linkNew p q = true) ∧ (a.portStateOf p = 1) ∧ (ds = a.node) ∧ (a.captures = true) :=
  ⟨0, fabricUp, 0, 3, 0, ⟨1, 0, 1⟩, 0, 0, 0, 0, 0, by decide⟩

theorem wit_anchor_forward : ∃ (t : Time) (s0 : State) (p : Fin 4) (q ds : Nat) (id : MarkId) (r : Nat) (ar : Int) (ft tp tg : Nat),
    let s := s0.tick t
    let a := s.taken p q
    ((s.portOf p).up = true) ∧ (s.linkNew p q = true) ∧ (a.portStateOf p = 1) ∧ (ds ≠ a.node) :=
  ⟨0, fabricUp, 0, 3, 2, ⟨1, 0, 1⟩, 0, 0, 0, 0, 0, by decide⟩

theorem wit_voteReceive : ∃ (t : Time) (s0 : State) (p : Fin 4) (q : Nat) (id : MarkId) (src n : Nat) (y : Bool) (it dl : Nat),
    let s := s0.tick t
    let a := s.taken p q
    ((s.portOf p).up = true) ∧ (s.linkNew p q = true) ∧ (a.portStateOf p = 1) ∧ (id.node = a.node) :=
  ⟨0, fabricUp, 0, 3, ⟨0, 0, 1⟩, 1, 0, true, 0, 5, by decide⟩

theorem wit_voteReceive_forward : ∃ (t : Time) (s0 : State) (p : Fin 4) (q : Nat) (id : MarkId) (src n : Nat) (y : Bool) (it dl : Nat),
    let s := s0.tick t
    let a := s.taken p q
    ((s.portOf p).up = true) ∧ (s.linkNew p q = true) ∧ (a.portStateOf p = 1) ∧ (id.node ≠ a.node) :=
  ⟨0, fabricUp, 0, 3, ⟨1, 0, 1⟩, 1, 0, true, 0, 5, by decide⟩

theorem wit_voteCutoff : ∃ (t : Time) (s0 : State) (n : Fin 48) (x : Stitch),
    let s := s0.tick t
    let m := (s.members n).filter (fun q => !x.votes.any (fun v => v.1 = q.1 ∧ v.2.1 = q.2))
    (s.fab.stitches.find? (fun x => x.id.casement = n.val ∧ x.decided.isNone ∧
        (x.deadline.any (fun d => decide (d - s.goTravel n < s.count)))) = some x) ∧ (m ≠ []) :=
  ⟨0, { { fabricUp with fab := { fabricUp.fab with stitches := [{ stitch with deadline := some 0 }] } } with force := (oStitch 0 2, .num 256) :: fabricUp.force }, 0, { stitch with deadline := some 0 }, by decide⟩

theorem wit_goDeadline : ∃ (t : Time) (s0 : State) (n : Fin 48) (m : Mark),
    let s := s0.tick t
    ((s.casOf n).pend.find? (fun m => m.stitch.isSome ∧ m.vote.isSome) = some m) ∧ (s.role n = 2) ∧ (s.goPassed n m.s0 = true) :=
  ⟨0, { fabricUp with cas := [(0, { Cas.init with pend := [{ Mark.init with stitch := some ⟨1, 0, 1⟩, vote := some true }] })], force := (oStitch 0 1, .num 2) :: fabricUp.force }, 0, { Mark.init with stitch := some ⟨1, 0, 1⟩, vote := some true }, by decide⟩

theorem wit_go : ∃ (t : Time) (s0 : State) (p : Fin 4) (q : Nat) (id : MarkId),
    let s := s0.tick t
    let a := s.taken p q
    ((s.portOf p).up = true) ∧ (s.linkNew p q = true) ∧ (a.portStateOf p = 1) ∧ (id.node ≠ a.node) :=
  ⟨0, fabricUp, 0, 3, ⟨1, 0, 1⟩, by decide⟩

theorem wit_abort : ∃ (t : Time) (s0 : State) (p : Fin 4) (q : Nat) (id : MarkId),
    let s := s0.tick t
    let a := s.taken p q
    ((s.portOf p).up = true) ∧ (s.linkNew p q = true) ∧ (a.portStateOf p = 1) ∧ (id.node ≠ a.node) :=
  ⟨0, fabricUp, 0, 3, ⟨1, 0, 1⟩, by decide⟩

theorem wit_report_forward : ∃ (t : Time) (s0 : State) (p : Fin 4) (q : Nat) (id : MarkId) (src n : Nat) (fl : BitVec 32) (late : Nat),
    let s := s0.tick t
    let a := s.taken p q
    ((s.portOf p).up = true) ∧ (s.linkNew p q = true) ∧ (a.portStateOf p = 1) ∧ (id.node ≠ a.node) :=
  ⟨0, fabricUp, 0, 3, ⟨1, 0, 1⟩, 2, 0, 0, 0, by decide⟩

theorem wit_report : ∃ (t : Time) (s0 : State) (p : Fin 4) (q : Nat) (id : MarkId) (src n : Nat) (fl : BitVec 32) (late : Nat) (x : Stitch),
    let s := s0.tick t
    let a := s.taken p q
    ((s.portOf p).up = true) ∧ (s.linkNew p q = true) ∧ (a.portStateOf p = 1) ∧ (id.node = a.node) ∧ (a.stitchOf id = some x) :=
  ⟨0, { fabricUp with fab := { fabricUp.fab with stitches := [stitch] } }, 0, 3, ⟨0, 0, 1⟩, 1, 0, 0, 0, stitch, by decide⟩

theorem wit_reportMarginReached : ∃ (t : Time) (s0 : State) (n : Fin 48) (x : Stitch),
    let s := s0.tick t
    let r := s.nat (oCas n 0 0x0B)
    let q := s.laxPos (s.nat (oRej r 2)) t
    (s.fab.stitches.find? (fun x => x.id.casement = n.val ∧ !s.allReported n x.id) = some x) ∧ (r < 8) ∧ (0 ≤ sdiff q (wrapS 64 (x.a + s.num (oRej r 3) - s.num (oRej r 6)))) :=
  ⟨0, { { fabricUp with fab := { fabricUp.fab with stitches := [{ stitch with a := -40000000 }] } } with force := (oStitch 0 2, .num 256) :: fabricUp.force, obj := [(oCas 0 0 0x0B, .num 0)] }, 0, { stitch with a := -40000000 }, by decide⟩

theorem wit_pgChange_good : ∃ (t : Time) (s0 : State) (n : Fin 64) (v : Bool),
    let s := s0.tick t
    let u := s.setRail n { s.railOf n with pg := v }
    (u.railState n = 1) ∧ (u.pgGood n = true) :=
  ⟨0, withObj [(oRail 0 0x0A, .num 1), (oRail 0 4, .num 0)], 0, true, by decide⟩

theorem wit_pgChange : ∃ (t : Time) (s0 : State) (n : Fin 64) (v : Bool),
    let s := s0.tick t
    let u := s.setRail n { s.railOf n with pg := v }
    (u.railState n = 2) ∧ (u.pgGood n = false) :=
  ⟨0, withObj [(oRail 0 0x0A, .num 2), (oRail 0 4, .num 0)], 0, false, by decide⟩

theorem wit_pgTimeout : ∃ (t : Time) (s0 : State) (n : Fin 64),
    let s := s0.tick t
    let x := s.railOf n
    (s.railState n = 1) ∧ (x.timed = false) ∧ (x.due ≤ t) :=
  ⟨0, withObj [(oRail 0 0x0A, .num 1)], 0, by decide⟩

theorem wit_retryDelayExpiry : ∃ (t : Time) (s0 : State) (n : Fin 64),
    let s := s0.tick t
    (s.railState n = 3) ∧ ((s.railOf n).due ≤ t) :=
  ⟨0, withObj [(oRail 0 0x0A, .num 3)], 0, by decide⟩

theorem wit_retryCountReset : ∃ (t : Time) (s0 : State) (n : Fin 64),
    let s := s0.tick t
    let x := s.railOf n
    (s.railState n = 2) ∧ (x.goodT + secT 10 ≤ t) :=
  ⟨secT 10, withObj [(oRail 0 0x0A, .num 2)], 0, by decide⟩

theorem wit_end_ : ∃ (t : Time) (s0 : State) (x : Fin 49),
    let s := s0.tick t
    s.atOp x 0 = true :=
  ⟨0, lampAt 0x5, 0, by decide⟩

theorem wit_enable : ∃ (t : Time) (s0 : State) (x : Fin 49),
    let s := s0.tick t
    (s.atOp x 1 = true) ∧ (x.val = sysEx ∨ s.lamp.locked = false) :=
  ⟨0, lampAt 0x10000000, 0, by decide⟩

theorem wit_enable_locked : ∃ (t : Time) (s0 : State) (x : Fin 49),
    let s := s0.tick t
    (s.atOp x 1 = true) ∧ (x.val ≠ sysEx) ∧ (s.lamp.locked = true) :=
  ⟨0, { lampAt 0x10000000 with lamp := { State.reset.lamp with words := [(0, 0x10000000)] } }, 0, by decide⟩

theorem wit_disable : ∃ (t : Time) (s0 : State) (x : Fin 49),
    let s := s0.tick t
    s.atOp x 2 = true :=
  ⟨0, lampAt 0x20000000, 0, by decide⟩

theorem wit_wait : ∃ (t : Time) (s0 : State) (x : Fin 49),
    let s := s0.tick t
    (s.atOp x 3 = true) ∧ ((s.exOf x).stepT + usT (bits (s.stepWord x) 23 0) ≤ t) :=
  ⟨usT 5, lampAt 0x30000005, 0, by decide⟩

theorem wit_waitPg : ∃ (t : Time) (s0 : State) (x : Fin 49),
    let s := s0.tick t
    let w := s.stepWord x
    (s.atOp x 4 = true) ∧ ((s.named x w).all (s.showsLevel (bit w 25)) = true) :=
  ⟨0, lampAt 0x42000000, 0, by decide⟩

theorem wit_waitPg_timeout : ∃ (t : Time) (s0 : State) (x : Fin 49),
    let s := s0.tick t
    let w := s.stepWord x
    let e := s.exOf x
    let l := s.named x w
    (s.atOp x 4 = true) ∧ (l.all (s.showsLevel (bit w 25)) = false) ∧ (bit w 25 = false) ∧ (bits w 23 8 ≠ 0) ∧ (e.stepT + usT (100 * bits w 23 8) ≤ t) ∧ (e.expired = false) :=
  ⟨usT 100, lampAt 0x40000100, 0, by decide⟩

theorem wit_checkJump : ∃ (t : Time) (s0 : State) (x : Fin 49),
    let s := s0.tick t
    s.atOp x 5 = true :=
  ⟨0, lampAt 0x50000003, 0, by decide⟩

theorem wit_syncStep_alone : ∃ (t : Time) (s0 : State) (x : Fin 49),
    let s := s0.tick t
    (s.atOp x 6 = true) ∧ (s.lsyncOn = false) :=
  ⟨0, lampAt 0x60000003, 0, by decide⟩

theorem wit_syncStep_reached : ∃ (t : Time) (s0 : State) (x : Fin 49),
    let s := s0.tick t
    let n := bits (s.stepWord x) 7 0
    (s.atOp x 6 = true) ∧ (s.lsyncOn = true) ∧ (n ≤ s.nat (ky 0x2143 2)) :=
  ⟨0, { lampAt 0x60000000 with force := [(ky 0x2143 1, .num 1)] }, 0, by decide⟩

theorem wit_syncStep_skip : ∃ (t : Time) (s0 : State) (x : Fin 49),
    let s := s0.tick t
    let n := bits (s.stepWord x) 7 0
    (s.atOp x 6 = true) ∧ (s.lsyncOn = true) ∧ (s.nat (ky 0x2143 2) + 1 < n) :=
  ⟨0, { lampAt 0x60000003 with force := [(ky 0x2143 1, .num 1)] }, 0, by decide⟩

theorem wit_syncStep : ∃ (t : Time) (s0 : State) (x : Fin 49),
    let s := s0.tick t
    let w := s.stepWord x
    let e := s.exOf x
    (s.atOp x 6 = true) ∧ (s.lsyncOn = true) ∧ (bits w 7 0 = s.nat (ky 0x2143 2) + 1) ∧ (e.released = false) ∧ (s.lamp.qualT = none) :=
  ⟨0, { lampAt 0x60000001 with force := [(ky 0x2143 1, .num 1)] }, 0, by decide⟩

theorem wit_lsyncQualify : ∃ (t : Time) (s0 : State) (x : Nat),
    let s := s0.tick t
    s.syncing = some x :=
  ⟨0, { lampAt 0x60000001 with lamp := { (lampAt 0x60000001).lamp with ex := [(0, { Exec.init with released := true })] } }, 0, by decide⟩

theorem wit_lsyncRedrive : ∃ (t : Time) (s0 : State) (q : Time),
    let s := s0.tick t
    (s.lamp.qualT = some q) ∧ (q + usT 8 ≤ t) :=
  ⟨usT 8, { State.reset with lamp := { State.reset.lamp with qualT := some 0 } }, 0, by decide⟩

theorem wit_syncTimeout : ∃ (t : Time) (s0 : State) (x : Fin 49),
    let s := s0.tick t
    let e := s.exOf x
    (s.exBusy x = true) ∧ (e.released = true) ∧ (e.due ≤ t) :=
  ⟨0, { lampAt 0x60000001 with lamp := { (lampAt 0x60000001).lamp with ex := [(0, { Exec.init with released := true })] } }, 0, by decide⟩

theorem wit_contention : ∃ (t : Time) (s0 : State),
    let s := s0.tick t
    (s.lsyncOn = true) ∧ (s.lamp.lsyncLow = true) ∧ (1 < s.modeN) :=
  ⟨0, { inMode 3 [] with force := [(ky 0x2143 1, .num 1)] }, by decide⟩

theorem wit_programTimeLimit : ∃ (t : Time) (s0 : State) (x : Fin 49),
    let s := s0.tick t
    let e := s.exOf x
    (s.exBusy x = true) ∧ (e.entry ≠ 2) ∧ (e.startT + secT e.limit ≤ t) :=
  ⟨secT 60, lampAt 0, 0, by decide⟩

theorem wit_shutdownTimeLimit : ∃ (t : Time) (s0 : State),
    let s := s0.tick t
    let e := s.exOf sysEx
    (s.exBusy sysEx = true) ∧ (e.entry = 2) ∧ (e.startT + msT e.limit ≤ t) :=
  ⟨msT 5, { withObj [(exKey sysEx 1, .num 1)] with lamp := { State.reset.lamp with ex := [(sysEx, { Exec.init with entry := 2, limit := 5 })] } }, by decide⟩

theorem wit_pressed : ∃ (t : Time) (s0 : State),
    let s := s0.tick t
    s.modeN ≠ 0 :=
  ⟨0, inMode 3 [], by decide⟩

theorem wit_short : ∃ (t : Time) (s0 : State) (p : Time),
    let s := s0.tick t
    (s.lamp.pressT = some p) ∧ (s.lamp.forced = false) ∧ (t < p + secT s.lamp.longS) :=
  ⟨0, { State.reset with lamp := { State.reset.lamp with pressT := some 0 } }, 0, by decide⟩

theorem wit_forceOff : ∃ (t : Time) (s0 : State) (p : Time),
    let s := s0.tick t
    (s.lamp.pressT = some p) ∧ (s.lamp.forced = false) ∧ (p + secT s.lamp.longS ≤ t) :=
  ⟨secT 100, { State.reset with lamp := { State.reset.lamp with pressT := some 0 } }, 0, by decide⟩

theorem wit_manualReset : ∃ (t : Time) (s0 : State),
    let s := s0.tick t
    (s.modeN ≠ 0) ∧ (s.lamp.mr = false) :=
  ⟨0, inMode 3 [], by decide⟩

theorem wit_programStart : ∃ (t : Time) (s0 : State) (p : Path) (v : Nat),
    let s := s0.tick t
    (s.serves p = true) ∧ (s.modeN ≤ 6) ∧ (v ≤ 2 ∨ (6 ≤ v ∧ v ≤ 15)) ∧ (s.startCheck v = none) :=
  ⟨0, inMode 3 [], .mailbox, 0, by decide⟩

theorem wit_storeCommit : ∃ (t : Time) (s0 : State) (p : Path),
    let s := s0.tick t
    (s.serves p = true) ∧ (s.modeN = 2 ∨ s.modeN = 3 ∨ s.modeN = 6) ∧ (s.anyExec = false) :=
  ⟨0, inMode 3 [], .mailbox, by decide⟩

theorem wit_otpRead : ∃ (t : Time) (s0 : State),
    let s := s0.tick t
    s.modeN ≠ 0 :=
  ⟨0, inMode 3 [], by decide⟩

theorem wit_otpMarginRead : ∃ (t : Time) (s0 : State) (w : BitVec 39),
    let s := s0.tick t
    s.modeN ≠ 0 :=
  ⟨0, inMode 3 [], 0, by decide⟩

theorem wit_otpProgram : ∃ (t : Time) (s0 : State) (p : Path),
    let s := s0.tick t
    (s.serves p = true) ∧ (s.modeN = 2) ∧ (s.otpProgramCheck = none) :=
  ⟨0, inMode 2 [(ky 0x2621 1, .num 0x200), (ky 0x2200 8, .num 25)], .mailbox, by decide⟩

theorem wit_otpProgramDone : ∃ (t : Time) (s0 : State) (w : Bool) (j : OtpJob),
    let s := s0.tick t
    let r := s.otpBurn j.row j.value w
    (s.otp.job = some j) ∧ (j.rest = [] ∨ r.1 ≠ 0) :=
  ⟨0, { inMode 2 [] with otp := { State.reset.otp with job := some ⟨0x200, 1, 0, []⟩ } }, false, ⟨0x200, 1, 0, []⟩, by decide⟩

theorem wit_otpProgramDone_next : ∃ (t : Time) (s0 : State) (w : Bool) (j : OtpJob) (q v : Nat) (l : List (Nat × Nat)),
    let s := s0.tick t
    let r := s.otpBurn j.row j.value w
    (s.otp.job = some j) ∧ (j.rest = (q, v) :: l) ∧ (r.1 = 0) :=
  ⟨0, { inMode 2 [] with otp := { State.reset.otp with job := some ⟨0x200, 1, 0, [(0x201, 2)]⟩ } }, false, ⟨0x200, 1, 0, [(0x201, 2)]⟩, 0x201, 2, [], by decide⟩

theorem wit_lifecycleAdvance : ∃ (t : Time) (s0 : State) (p : Path),
    let s := s0.tick t
    (s.serves p = true) ∧ (s.modeN = 2) ∧ (s.lifecycleCheck = none) :=
  ⟨0, inMode 2 [(ky 0x2622 1, .num 1), (ky 0x2200 8, .num 25)], .mailbox, by decide⟩

theorem wit_setRestrict : ∃ (t : Time) (s0 : State) (p : Path),
    let s := s0.tick t
    (s.serves p = true) ∧ (s.modeN = 2) ∧ (s.otpSysCheck = none) :=
  ⟨0, inMode 2 [(ky 0x2200 8, .num 25)], .mailbox, by decide⟩

theorem wit_setDebugLock : ∃ (t : Time) (s0 : State) (p : Path),
    let s := s0.tick t
    (s.serves p = true) ∧ (s.modeN = 2) ∧ (s.otpSysCheck = none) :=
  ⟨0, inMode 2 [(ky 0x2200 8, .num 25)], .mailbox, by decide⟩

theorem wit_revokeFirmwareKey : ∃ (t : Time) (s0 : State) (p : Path) (k : Nat),
    let s := s0.tick t
    (s.serves p = true) ∧ (s.modeN = 2) ∧ (k ≤ 3) ∧ (s.revokeKeyCheck k = none) :=
  ⟨0, inMode 2 [(ky 0x2200 8, .num 25)], .mailbox, 3, by decide⟩

theorem wit_advanceSecurityCounter : ∃ (t : Time) (s0 : State) (p : Path) (v : Nat),
    let s := s0.tick t
    (s.serves p = true) ∧ (s.modeN ≤ 3) ∧ (1 ≤ v) ∧ (v ≤ 64) ∧ (s.securityCheck v = none) :=
  ⟨0, { inMode 2 [(ky 0x2200 8, .num 25)] with otp := { State.reset.otp with image := some ⟨0, 1, 5, 0, true, 0⟩ } }, .mailbox, 3, by decide⟩

theorem wit_updateExecute : ∃ (t : Time) (s0 : State) (p : Path),
    let s := s0.tick t
    (s.serves p = true) ∧ (s.modeN ≤ 6) ∧ (s.updateCheck = none) :=
  ⟨0, inMode 3 [], .mailbox, by decide⟩

theorem wit_updateDone_failed : ∃ (t : Time) (s0 : State) (a n : Nat),
    let s := s0.tick t
    s.otp.updating = some (a, n) :=
  ⟨0, { inMode 3 [] with otp := { State.reset.otp with updating := some (0, 0) } }, 0, 0, by decide⟩

theorem wit_updateDone : ∃ (t : Time) (s0 : State) (a n : Nat),
    let s := s0.tick t
    s.otp.updating = some (a, n) :=
  ⟨0, { inMode 3 [] with otp := { State.reset.otp with updating := some (0, 0) } }, 0, 0, by decide⟩

theorem wit_activate : ∃ (t : Time) (s0 : State) (p : Path),
    let s := s0.tick t
    (s.serves p = true) ∧ (s.modeN ≤ 6) ∧ (s.otp.updating = none) ∧ (s.nat (ky 0x2625 4) = 0) :=
  ⟨0, inMode 3 [], .mailbox, by decide⟩

theorem wit_confirmed : ∃ (t : Time) (s0 : State) (i : Image),
    let s := s0.tick t
    (s.otp.image = some i) ∧ (1 < s.modeN) ∧ (i.confirmed = false) ∧ (s.net.restarting = false) ∧ (s.flt.clusterHeld = false) ∧ (i.slot < 3) ∧ (i.startT + secT 10 ≤ t) :=
  ⟨secT 10, { inMode 3 [] with otp := { State.reset.otp with image := some ⟨0, 1, 5, 0, false, 0⟩ } }, ⟨0, 1, 5, 0, false, 0⟩, by decide⟩

theorem wit_hostBootLoad : ∃ (t : Time) (s0 : State) (n : BitVec 32),
    let s := s0.tick t
    (s.modeN ≠ 0) ∧ (s.otp.hostBoot = true) :=
  ⟨0, { inMode 1 [] with otp := { State.reset.otp with hostBoot := true } }, 0, by decide⟩

theorem wit_sourceKindWrite : ∃ (t : Time) (s0 : State) (p : Path) (k : Fin 32) (v : Nat),
    let s := s0.tick t
    (s.serves p = true) ∧ (s.modeN ≤ 6) ∧ (v ≤ 4) ∧ (sourceFits v (s.nat (oLax k 2)) = true) :=
  ⟨0, inMode 3 [], .mailbox, 0, 1, by decide⟩

theorem wit_plsRatioWrite_L : ∃ (t : Time) (s0 : State) (p : Path) (n : Fin 8) (v : Nat),
    let s := s0.tick t
    (s.serves p = true) ∧ (s.modeN ≤ 5) ∧ (1 ≤ v) ∧ (v ≤ s.nat (oPls n 3)) ∧ (v ≤ 65535) :=
  ⟨0, inMode 3 [], .mailbox, 0, 1, by decide⟩

theorem wit_plsRatioWrite : ∃ (t : Time) (s0 : State) (p : Path) (n : Fin 8) (v : Nat),
    let s := s0.tick t
    (s.serves p = true) ∧ (s.modeN ≤ 5) ∧ (1 ≤ v) ∧ (s.nat (oPls n 2) ≤ v) ∧ (v ≤ 65535) :=
  ⟨0, inMode 3 [], .mailbox, 0, 7, by decide⟩

theorem wit_timeWriteStaged : ∃ (t : Time) (s0 : State) (p : Path),
    let s := s0.tick t
    (s.serves p = true) ∧ (s.modeN ≤ 6) ∧ (s.timeWriteCheck = none) :=
  ⟨0, inMode 3 [(ky 0x2301 1, .num 1800000000)], .mailbox, by decide⟩

theorem wit_timeWriteImmediate : ∃ (t : Time) (s0 : State) (p : Path),
    let s := s0.tick t
    (s.serves p = true) ∧ (s.modeN ≤ 6) ∧ (s.timeWriteCheck = none) :=
  ⟨0, inMode 3 [(ky 0x2301 1, .num 1800000000)], .mailbox, by decide⟩

theorem wit_tallyWrite : ∃ (t : Time) (s0 : State) (p : Path) (n : Fin 256) (v : Nat),
    let s := s0.tick t
    (s.serves p = true) ∧ (s.modeN ≤ 6) ∧ (v ≤ s.talLimit n) ∧ (v < 2 ^ 64) :=
  ⟨0, inMode 3 [], .mailbox, 0, 3, by decide⟩

theorem wit_requestConfigure : ∃ (t : Time) (s0 : State) (p : Path),
    let s := s0.tick t
    (s.serves p = true) ∧ (s.modeN ≤ 6) :=
  ⟨0, inMode 3 [], .mailbox, by decide⟩

theorem wit_requestStandby : ∃ (t : Time) (s0 : State) (p : Path),
    let s := s0.tick t
    (s.serves p = true) ∧ (s.modeN ≤ 7) :=
  ⟨0, inMode 7 [], .mailbox, by decide⟩

theorem wit_requestReady : ∃ (t : Time) (s0 : State) (p : Path),
    let s := s0.tick t
    (s.serves p = true) ∧ (s.modeN ≤ 6) :=
  ⟨0, inMode 3 [], .mailbox, by decide⟩

theorem wit_requestMarking : ∃ (t : Time) (s0 : State) (p : Path),
    let s := s0.tick t
    (s.serves p = true) ∧ (s.modeN ≤ 6) :=
  ⟨0, inMode 4 [], .mailbox, by decide⟩

theorem wit_requestService : ∃ (t : Time) (s0 : State) (p : Path),
    let s := s0.tick t
    (s.serves p = true) ∧ (s.modeN ≤ 6) :=
  ⟨0, inMode 4 [], .mailbox, by decide⟩

theorem wit_requestSafe : ∃ (t : Time) (s0 : State) (p : Path),
    let s := s0.tick t
    (s.serves p = true) ∧ (s.modeN ≤ 6) :=
  ⟨0, inMode 4 [], .mailbox, by decide⟩

theorem wit_mode_busy : ∃ (s : State) (m : Nat), m ≠ s.modeN ∧ m ≠ 7 ∧ ¬(s.modeN = 2 ∧ s.restricted = true) ∧ s.mode.trans.isSome = true :=
  ⟨{ inMode 4 [] with mode := { State.reset.mode with trans := some 3 } }, 5, by decide⟩

theorem wit_mode_safe : ∃ s : State, 2 ≤ s.modeN ∧ s.modeN ≤ 6 ∧ ¬(s.modeN = 2 ∧ s.restricted = true) := ⟨inMode 2 [], by decide⟩

theorem wit_mode_restricted : ∃ (s : State) (m : Nat), m ≠ 2 ∧ s.modeN = 2 ∧ s.restricted = true :=
  ⟨inMode 2 [(ky 0x2620 2, .num 1), (ky 0x2620 3, .num 1)], 7, by decide⟩

theorem wit_mode_noTransition : ∃ (s : State) (m : Nat), s.mode.trans = none ∧ m ≠ s.modeN ∧ ¬(s.modeN = 2 ∧ s.restricted = true) ∧
    (s.modeN, m) ∈ [(2, 4), (2, 5), (2, 6), (3, 5), (4, 2), (5, 2), (5, 3), (5, 6), (6, 2), (6, 5), (7, 2), (7, 4), (7, 5), (7, 6)] :=
  ⟨inMode 7 [], 6, by decide⟩

theorem wit_mode_ready : ∃ s : State, s.mode.trans = none ∧ (s.modeN = 3 ∨ s.modeN = 6) := ⟨inMode 6 [], by decide⟩

theorem wit_mode_marking : ∃ s : State, s.mode.trans = none ∧ s.modeN = 4 := ⟨inMode 4 [], by decide⟩

theorem wit_mode_fromMarking : ∃ s : State, s.mode.trans = none ∧ s.modeN = 5 := ⟨inMode 5 [], by decide⟩

theorem wit_mode_refused : ∃ (s : State) (m : Nat), (s.modeAsk m).1 ≠ 0 ∧ (s.modeAsk m).1 ≠ 0xFF := ⟨inMode 3 [], 5, by decide⟩

theorem wit_modeTransitionComplete : ∃ (t : Time) (s0 : State),
    let s := s0.tick t
    (s.mode.trans = some 3) ∧ (s.quiet = true) :=
  ⟨0, { inMode 4 [] with mode := { State.reset.mode with trans := some 3 } }, by decide⟩

theorem wit_modeTransitionComplete_configure : ∃ (t : Time) (s0 : State),
    let s := s0.tick t
    (s.mode.trans = some 2) ∧ (s.exBusy sysEx = false) :=
  ⟨0, { inMode 3 [] with mode := { State.reset.mode with trans := some 2 } }, by decide⟩

theorem wit_porstRelease : ∃ (t : Time) (s0 : State) (straps : BitVec 3),
    let s := s0.tick t
    s.mode.porstLow = true :=
  ⟨0, { State.reset with mode := { State.reset.mode with porstLow := true } }, 0, by decide⟩

theorem wit_resetHoldEnd : ∃ (t : Time) (s0 : State) (cause : Nat) (z : Time),
    let s := s0.tick t
    (s.mode.resetHold = some (cause, z)) ∧ (z + usT 100 ≤ t) :=
  ⟨usT 100, { State.reset with mode := { State.reset.mode with resetHold := some (4, 0) } }, 4, 0, by decide⟩

theorem wit_startupStandbyRequest : ∃ (t : Time) (s0 : State) (g : Nat),
    let s := s0.tick t
    let r := s.modeAsk 3
    (s.mode.startup = some g) ∧ (s.modeN = 2) ∧ (r.1 = 0) ∧ (g ≠ 4) :=
  ⟨0, { inMode 2 [] with mode := { State.reset.mode with startup := some 3 } }, 3, by decide⟩

theorem wit_deviceResetCommand : ∃ (t : Time) (s0 : State) (p : Path),
    let s := s0.tick t
    (s.serves p = true) ∧ (s.modeN ≤ 7) :=
  ⟨0, inMode 7 [], .mailbox, by decide⟩

theorem wit_firmwareRestartCommand : ∃ (t : Time) (s0 : State) (p : Path),
    let s := s0.tick t
    (s.serves p = true) ∧ (s.modeN ≤ 7) ∧ (s.otp.updating = none) :=
  ⟨0, inMode 7 [], .mailbox, by decide⟩

theorem wit_restartEnd : ∃ (t : Time) (s0 : State),
    let s := s0.tick t
    (s.net.restarting = true) ∧ (s.flt.clusterHeld = false) :=
  ⟨0, { inMode 3 [] with net := { State.reset.net with restarting := true } }, by decide⟩

theorem wit_faultOccurrence : ∃ (t : Time) (s0 : State) (b : Fin 64) (cause k dt : Nat),
    let s := s0.tick t
    s.modeN ≠ 0 :=
  ⟨0, inMode 3 [], 20, 1, 0, 0, by decide⟩

theorem wit_faultClear_bar0 : ∃ (t : Time) (s0 : State) (mask : BitVec 64),
    let s := s0.tick t
    s.modeN ≠ 0 :=
  ⟨0, inMode 3 [], 5, by decide⟩

theorem wit_faultClear : ∃ (t : Time) (s0 : State) (p : Path) (mask : BitVec 64),
    let s := s0.tick t
    (s.serves p = true) ∧ (s.modeN ≤ 7) :=
  ⟨0, inMode 7 [], .mailbox, 5, by decide⟩

theorem wit_fswLoRead : ∃ (t : Time) (s0 : State),
    let s := s0.tick t
    s.modeN ≠ 0 :=
  ⟨0, inMode 3 [], by decide⟩

theorem wit_fswLoRead_live : ∃ (t : Time) (s0 : State),
    let s := s0.tick t
    s.modeN ≠ 0 :=
  ⟨0, inMode 3 [], by decide⟩

theorem wit_watchdog : ∃ (t : Time) (s0 : State) (code : Nat),
    let s := s0.tick t
    (1 < s.modeN) ∧ (s.flt.clusterHeld = false) ∧ (s.flt.wdogT + msT s.flt.wdogMs ≤ t) :=
  ⟨secT 1000, inMode 3 [], 7, by decide⟩

theorem wit_watchdogRestartStart : ∃ (t : Time) (s0 : State),
    let s := s0.tick t
    (s.flt.clusterHeld = true) ∧ (s.exBusy sysEx = false) :=
  ⟨0, { inMode 7 [] with flt := { State.reset.flt with clusterHeld := true } }, by decide⟩

theorem wit_lockstepMismatch : ∃ (t : Time) (s0 : State) (group : Nat),
    let s := s0.tick t
    s.modeN ≠ 0 :=
  ⟨0, inMode 3 [], 2, by decide⟩

theorem wit_dieTemperatureMeasure_over : ∃ (t : Time) (s0 : State) (v : Int),
    let s := s0.tick t
    (s.modeN ≠ 0) ∧ (elapsed s.flt.tempT (msT 1) t = true) ∧ (s.num (ky 0x2200 7) < wrapS 16 v) :=
  ⟨0, inMode 3 [], 130, by decide⟩

theorem wit_dieTemperatureMeasure : ∃ (t : Time) (s0 : State) (v : Int),
    let s := s0.tick t
    (s.modeN ≠ 0) ∧ (elapsed s.flt.tempT (msT 1) t = true) ∧ (wrapS 16 v ≤ s.num (ky 0x2200 7) - 5) :=
  ⟨0, inMode 3 [], 40, by decide⟩

theorem wit_dieTemperatureMeasure_between : ∃ (t : Time) (s0 : State) (v : Int),
    let s := s0.tick t
    (s.modeN ≠ 0) ∧ (elapsed s.flt.tempT (msT 1) t = true) ∧ (wrapS 16 v ≤ s.num (ky 0x2200 7)) ∧ (s.num (ky 0x2200 7) - 5 < wrapS 16 v) :=
  ⟨0, inMode 3 [], 113, by decide⟩

theorem wit_referenceLost : ∃ (t : Time) (s0 : State) (i : Fin 2),
    let s := s0.tick t
    s.modeN ≠ 0 :=
  ⟨0, inMode 3 [], 1, by decide⟩

theorem wit_referenceLost_xtal : ∃ (t : Time) (s0 : State),
    let s := s0.tick t
    s.modeN ≠ 0 :=
  ⟨0, inMode 3 [], by decide⟩

theorem wit_injectionExecute : ∃ (t : Time) (s0 : State) (p : Path),
    let s := s0.tick t
    (s.serves p = true) ∧ (s.modeN = 2 ∨ s.modeN = 3 ∨ s.modeN = 6) ∧ (s.injectCheck = none) :=
  ⟨0, inMode 2 [(ky 0x2260 1, .num 55)], .mailbox, by decide⟩

theorem wit_injectionRewrite : ∃ (t : Time) (s0 : State) (b i dt k : Nat),
    let s := s0.tick t
    s.flt.arm = some (b, i, dt, k) :=
  ⟨0, { inMode 3 [] with flt := { State.reset.flt with arm := some (39, 0, 0, 2) } }, 39, 0, 0, 2, by decide⟩

theorem wit_safeHeartbeat : ∃ (t : Time) (s0 : State),
    let s := s0.tick t
    (s.frcN (ky 0x2200 6) = 1) ∧ (s.flt.safeA = true ∨ s.flt.safeB = true) ∧ (s.flt.beatT + usT 50 ≤ t) :=
  ⟨usT 50, { inMode 3 [] with force := [(ky 0x2200 6, .num 1)], flt := { State.reset.flt with safeA := true } }, by decide⟩

theorem wit_storeSave : ∃ (t : Time) (s0 : State) (p : Path),
    let s := s0.tick t
    (s.serves p = true) ∧ (s.modeN ≤ 6) ∧ (s.saveCheck = none) :=
  ⟨0, inMode 3 [], .mailbox, by decide⟩

theorem wit_storeRestore : ∃ (t : Time) (s0 : State) (p : Path),
    let s := s0.tick t
    (s.serves p = true) ∧ (s.modeN ≤ 6) :=
  ⟨0, inMode 3 [], .mailbox, by decide⟩

theorem wit_storeSaveDone : ∃ (t : Time) (s0 : State) (b : Bank),
    let s := s0.tick t
    s.store.saving = some (b, false) :=
  ⟨0, { inMode 3 [] with store := { State.reset.store with saving := some (State.reset.nextBank, false) } }, State.reset.nextBank, by decide⟩

theorem wit_storeSaveDone_auto : ∃ (t : Time) (s0 : State) (b : Bank),
    let s := s0.tick t
    s.store.saving = some (b, true) :=
  ⟨0, { inMode 3 [] with store := { State.reset.store with saving := some (State.reset.nextBank, true) } }, State.reset.nextBank, by decide⟩

theorem wit_autoSave : ∃ (t : Time) (s0 : State) (l : Time),
    let s := s0.tick t
    (1 < s.modeN) ∧ (s.deaf = false) ∧ (s.store.autoOwed = true) ∧ (s.store.saving = none) ∧ (s.store.lastAuto = some l) ∧ (l + secT 1 ≤ t) :=
  ⟨secT 1, { inMode 3 [] with store := { State.reset.store with autoOwed := true, lastAuto := some 0 } }, 0, by decide⟩

theorem wit_usdoRequest : ∃ (t : Time) (s0 : State) (i : Fin 2) (idx : BitVec 16) (sub : BitVec 8) (b : Bytes) (r : Nat × Nat × Row × Val),
    let s := s0.tick t
    let v := s.writeVal (ky idx.toNat sub.toNat) r.2.2.1 r.2.2.2
    (s.serves (.usdo i) = true) ∧ (s.writeParse idx.toNat sub.toNat b = .ok r) ∧ (v.relCheck r.1 r.2.1 sub.toNat r.2.2.2 b = none) :=
  ⟨0, { inMode 3 [] with net := { State.reset.net with can := [(0, { Can.init with nmt := 5 })] } }, 0, 0x2700, 5, [7], (0x2700, 0, ⟨5, 1, .uns 1, 7, false, 255, .orv 0 31 255, .imm⟩, .num 7), by decide⟩

theorem wit_usdoRequest_read : ∃ (t : Time) (s0 : State) (i : Fin 2) (idx : BitVec 16) (sub : BitVec 8) (x : Bytes),
    let s := s0.tick t
    (s.serves (.usdo i) = true) ∧ (s.dictRead idx.toNat sub.toNat = .ok x) :=
  ⟨0, { inMode 3 [] with net := { State.reset.net with can := [(0, { Can.init with nmt := 5 })] } }, 0, 0x2100, 2, [3], by decide⟩

theorem wit_rpdoReceive : ∃ (t : Time) (s0 : State) (i : Fin 2) (n : Fin 16) (data : Bytes),
    let s := s0.tick t
    let g := s.groupWrite (.usdo i) (pdoWrites (s.pdoMap 0x1600 n) data)
    (s.pdoServed false i n = true) ∧ (s.deaf = false) ∧ (240 < s.nat (ky (0x1400 + n) 2)) ∧ (g.2.all Option.isNone = true) :=
  ⟨0, { inMode 5 [(ky 0x1400 1, .num 0x201), (ky 0x1400 2, .num 254), (ky 0x1600 0, .num 1), (ky 0x1600 1, .num 0x27000A40)] with net := { State.reset.net with can := [(0, { Can.init with nmt := 5 })] } }, 0, 0, [5, 0, 0, 0, 0, 0, 0, 0], by decide⟩

theorem wit_rpdoReceive_sync : ∃ (t : Time) (s0 : State) (i : Fin 2) (n : Fin 16) (data : Bytes),
    let s := s0.tick t
    (s.pdoServed false i n = true) ∧ (s.deaf = false) ∧ (s.nat (ky (0x1400 + n) 2) ≤ 240) ∧ ((s.groupWrite (.usdo i) (pdoWrites (s.pdoMap 0x1600 n) data)).2.all Option.isNone = true) :=
  ⟨0, { inMode 5 [(ky 0x1400 1, .num 0x201), (ky 0x1400 2, .num 1), (ky 0x1600 0, .num 1), (ky 0x1600 1, .num 0x27000A40)] with net := { State.reset.net with can := [(0, { Can.init with nmt := 5 })] } }, 0, 0, [5, 0, 0, 0, 0, 0, 0, 0], by decide⟩

theorem wit_tpdoTransmit : ∃ (t : Time) (s0 : State) (i : Fin 2) (n : Fin 16),
    let s := s0.tick t
    let x := s.canOf i
    (s.pdoServed true i n = true) ∧ (240 < s.nat (ky (0x1800 + n) 2)) ∧ (tget (fun _ => 0) x.tpdoLast n + usT (100 * s.nat (ky (0x1800 + n) 3)) ≤ t) :=
  ⟨secT 1, { inMode 5 [(ky 0x1800 1, .num 0x181), (ky 0x1800 2, .num 254), (ky 0x1800 3, .num 10)] with net := { State.reset.net with can := [(0, { Can.init with nmt := 5 })] } }, 0, 0, by decide⟩

theorem wit_tpdoTransmit_sync : ∃ (t : Time) (s0 : State) (i : Fin 2) (n : Fin 16),
    let s := s0.tick t
    (s.pdoServed true i n = true) ∧ (s.nat (ky (0x1800 + n) 2) = 0) :=
  ⟨0, { inMode 5 [(ky 0x1800 1, .num 0x181), (ky 0x1800 2, .num 0)] with net := { State.reset.net with can := [(0, { Can.init with nmt := 5 })] } }, 0, 0, by decide⟩

theorem wit_syncReceive : ∃ (t : Time) (s0 : State) (i : Fin 2) (k : Nat),
    let s := s0.tick t
    (s.canUp i = true) ∧ ((s.canOf i).nmt = 5) :=
  ⟨0, { inMode 5 [] with net := { State.reset.net with can := [(0, { Can.init with nmt := 5 })] } }, 0, 4, by decide⟩

theorem wit_syncProduce : ∃ (t : Time) (s0 : State) (i : Fin 2),
    let s := s0.tick t
    let x := s.canOf i
    (s.canUp i = true) ∧ (x.nmt ≠ 4) ∧ (bit (s.nat (ky 0x1005 0)) 30 = true) ∧ (s.nat (ky 0x1006 0) ≠ 0) ∧ (elapsed x.syncT (usT (s.nat (ky 0x1006 0))) t = true) :=
  ⟨0, { inMode 5 [(ky 0x1005 0, .num 0x40000080), (ky 0x1006 0, .num 1000)] with net := { State.reset.net with can := [(0, { Can.init with nmt := 5 })] } }, 0, by decide⟩

theorem wit_heartbeatTimeout : ∃ (t : Time) (s0 : State) (i : Fin 2) (slot : Fin 8),
    let s := s0.tick t
    let e := s.nat (ky 0x1016 (slot + 1))
    (s.canUp i = true) ∧ (e % 65536 ≠ 0) ∧ (bits e 22 16 ≠ 0) :=
  ⟨0, { inMode 5 [(ky 0x1016 1, .num 0x50064)] with net := { State.reset.net with can := [(0, { Can.init with nmt := 5 })] } }, 0, 0, by decide⟩

theorem wit_heartbeatProduce : ∃ (t : Time) (s0 : State) (i : Fin 2),
    let s := s0.tick t
    let x := s.canOf i
    (s.canUp i = true) ∧ (s.nat (ky 0x1017 0) ≠ 0) ∧ (elapsed x.hbT (msT (s.nat (ky 0x1017 0))) t = true) :=
  ⟨0, { inMode 5 [(ky 0x1017 0, .num 500)] with net := { State.reset.net with can := [(0, { Can.init with nmt := 5 })] } }, 0, by decide⟩

theorem wit_emcyInhibitExpiry : ∃ (t : Time) (s0 : State) (i : Fin 2) (e : Nat × Bytes) (l : List (Nat × Bytes)),
    let s := s0.tick t
    let x := s.canOf i
    (x.emcyWait = e :: l) ∧ (s.canUp i = true) ∧ (x.nmt ≠ 4) ∧ (x.inhibitEnd ≤ s.now) :=
  ⟨0, { inMode 5 [] with net := { State.reset.net with can := [(0, { Can.init with nmt := 5 , emcyWait := [(0xFF10, [])]})] } }, 0, (0xFF10, []), [], by decide⟩

theorem wit_nmtStartRemoteNode : ∃ (t : Time) (s0 : State) (i : Fin 2),
    let s := s0.tick t
    (s.canUp i = true) ∧ (s.deaf = false) :=
  ⟨0, { inMode 3 [] with net := { State.reset.net with can := [(0, { Can.init with nmt := 5 })] } }, 0, by decide⟩

theorem wit_nmtEnterPreoperational : ∃ (t : Time) (s0 : State) (i : Fin 2),
    let s := s0.tick t
    (s.canUp i = true) ∧ (s.deaf = false) ∧ (s.modeN ≠ 7) :=
  ⟨0, { inMode 4 [] with net := { State.reset.net with can := [(0, { Can.init with nmt := 5 })] } }, 0, by decide⟩

theorem wit_nmtEnterPreoperational_safe : ∃ (t : Time) (s0 : State) (i : Fin 2),
    let s := s0.tick t
    (s.canUp i = true) ∧ (s.deaf = false) ∧ (s.modeN = 7) :=
  ⟨0, { inMode 7 [] with net := { State.reset.net with can := [(0, { Can.init with nmt := 5 })] } }, 0, by decide⟩

theorem wit_nmtStopRemoteNode : ∃ (t : Time) (s0 : State) (i : Fin 2),
    let s := s0.tick t
    (s.canUp i = true) ∧ (s.deaf = false) :=
  ⟨0, { inMode 5 [(ky 0x2062 1, .num 1)] with net := { State.reset.net with can := [(0, { Can.init with nmt := 5 })] } }, 0, by decide⟩

theorem wit_nmtResetCommunication : ∃ (t : Time) (s0 : State) (i : Fin 2),
    let s := s0.tick t
    (s.canUp i = true) ∧ (s.deaf = false) :=
  ⟨0, { inMode 5 [] with net := { State.reset.net with can := [(0, { Can.init with nmt := 5 })] } }, 0, by decide⟩

theorem wit_nmtResetNode : ∃ (t : Time) (s0 : State) (i : Fin 2),
    let s := s0.tick t
    (s.canUp i = true) ∧ (s.deaf = false) :=
  ⟨0, { inMode 5 [] with net := { State.reset.net with can := [(0, { Can.init with nmt := 5 })] } }, 0, by decide⟩

theorem wit_busOff : ∃ (t : Time) (s0 : State) (i : Fin 2),
    let s := s0.tick t
    s.canUp i = true :=
  ⟨0, { inMode 5 [] with net := { State.reset.net with can := [(0, { Can.init with nmt := 5 })] } }, 0, by decide⟩

theorem wit_busOffRecovery : ∃ (t : Time) (s0 : State) (i : Fin 2),
    let s := s0.tick t
    s.nat (ky (0x2060 + i) 6) = 2 :=
  ⟨0, { inMode 5 [(ky 0x2060 6, .num 2)] with net := { State.reset.net with can := [(0, { Can.init with nmt := 5 })] } }, 0, by decide⟩

theorem wit_errorPassive : ∃ (t : Time) (s0 : State) (i : Fin 2) (v : Bool),
    let s := s0.tick t
    (s.canUp i = true) ∧ (s.nat (ky (0x2060 + i) 6) ≠ b2n v) :=
  ⟨0, { inMode 5 [] with net := { State.reset.net with can := [(0, { Can.init with nmt := 5 })] } }, 0, true, by decide⟩

theorem wit_ethernetLinkUp : ∃ (t : Time) (s0 : State) (m : Fin 2) (speed : Nat),
    let s := s0.tick t
    let cfg := s.frcN (ky (0x2068 + m) 2)
    let v := if cfg = 0 then speed else cfg
    (s.frcN (ky (0x2068 + m) 1) = 1) ∧ (1 < s.modeN) ∧ (v = 1 ∨ v = 2) ∧ (s.nat (ky (0x2068 + m) 9) ≠ v) :=
  ⟨0, inMode 3 [], 0, 2, by decide⟩

theorem wit_ethernetLinkDown : ∃ (t : Time) (s0 : State) (m : Fin 2),
    let s := s0.tick t
    s.macUp m = true :=
  ⟨0, inMode 3 [(ky 0x2068 9, .num 2)], 0, by decide⟩

theorem wit_arpRequest : ∃ (t : Time) (s0 : State) (m : Fin 2) (target sender : BitVec 32) (senderMac : BitVec 48),
    let s := s0.tick t
    (s.macUp m = true) ∧ (target.toNat = s.frcN (ky (0x2068 + m) 4)) :=
  ⟨0, inMode 3 [(ky 0x2068 9, .num 2)], 0, 0xC0A80A0A, 0xC0A80A01, 5, by decide⟩

theorem wit_icmpEcho : ∃ (t : Time) (s0 : State) (m : Fin 2) (src dst : BitVec 32) (data : Bytes),
    let s := s0.tick t
    (s.macUp m = true) ∧ (dst.toNat = s.frcN (ky (0x2068 + m) 4)) :=
  ⟨0, inMode 3 [(ky 0x2068 9, .num 2)], 0, 0xC0A80A01, 0xC0A80A0A, [1], by decide⟩

theorem wit_kdpRequest : ∃ (t : Time) (s0 : State) (m : Fin 2) (src : BitVec 32) (port : BitVec 16) (b : Bytes),
    let s := s0.tick t
    (s.macUp m = true) ∧ (s.frcN (ky (0x2068 + m) 7) = 1) ∧ (b.length ≤ 1472) ∧ (s.deaf = false) :=
  ⟨0, inMode 3 [(ky 0x2068 9, .num 2)], 0, 0xC0A80A01, 5000, [], by decide⟩

theorem wit_kdpEventSend : ∃ (t : Time) (s0 : State),
    let s := s0.tick t
    let q := s.nat (ky 0x206A 0x0B)
    let x := s.qOf q
    let n := min 22 x.level
    (q ≠ 0) ∧ (x.enabled = true) ∧ (x.typ = 4) ∧ (n ≠ 0) ∧ (s.deaf = false) ∧ (s.macUp 0 = true ∧ s.frcN (ky 0x2068 7) = 1 ∨ s.macUp 1 = true ∧ s.frcN (ky 0x2069 7) = 1) :=
  ⟨0, { inMode 3 [(ky 0x2068 9, .num 2), (ky 0x206A 0x0B, .num 20), (ky 0x206A 9, .num 281474976710656)] with host := { State.reset.host with queues := [(20, { Queue.init with enabled := true, typ := 4, dram := true, prod := 1 })] } }, by decide⟩

theorem wit_ptpMessage : ∃ (t : Time) (s0 : State) (m : Fin 2) (msg : PtpMsg),
    let s := s0.tick t
    s.ptpOn m = true :=
  ⟨0, inMode 3 [(ky 0x2068 9, .num 2), (ky 0x2308 1, .num 1)], 0, .management, by decide⟩

theorem wit_ptpAnnounceTimeout : ∃ (t : Time) (s0 : State),
    let s := s0.tick t
    (s.ptpOn 0 = true ∨ s.ptpOn 1 = true) ∧ (s.net.ptp.lastAnnounce + s.nat (ky 0x2308 8) * s.announceInterval ≤ t) ∧ (s.ptpSlave = true ∨ s.ptpState = 4) :=
  ⟨secT 100, inMode 3 [(ky 0x2068 9, .num 2), (ky 0x2308 1, .num 1), (ky 0x2308 0x0A, .num 9)], by decide⟩

theorem wit_ptpTransmit_delay : ∃ (t : Time) (s0 : State),
    let s := s0.tick t
    (s.ptpOn 0 = true ∨ s.ptpOn 1 = true) ∧ (s.ptpSlave = true) :=
  ⟨0, inMode 3 [(ky 0x2068 9, .num 2), (ky 0x2308 1, .num 1), (ky 0x2308 0x0A, .num 9)], by decide⟩

theorem wit_ptpTransmit : ∃ (t : Time) (s0 : State) (m : PtpSend),
    let s := s0.tick t
    (s.ptpOn 0 = true ∨ s.ptpOn 1 = true) ∧ (s.ptpState = 6) ∧ (m ≠ .delayReq) :=
  ⟨0, inMode 3 [(ky 0x2068 9, .num 2), (ky 0x2308 1, .num 1), (ky 0x2308 0x0A, .num 6)], .sync, by decide⟩

theorem wit_kdp_malformed : ∃ b : Bytes, b.length < 16 := ⟨[], by decide⟩

theorem wit_kdp_turnedAway : ∃ (s : State) (src : Nat) (b : Bytes) (ops : List KOp), 16 ≤ b.length ∧ fieldLE b 0 4 = 0x5044444B ∧
    fieldLE b 4 1 = 1 ∧ fieldLE b 5 1 = 1 ∧ 1 ≤ fieldLE b 7 1 ∧ fieldLE b 7 1 ≤ 32 ∧ kdpOps (fieldLE b 7 1) (b.drop 16) = some ops ∧ s.kdpAccess src = none :=
  ⟨withObj [(ky 0x206A 1, .num (562949953421312 + 32 * 4294967296 + 5))], 6,
    [0x4B, 0x44, 0x44, 0x50, 1, 1, 0, 1] ++ List.replicate 8 0 ++ [1, 2, 0, 0x21, 4, 0, 0, 0], [⟨1, 2, 0x2100, 4, []⟩], by decide⟩

theorem wit_kdp_again : ∃ (s : State) (src port : Nat) (b : Bytes) (ops : List KOp) (x : KdpClient), 16 ≤ b.length ∧ fieldLE b 0 4 = 0x5044444B ∧
    fieldLE b 4 1 = 1 ∧ fieldLE b 5 1 = 1 ∧ 1 ≤ fieldLE b 7 1 ∧ fieldLE b 7 1 ≤ 32 ∧ kdpOps (fieldLE b 7 1) (b.drop 16) = some ops ∧ s.kdpAccess src ≠ none ∧
    s.net.kdp.find? (fun x => x.src == src && x.port == port && x.session == fieldLE b 8 4) = some x ∧ fieldLE b 12 4 = x.seq :=
  ⟨{ State.reset with net := { State.reset.net with kdp := [⟨6, 7, 0, 0, [9]⟩] } }, 6, 7,
    [0x4B, 0x44, 0x44, 0x50, 1, 1, 0, 1] ++ List.replicate 8 0 ++ [1, 2, 0, 0x21, 4, 0, 0, 0], [⟨1, 2, 0x2100, 4, []⟩], ⟨6, 7, 0, 0, [9]⟩, by decide⟩

theorem wit_kdp_late : ∃ (s : State) (src port : Nat) (b : Bytes) (ops : List KOp) (x : KdpClient), 16 ≤ b.length ∧ fieldLE b 0 4 = 0x5044444B ∧
    fieldLE b 4 1 = 1 ∧ fieldLE b 5 1 = 1 ∧ 1 ≤ fieldLE b 7 1 ∧ fieldLE b 7 1 ≤ 32 ∧ kdpOps (fieldLE b 7 1) (b.drop 16) = some ops ∧ s.kdpAccess src ≠ none ∧
    s.net.kdp.find? (fun x => x.src == src && x.port == port && x.session == fieldLE b 8 4) = some x ∧
    fieldLE b 12 4 ≠ x.seq ∧ wrapS 32 ((fieldLE b 12 4 : Int) - x.seq) < 0 :=
  ⟨{ State.reset with net := { State.reset.net with kdp := [⟨6, 7, 0, 5, [9]⟩] } }, 6, 7,
    [0x4B, 0x44, 0x44, 0x50, 1, 1, 0, 1] ++ List.replicate 8 0 ++ [1, 2, 0, 0x21, 4, 0, 0, 0], [⟨1, 2, 0x2100, 4, []⟩], ⟨6, 7, 0, 5, [9]⟩, by decide⟩

theorem wit_idle : ∃ s : State, s.pending = [] := ⟨State.reset, rfl⟩

theorem wit_inv : ∃ s u : State, (s.mem.wf = true ∧ s.fswOk = true) ∧ step s = .next u := ⟨State.reset, State.reset, by decide, rfl⟩

theorem wit_unlistedMode : ∃ (s : State) (p : Path) (idx : BitVec 16) (sub : BitVec 8) (x : Nat × Nat × Row), s.serves p = true ∧
    findRow idx.toNat sub.toNat = some x ∧ modeTakes s.modeN x.2.2.acc = false :=
  ⟨inMode 5 [], .mailbox, 0x2700, 3, (0x2700, 0, ⟨3, 1, .uns 4, 3, false, 1, .rng 1 4294967295, .imm⟩), by decide⟩

theorem wit_readServed : ∃ (s : State) (p : Path) (idx sub : Nat) (x : Nat × Nat × Row), s.serves p = true ∧ findRow idx sub = some x ∧
    (idx = 0x2070 → sub = 2 → s.dramAccess (s.nat (ky 0x2070 3)) = true) :=
  ⟨inMode 7 [], .mailbox, 0x2700, 3, (0x2700, 0, ⟨3, 1, .uns 4, 3, false, 1, .rng 1 4294967295, .imm⟩), by decide⟩

theorem wit_write_bad : ∃ (s : State) (p : Path) (idx : BitVec 16) (sub : BitVec 8) (b : Bytes) (r : Refuse), s.serves p = true ∧
    s.writeParse idx.toNat sub.toNat b = .error r := ⟨inMode 3 [], .mailbox, 0x2700, 0x77, [], .absentSub, by decide⟩

theorem wit_write_absent : ∃ idx sub : Nat, findRow idx sub = none := ⟨0x2FFF, 1, by decide⟩

theorem wit_write_readOnly : ∃ (s : State) (idx sub : Nat) (x : Nat × Nat × Row), findRow idx sub = some x ∧ s.modeN ≠ 7 ∧ x.2.2.acc = 0 :=
  ⟨inMode 3 [], 0x2100, 2, (0x2100, 0, ⟨2, 1, .uns 1, 0, false, 0, .any, .imm⟩), by decide⟩

theorem wit_write_length : ∃ (s : State) (idx sub : Nat) (b : Bytes) (x : Nat × Nat × Row), findRow idx sub = some x ∧
    modeTakes s.modeN x.2.2.acc = true ∧ decodeVal x.2.2.ty b = none :=
  ⟨inMode 3 [], 0x2700, 3, [1], (0x2700, 0, ⟨3, 1, .uns 4, 3, false, 1, .rng 1 4294967295, .imm⟩), by decide⟩

theorem wit_write_reserved : ∃ (s : State) (idx sub : Nat) (b : Bytes) (x : Nat × Nat × Row) (v : Val), findRow idx sub = some x ∧
    modeTakes s.modeN x.2.2.acc = true ∧ decodeVal x.2.2.ty b = some v ∧ namesQueue (ky idx sub) = true ∧ 0 ≤ v.int ∧ v.int < 16 ∧ rowRange x.2.2 v = false :=
  ⟨inMode 3 [], 0x3011, 1, [15, 0], (0x3011, 0, ⟨1, 1, .uns 2, 3, false, 0, .orv 16 16383 0, .imm⟩), .num 15, by decide⟩

theorem wit_write_range : ∃ (s : State) (idx sub : Nat) (b : Bytes) (x : Nat × Nat × Row) (v : Val), findRow idx sub = some x ∧
    modeTakes s.modeN x.2.2.acc = true ∧ decodeVal x.2.2.ty b = some v ∧ ¬(namesQueue (ky idx sub) = true ∧ 0 ≤ v.int ∧ v.int < 16) ∧
    rowRange x.2.2 v = false :=
  ⟨inMode 3 [], 0x2700, 3, [0, 0, 0, 0], (0x2700, 0, ⟨3, 1, .uns 4, 3, false, 1, .rng 1 4294967295, .imm⟩), .num 0, by decide⟩

theorem wit_write_boot : ∃ (s : State) (p : Path), s.modeN ≤ 1 ∧ p ≠ .bar0 := ⟨inMode 1 [], .kdp, by decide⟩

theorem wit_write_deaf : ∃ (s : State) (p : Path), 2 ≤ s.modeN ∧ s.deaf = true ∧ p ≠ .bar0 ∧ (∀ i, p = .usdo i → s.usdoServed i = true) :=
  ⟨{ inMode 3 [] with net := { State.reset.net with restarting := true } }, .mailbox, by decide, by decide, by decide, by intro i h; cases h⟩

theorem wit_dramWindow : ∃ (s : State) (p : Path) (b : Bytes), s.serves p = true ∧ s.modeN ≤ 6 ∧ 1 ≤ b.length ∧ b.length ≤ 1024 ∧
    s.dramAccess b.length = true := ⟨inMode 3 [], .mailbox, [1, 2], by decide⟩

theorem wit_fault_first : ∃ (s : State) (b : Nat), b < 56 ∧ s.flt.fsw.getLsbD b = false := ⟨State.reset, 55, by decide⟩

theorem wit_fault_again : ∃ (s : State) (b : Nat), b < 56 ∧ s.flt.fsw.getLsbD b = true :=
  ⟨{ State.reset with flt := { State.reset.flt with fsw := 1 } }, 0, by decide⟩

theorem wit_clearAgain : ∃ (s : State) (m : BitVec 64) (b : Nat), b < 55 ∧ m.getLsbD b = true ∧ s.flt.fsw.getLsbD b = true ∧
    onClock s.flt.lastT b s.now = true := ⟨{ State.reset with flt := { State.reset.flt with fsw := 8, lastT := [(3, 0)] } }, 8, 3, by decide⟩

theorem wit_stuck : ∃ (s : State) (b : Fin 64), 28 ≤ b.val ∧ b.val ≤ 31 ∧ s.modeN ≠ 0 := ⟨inMode 5 [], 31, by decide⟩

theorem wit_drop : ∃ (s : State) (b : Nat), b ≤ 55 ∧ s.obit (oFlt b 2) 1 = true ∧ s.flt.safeA = true :=
  ⟨{ inMode 5 [(oFlt 3 2, .num 3)] with flt := { State.reset.flt with safeA := true, safeB := true } }, 3, by decide⟩

theorem wit_drop_55 : ∃ s : State, s.obit (oFlt 55 2) 1 = true := ⟨State.reset, by decide⟩

theorem wit_collector : ∃ k : Nat, k = ky 0x2200 3 ∨ (∃ b j : Nat, b < 64 ∧ 3 ≤ j ∧ j ≤ 7 ∧ k = oFlt b j) := ⟨oFlt 5 3, .inr ⟨5, 3, by decide⟩⟩

theorem wit_collector_first : ∃ k : Nat, k = ky 0x2200 3 ∧ ∃ b j : Nat, b < 64 ∧ 3 ≤ j ∧ j ≤ 7 := ⟨ky 0x2200 3, rfl, 63, 7, by decide⟩

theorem wit_security_over : ∃ (s : State) (p : Path) (v : Nat), s.serves p = true ∧ (s.otp.image.map Image.sec).getD 0 < v :=
  ⟨{ inMode 2 [] with otp := { State.reset.otp with image := some ⟨0, 1, 5, 0, true, 0⟩ } }, .mailbox, 6, by decide⟩

theorem wit_security_below : ∃ (s : State) (p : Path) (v : Nat), s.serves p = true ∧ s.modeN ≤ 3 ∧ 1 ≤ v ∧ v ≤ 64 ∧ s.securityCheck v = none ∧
    v ≤ s.otpSecurity :=
  ⟨{ inMode 2 [(ky 0x2200 8, .num 25)] with otp := { State.reset.otp with image := some ⟨0, 1, 5, 0, true, 0⟩, shadow := [(0x16, 7), (0x18, 7), (0x1A, 7)] } }, .mailbox, 2, by decide⟩

theorem wit_closeEdge : ∃ (t : Time) (s0 : State) (e : Fin 16) (a b : Bool) (l : Time),
    let s := s0.tick t
    let x := s.encOf e
    (s.nat (oEnc e 1) = 1) ∧ ¬(x.a = a ∧ x.b = b) ∧ x.last = some l ∧ edgeTime t < l + nsT 16 ∧ (quad a b + 4 - quad x.a x.b) % 4 ≠ 2 :=
  ⟨100, { withObj [(oEnc 0 1, .num 1)] with enc := [(0, { Enc.init with last := some 0 })] }, 0, true, false, 0, by decide⟩

theorem wit_admission : ∃ (t : Time) (s0 : State) (c : Fin 48) (m : Mark),
    let s := ((s0.tick t).applyChanges t).closesFirst c t
    ((s.casOf c).pend.find? (fun m => m.vote.isNone) = some m) ∧ (s.reached c m = true) ∧ (m.stitch = none) :=
  ⟨0, { State.reset with cas := [(0, { Cas.init with pend := [Mark.init] })] }, 0, Mark.init, by decide⟩

end Sys2Proof.Tests
end

namespace Sys2Proof.Machine

/-! # What every command keeps

`Keeps s u` for each operation that a command is made of, in the form that chains, up to `exec_keeps`. A proof follows its
operation's definition: each state `s1`, `s2`, … that it names gets a fact `h1`, `h2`, …, each `if` is an `.ite`, each fold a
`.foldl`. -/

/-- A command's answer is a next state, and the state keeps what `Keeps` says. -/
def KeepsNext (s : State) (o : Step) : Prop := ∃ u, o = .next u ∧ Keeps s u

/-- A register write that is not refused leaves a state that keeps what `Keeps` says. -/
def KeepsOk (s : State) : RegOut → Prop
  | .ok u => Keeps s u
  | .error _ => True

section Composition
variable {s u : State}

/-- A structure update of anything but the queue, the count, memory and the status word. -/
theorem Keeps.update {v : State} (h : Keeps s u)
    (e : (v.pending, v.clk.mono, v.mem, v.flt.fsw) = (u.pending, u.clk.mono, u.mem, u.flt.fsw)) : Keeps s v := by
  obtain ⟨queue, time, mem, fsw⟩ : _ ∧ _ ∧ _ ∧ _ := by simpa only [Prod.mk.injEq] using e
  exact h.same queue time mem fsw

theorem Keeps.setMem {m : Mem} (h : Keeps s u) (hm : u.mem.wf = true → m.wf = true) : Keeps s { u with mem := m } :=
  ⟨h.queue, h.time, fun x => hm (h.mem x), h.fsw⟩

theorem Keeps.setFlt {f : Flt} (h : Keeps s u) (hf : u.flt.fsw.toNat < 2 ^ 56 → f.fsw.toNat < 2 ^ 56) :
    Keeps s { u with flt := f } :=
  ⟨h.queue, h.time, h.mem, fun x => decide_eq_true (hf (of_decide_eq_true (h.fsw x)))⟩

theorem Mem.wf_dropDram {m : Mem} (h : m.wf = true) : ({ m with dram := [] } : Mem).wf = true := by
  obtain ⟨-, hhost, hflash⟩ := (Mem.wf_iff m).mp h
  exact (Mem.wf_iff _).mpr ⟨rfl, hhost, hflash⟩

theorem Mem.wf_filterFlash {m : Mem} (f : Host.Cell → Bool) (h : m.wf = true) :
    ({ m with flash := m.flash.filter f } : Mem).wf = true := by
  obtain ⟨hdram, hhost, hflash⟩ := (Mem.wf_iff m).mp h
  exact (Mem.wf_iff _).mpr ⟨hdram, hhost, twf_filter _ f _ hflash⟩

/-- Clearing status bits keeps the reserved bits 0. -/
theorem fsw_clear (v m : BitVec 64) (h : v.toNat < 2 ^ 56) : (v &&& m).toNat < 2 ^ 56 := by
  rw [BitVec.toNat_and]
  exact Nat.lt_of_le_of_lt Nat.and_le_left h

/-! An operation that also answers a value: from the pair to its state, once the pair is taken apart. -/

theorem Keeps.fst {α : Type} {p : State × α} {v : State} {a : α} (h : Keeps s p.1) (e : p = (v, a)) : Keeps s v := by
  subst e; exact h

theorem Keeps.snd {α : Type} {p : α × State} {v : State} {a : α} (h : Keeps s p.2) (e : p = (a, v)) : Keeps s v := by
  subst e; exact h

theorem Keeps.snd_fst {α β : Type} {p : α × State × β} {v : State} {a : α} {b : β} (h : Keeps s p.2.1)
    (e : p = (a, v, b)) : Keeps s v := by
  subst e; exact h

theorem Keeps.snd_snd {α β : Type} {p : α × β × State} {v : State} {a : α} {b : β} (h : Keeps s p.2.2)
    (e : p = (a, b, v)) : Keeps s v := by
  subst e; exact h

theorem Keeps.inSnd {α : Type} {a : α} (h : Keeps s u) : Keeps s (a, u).2 := h

theorem Keeps.ite_snd {α : Type} {c : Prop} [Decidable c] {p q : α × State} (h : Keeps s p.2) (g : Keeps s q.2) :
    Keeps s (if c then p else q).2 := by
  split
  · exact h
  · exact g

/-- A fold whose accumulator holds the state as its part `π`. -/
theorem Keeps.foldl_proj {α β : Type} (π : β → State) (l : List α) (f : β → α → β)
    (hf : ∀ b x, Keeps s (π b) → Keeps s (π (f b x))) {b : β} (h : Keeps s (π b)) : Keeps s (π (l.foldl f b)) := by
  induction l generalizing b with
  | nil => exact h
  | cons x l ih => exact ih (hf b x h)

theorem Keeps.next (h : Keeps s u) : KeepsNext s (.next u) := ⟨u, rfl, h⟩

theorem KeepsNext.ite {c : Prop} [Decidable c] {o p : Step} (h : KeepsNext s o) (g : KeepsNext s p) :
    KeepsNext s (if c then o else p) := by
  split
  · exact h
  · exact g

theorem Keeps.ok (h : Keeps s u) : KeepsOk s (.ok u) := h

theorem KeepsOk.error (c : Refuse) : KeepsOk s (.error c) := trivial

theorem KeepsOk.ite {c : Prop} [Decidable c] {o p : RegOut} (h : KeepsOk s o) (g : KeepsOk s p) :
    KeepsOk s (if c then o else p) := by
  split
  · exact h
  · exact g

end Composition

section Operations
variable {s u : State}

/-! ## The named operations over the state -/

theorem Keeps.settle (h : Keeps s u) (now : Time) : Keeps s (u.settle now) := by
  unfold State.settle
  split
  exact h.update (by rfl)

/-! ## Status and flag computations -/

theorem Keeps.setCas (h : Keeps s u) (c v : Nat) : Keeps s (u.setCas c v) := by
  unfold State.setCas
  exact h.setn ..

theorem Keeps.setAxState (h : Keeps s u) (a v : Nat) : Keeps s (u.setAxState a v) := by
  unfold State.setAxState
  exact h.setn ..

theorem Keeps.encoderFallback (h : Keeps s u) (e : Nat) : Keeps s (u.encoderFallback e) := by
  unfold State.encoderFallback
  refine h.foldl _ _ fun v x g => ?_
  refine .ite ?_ g
  split
  · exact .ite ((g.setbit ..).event ..) (g.positionLost ..)
  · exact g.event ..
  · exact (g.event ..).positionLost ..
  · exact g

/-! ## Encoders, line axes and divided pulses -/

theorem Keeps.encFault (h : Keeps s u) (e i : Nat) : Keeps s (u.encFault e i) := by
  unfold State.encFault
  extract_lets x c s1 s2
  have h1 : Keeps s s1 := (h.setEnc ..).event ..
  have h2 : Keeps s s2 := h1.fault ..
  exact .ite h (.ite h2 (h2.encoderFallback ..))

theorem Keeps.plsCount (h : Keeps s u) (n : Nat) (fwd : Bool) : Keeps s (u.plsCount n fwd) := by
  unfold State.plsCount
  extract_lets x N M a full drop s1 s2
  have hdrop {v : State} (g : Keeps s v) : Keeps s (drop v) := (g.bump ..).event ..
  have h1 : Keeps s s1 := h.setPls ..
  have h2 : Keeps s s2 := h.setPls ..
  exact .ite (.ite (hdrop h1) h1) (.ite (.ite (hdrop h2) h2) (h.setPls ..))

theorem Keeps.ginTimers (h : Keeps s u) (k : Nat) (t : Time) : Keeps s (u.ginTimers k t) := by
  unfold State.ginTimers
  refine h.foldl _ _ fun v x g => ?_
  exact .ite (g.setGin ..) g

theorem Keeps.laxInc (h : Keeps s u) (k : Nat) (d : Int) (ts : Time) : Keeps s (u.laxInc k d ts) := by
  unfold State.laxInc
  extract_lets s1
  have h1 : Keeps s s1 := .ite (h.ginTimers ..) h
  exact h1.setLax ..

theorem Keeps.laxIncs (h : Keeps s u) (kind inst : Nat) (d : Int) (ts : Time) :
    Keeps s (u.laxIncs kind inst d ts) := by
  unfold State.laxIncs
  exact h.foldl _ _ fun _ _ g => .ite (g.laxInc ..) g

theorem Keeps.encCount (h : Keeps s u) (e : Nat) (d : Int) (ts : Time) : Keeps s (u.encCount e d ts) := by
  unfold State.encCount
  extract_lets x pos s1
  have h1 : Keeps s s1 := h.setn ..
  split
  extract_lets s2 s3 s4
  have h2 : Keeps s s2 := h1.setEnc ..
  have h3 : Keeps s s3 := .ite (h2.eventAt ..) h2
  have h4 : Keeps s s4 := h3.foldl _ _ fun _ _ g => .ite (g.foldl _ _ fun _ _ g => g.plsCount ..) g
  exact h4.laxIncs ..

theorem execEncoderEdge_keeps (t : Time) (e : Fin 16) (a b : Bool) (s : State) :
    KeepsNext s (execEncoderEdge t e a b s) := by
  unfold execEncoderEdge
  extract_lets s1 x ts close d s2 s3
  have h1 : Keeps s s1 := (Keeps.refl s).tick ..
  have h2 : Keeps s s2 := h1.setEnc ..
  have h3 : Keeps s s3 := .ite (h2.encFault ..) h2
  exact .ite h1.next (.ite (h3.encFault ..).next (h3.encCount ..).next)

theorem execSincosSample_keeps (t : Time) (e : Fin 16) (sn cs : Int) (s : State) :
    KeepsNext s (execSincosSample t e sn cs s) := by
  unfold execSincosSample
  extract_lets s1 x auto _ c1 phi c2 ang d mag2 lo hi per low s2 s3 s4
  have h1 : Keeps s s1 := (Keeps.refl s).tick ..
  have h2 : Keeps s s2 := h1.setEnc ..
  have h3 : Keeps s s3 := .ite (h2.encFault ..) h2
  have h4 : Keeps s s4 := .ite (h3.encFault ..) h3
  exact .ite h1.next (Keeps.next (.ite h4 (h4.encCount ..)))

theorem execIndex_keeps (t : Time) (e : Fin 16) (s : State) : KeepsNext s (execIndex t e s) := by
  unfold execIndex
  extract_lets s1 x kind pos s2 s3
  have h1 : Keeps s s1 := (Keeps.refl s).tick ..
  have h2 : Keeps s s2 := (h1.setn ..).setn ..
  have h3 : Keeps s s3 := h2.setEnc ..
  exact .ite h1.next (h3.foldl _ _ fun _ _ g => .ite ((g.setn ..).enforce ..) g).next

theorem execWireCheckExpiry_keeps (t : Time) (e : Fin 16) (pair : WirePair) (s : State) :
    KeepsNext s (execWireCheckExpiry t e pair s) := by
  unfold execWireCheckExpiry
  extract_lets s1
  have h1 : Keeps s s1 := (Keeps.refl s).tick ..
  exact .ite h1.next (h1.encFault ..).next

theorem execAutoTrackUpdate_keeps (t : Time) (e : Fin 16) (smin smax cmin cmax freq : Int) (s : State) :
    KeepsNext s (execAutoTrackUpdate t e smin smax cmin cmax freq s) := by
  unfold execAutoTrackUpdate
  extract_lets s1
  have h1 : Keeps s s1 := (Keeps.refl s).tick ..
  exact .ite h1.next (h1.setEnc ..).next

theorem execEncStatusClear_keeps (t : Time) (e : Fin 16) (v : BitVec 32) (present : BitVec 9) (s : State) :
    KeepsNext s (execEncStatusClear t e v present s) := by
  unfold execEncStatusClear
  extract_lets s1 x st s2
  have h1 : Keeps s s1 := (Keeps.refl s).tick ..
  have h2 : Keeps s s2 := h1.setEnc ..
  exact (h2.foldl _ _ fun _ _ g => .ite (g.encFault ..) g).next

theorem Keeps.laxUpdate (h : Keeps s u) (k : Nat) (t : Time) : Keeps s (u.laxUpdate k t) := by
  unfold State.laxUpdate
  extract_lets s1 x dt vden tot _ acc dv target virt _ frozen v _ _ s2
  have h1 : Keeps s s1 := h.ginTimers ..
  have h2 : Keeps s s2 := h1.setLax ..
  split
  extract_lets _ s3
  have h3 : Keeps s s3 := h2.setLax ..
  refine h3.foldl _ _ fun v x g => ?_
  split
  · exact .ite (g.setGin ..) g
  · exact g

theorem Keeps.applySource (h : Keeps s u) (k kind inst : Nat) (t : Time) : Keeps s (u.applySource k kind inst t) := by
  unfold State.applySource
  extract_lets s1
  have h1 : Keeps s s1 := h.ginTimers ..
  exact (h1.setLax ..).event ..

theorem execSourceSwitch_keeps (t : Time) (k : Fin 32) (s : State) : KeepsNext s (execSourceSwitch t k s) := by
  unfold execSourceSwitch
  extract_lets s1
  have h1 : Keeps s s1 := (Keeps.refl s).tick ..
  split
  · exact h1.next
  · exact (h1.applySource ..).next

theorem Keeps.sourceFault (h : Keeps s u) (k : Nat) (t : Time) : Keeps s (u.sourceFault k t) := by
  unfold State.sourceFault
  exact .ite ((h.setLax ..).event ..) ((h.setLax ..).event ..)

theorem execLineAxisSourceFault_keeps (t : Time) (k : Fin 32) (s : State) :
    KeepsNext s (execLineAxisSourceFault t k s) := by
  unfold execLineAxisSourceFault
  extract_lets s1
  have h1 : Keeps s s1 := (Keeps.refl s).tick ..
  exact .ite (h1.sourceFault ..).next h1.next

theorem execZeroSpeedTimeout_keeps (t : Time) (k : Fin 32) (s : State) :
    KeepsNext s (execZeroSpeedTimeout t k s) := by
  unfold execZeroSpeedTimeout
  extract_lets s1
  have h1 : Keeps s s1 := (Keeps.refl s).tick ..
  exact .ite ((h1.ginTimers ..).setLax ..).next h1.next

theorem Keeps.laxLost (h : Keeps s u) (k : Nat) (t : Time) : Keeps s (u.laxLost k t) := by
  unfold State.laxLost
  exact (h.setLax ..).event ..

theorem execPlsStepOut_keeps (t : Time) (n : Fin 8) (s : State) : KeepsNext s (execPlsStepOut t n s) := by
  unfold execPlsStepOut
  extract_lets s1
  have h1 : Keeps s s1 := (Keeps.refl s).tick ..
  split
  · exact h1.next
  · refine .ite ?_ h1.next
    split
    exact ((h1.setPls ..).send ..).next

theorem Keeps.laxSnapshot (h : Keeps s u) : Keeps s u.laxSnapshot := by
  unfold State.laxSnapshot
  exact h.update (by rfl)

theorem execLaxSnap_keeps (t : Time) (s : State) : KeepsNext s (execLaxSnap t s) := by
  unfold execLaxSnap
  extract_lets s1
  have h1 : Keeps s s1 := (Keeps.refl s).tick ..
  exact .ite h1.next h1.laxSnapshot.next

/-! ## Device time, the calendar and the tallies -/

theorem Keeps.setSource (h : Keeps s u) (v : Nat) : Keeps s (u.setSource v) := by
  unfold State.setSource
  exact .ite h ((h.setn ..).event ..)

theorem Keeps.stepTime (h : Keeps s u) (d : Int) : Keeps s (u.stepTime d) := by
  unfold State.stepTime
  exact (h.update (by rfl)).event _ _ _ _

theorem Keeps.applyTime (h : Keeps s u) (w : Nat) : Keeps s (u.applyTime w) := by
  unfold State.applyTime
  extract_lets s1
  have h1 : Keeps s s1 := h.stepTime ..
  exact (h1.update (by rfl)).setSource ..

theorem execStagedTimeApply_keeps (t : Time) (s : State) : KeepsNext s (execStagedTimeApply t s) := by
  unfold execStagedTimeApply
  extract_lets s1
  have h1 : Keeps s s1 := (Keeps.refl s).tick ..
  split
  · exact .ite (h1.applyTime ..).next h1.next
  · exact h1.next

theorem Keeps.ptpOffset (h : Keeps s u) (theta : Int) (utc : Option Int) : Keeps s (u.ptpOffset theta utc) := by
  unfold State.ptpOffset
  extract_lets s1 _ s2 _ s3 n _ s4 _ s5
  have h1 : Keeps s s1 := h.setn ..
  have h2 : Keeps s s2 := h1.update (by rfl)
  have h3 : Keeps s s3 := by
    unfold s3
    refine .ite (h2.stepTime ..) ?_
    split
    exact h2.update (by rfl)
  have h4 : Keeps s s4 := h3.update (by rfl)
  have h5 : Keeps s s5 := .ite ((h4.update (by rfl)).setSource ..) h4
  refine .ite h ?_
  split
  · exact .ite h5 (h5.setDec ..)
  · exact h5

theorem execPtpOffset_keeps (t : Time) (theta : Int) (utc : Option Int) (s : State) :
    KeepsNext s (execPtpOffset t theta utc s) := by
  unfold execPtpOffset
  exact (((Keeps.refl s).tick ..).ptpOffset ..).next

theorem execPtpHoldoverTimeout_keeps (t : Time) (s : State) : KeepsNext s (execPtpHoldoverTimeout t s) := by
  unfold execPtpHoldoverTimeout
  extract_lets s1
  have h1 : Keeps s s1 := (Keeps.refl s).tick ..
  split
  · exact .ite ((h1.update (by rfl)).setSource ..).next h1.next
  · exact h1.next

theorem execHoldoverExpiry_keeps (t : Time) (s : State) : KeepsNext s (execHoldoverExpiry t s) := by
  unfold execHoldoverExpiry
  extract_lets s1
  have h1 : Keeps s s1 := (Keeps.refl s).tick ..
  split
  · exact .ite ((h1.update (by rfl)).setSource ..).next h1.next
  · exact h1.next

theorem Keeps.calAdvance (h : Keeps s u) : Keeps s u.calAdvance := by
  unfold State.calAdvance
  exact h.update (by rfl)

theorem execCalendarRealign_keeps (t : Time) (s : State) : KeepsNext s (execCalendarRealign t s) := by
  unfold execCalendarRealign
  extract_lets s1
  have h1 : Keeps s s1 := (Keeps.refl s).tick ..
  exact .ite (h1.update (by rfl)).next h1.next

theorem execCalendarTrimStep_keeps (t : Time) (s : State) : KeepsNext s (execCalendarTrimStep t s) := by
  unfold execCalendarTrimStep
  extract_lets s1
  have h1 : Keeps s s1 := ((Keeps.refl s).tick ..).calAdvance
  exact .ite h1.next (h1.update (by rfl)).next

theorem Keeps.timeSnapshot (h : Keeps s u) : Keeps s u.timeSnapshot := by
  unfold State.timeSnapshot
  exact h.update (by rfl)

theorem execTimeSnap_keeps (t : Time) (s : State) : KeepsNext s (execTimeSnap t s) := by
  unfold execTimeSnap
  extract_lets s1
  have h1 : Keeps s s1 := (Keeps.refl s).tick ..
  exact .ite h1.next h1.timeSnapshot.next

theorem execLeapSecondApply_keeps (t : Time) (s : State) : KeepsNext s (execLeapSecondApply t s) := by
  unfold execLeapSecondApply
  extract_lets s1
  have h1 : Keeps s s1 := (Keeps.refl s).tick ..
  exact .ite ((h1.update (by rfl)).event ..).next h1.next

theorem execDaylightChange_keeps (t : Time) (s : State) : KeepsNext s (execDaylightChange t s) := by
  unfold execDaylightChange
  extract_lets s1
  have h1 : Keeps s s1 := (Keeps.refl s).tick ..
  exact .ite h1.next ((h1.update (by rfl)).event ..).next

theorem execShiftChange_keeps (t : Time) (s : State) : KeepsNext s (execShiftChange t s) := by
  unfold execShiftChange
  extract_lets s1
  have h1 : Keeps s s1 := (Keeps.refl s).tick ..
  exact .ite h1.next ((h1.update (by rfl)).event ..).next

theorem Keeps.talMark (h : Keeps s u) (n : Nat) : Keeps s (u.talMark n) := by
  unfold State.talMark
  extract_lets x g s1
  have h1 : Keeps s s1 := h.setTal ..
  exact .ite (h1.update (by rfl)) h

theorem Keeps.talAfter (h : Keeps s u) (n : Nat) : Keeps s (u.talAfter n) := by
  unfold State.talAfter
  extract_lets s1
  have h1 : Keeps s s1 := h.talMark ..
  exact .ite ((h1.bump ..).event ..) h1

theorem Keeps.talDraw (h : Keeps s u) (n : Nat) : Keeps s (u.talDraw n).2.2 := by
  unfold State.talDraw
  extract_lets
  split
  · exact h
  · split
    · exact h
    · split
      · exact (h.setn ..).talAfter ..
      · split
        · exact (h.setTal ..).event ..
        · exact ((h.setn ..).event ..).talAfter ..
        · exact (h.setn ..).talAfter ..

theorem Keeps.talCount (h : Keeps s u) (kind inst : Nat) : Keeps s (u.talCount kind inst) := by
  unfold State.talCount
  exact h.foldl _ _ fun _ _ g => .ite (g.talDraw ..) g

theorem Keeps.talWrite (h : Keeps s u) (n v : Nat) : Keeps s (u.talWrite n v) := by
  unfold State.talWrite
  extract_lets s1
  have h1 : Keeps s s1 := h.setn ..
  exact (h1.setTal ..).talAfter ..

theorem execTallyLoRead_keeps (t : Time) (n : Fin 256) (s : State) : KeepsNext s (execTallyLoRead t n s) := by
  unfold execTallyLoRead
  extract_lets s1
  have h1 : Keeps s s1 := (Keeps.refl s).tick ..
  exact .ite (h1.answer ..).next ((h1.setTal ..).answer ..).next

theorem execPersistMarkConfirmed_keeps (t : Time) (n : Fin 256) (s : State) :
    KeepsNext s (execPersistMarkConfirmed t n s) := by
  unfold execPersistMarkConfirmed
  extract_lets s1
  have h1 : Keeps s s1 := (Keeps.refl s).tick ..
  split
  · exact ((h1.setTal ..).talMark ..).next
  · exact h1.next

/-! ## Completions, reject channels and general outputs -/

theorem Keeps.complete (h : Keeps s u) (c : Nat) (m : Mark) (td tfin : Nat) : Keeps s (u.complete c m td tfin) := by
  unfold State.complete
  extract_lets s1 q d es n s2 _ s3 s4
  have h1 : Keeps s s1 := h.bump ..
  have h2 : Keeps s s2 := h1.setQ ..
  have h3 : Keeps s s3 := h2.update (by rfl)
  have h4 : Keeps s s4 := h3.setn ..
  exact .ite (h1.bump ..) (.ite ((((h1.setQ ..).bump ..).bump ..).event _ _ _ _) (.ite (h4.setn ..) h4))

theorem Keeps.rejectTag (h : Keeps s u) (c : Nat) (key : TagKey) (a : Int) (atMargin : Bool) :
    Keeps s (u.rejectTag c key a atMargin).2 := by
  unfold State.rejectTag
  extract_lets n x rp p s1 s2
  have h1 : Keeps s s1 := h.setRej ..
  have h2 : Keeps s s2 := h.setRej ..
  split
  · exact h
  · split
    · exact h
    · split
      · exact (h.bump ..).event ..
      · split
        · exact ((h1.setn ..).bump ..).event ..
        · exact h2.setn ..

theorem Keeps.rejSettle (h : Keeps s u) (r : Nat) (p : Int) : Keeps s (u.rejSettle r p) := by
  unfold State.rejSettle
  extract_lets x _ s1
  have h1 : Keeps s s1 := h.setRej ..
  exact .ite ((h1.setRej ..).setn ..) h1

theorem execRejectPosition_keeps (t : Time) (r : Fin 8) (s : State) : KeepsNext s (execRejectPosition t r s) := by
  unfold execRejectPosition
  extract_lets s1
  have h1 : Keeps s s1 := (Keeps.refl s).tick ..
  split
  extract_lets x s2 s3
  have h2 : Keeps s s2 := (h1.setRej ..).bumpBy ..
  have h3 : Keeps s s3 := h2.setn ..
  exact (h3.rejSettle ..).next

theorem execRejectPulseEnd_keeps (t : Time) (r : Fin 8) (s : State) : KeepsNext s (execRejectPulseEnd t r s) := by
  unfold execRejectPulseEnd
  extract_lets s1 p s2
  have h1 : Keeps s s1 := (Keeps.refl s).tick ..
  have h2 : Keeps s s2 := h1.rejSettle ..
  exact .ite h2.next (h2.setRej ..).next

/-! ## The head of a casement -/

theorem Keeps.sendSashes (h : Keeps s u) (c kind n : Nat) (data : Nat → Bytes) :
    Keeps s (u.sendSashes c kind n data) := by
  unfold State.sendSashes
  extract_lets b x t s1
  have h1 : Keeps s s1 := h.setCasement ..
  refine .ite h ?_
  refine h1.foldl _ _ fun v x g => ?_
  extract_lets s2
  have h2 : Keeps s s2 := g.send ..
  exact .ite h2 (h2.bump ..)

theorem Keeps.sendCancel (h : Keeps s u) (c seq : Nat) : Keeps s (u.sendCancel c seq) := by
  unfold State.sendCancel
  exact .ite ((h.sendSashes ..).bump ..) h

theorem Keeps.sendPlane (h : Keeps s u) (c : Nat) (on : Nat → Bool) : Keeps s (u.sendPlane c on) := by
  unfold State.sendPlane
  exact h.sendSashes ..

theorem Keeps.nextSeq (h : Keeps s u) (c : Nat) : Keeps s (u.nextSeq c) := by
  unfold State.nextSeq
  exact h.setCasement ..

theorem Keeps.measPulse (h : Keeps s u) (c : Nat) (m : Meas) : Keeps s (u.measPulse c m) := by
  unfold State.measPulse
  extract_lets p s1
  have h1 : Keeps s s1 := h.send ..
  exact .ite h (.ite (h1.send ..) h1)

theorem Keeps.measLoad (h : Keeps s u) (c : Nat) (m : Meas) (base : Option Time) : Keeps s (u.measLoad c m base) := by
  unfold State.measLoad
  extract_lets e cm q s1 s2
  have h1 : Keeps s s1 := h.sendPlane ..
  have h2 : Keeps s s2 := .ite ((h.sendSashes ..).nextSeq ..) (.ite (h1.send ..) h1)
  exact h2.setCasement ..

theorem Keeps.fillTable (h : Keeps s u) (c : Nat) : Keeps s (u.fillTable c) := by
  unfold State.fillTable
  exact h.setCasement ..

theorem Keeps.setLed (h : Keeps s u) (k v : Nat) : Keeps s (u.setLed k v) := by
  unfold State.setLed
  exact h.update (by rfl)

theorem Keeps.putRec (h : Keeps s u) (c e d : Nat) : Keeps s (u.putRec c e d) := by
  unfold State.putRec
  exact h.setLed ..

theorem Keeps.setClass (h : Keeps s u) (c e cls : Nat) : Keeps s (u.setClass c e cls) := by
  unfold State.setClass
  exact h.putRec ..

theorem Keeps.defectsChanged (h : Keeps s u) (c : Nat) : Keeps s (u.defectsChanged c) := by
  unfold State.defectsChanged
  extract_lets s1
  have h1 : Keeps s s1 := h.setn ..
  exact h1.update (by rfl)

theorem Keeps.declare (h : Keeps s u) (c e kind : Nat) : Keeps s (u.declare c e kind) := by
  unfold State.declare
  extract_lets x now dk s1 s2
  have h1 : Keeps s s1 := h.setCasement ..
  have h2 : Keeps s s2 := .ite (h.setClass ..) h
  split
  · exact .ite (((h1.setClass ..).event ..).defectsChanged ..) h
  · exact .ite (((h2.setCasement ..).event ..).defectsChanged ..) (.ite ((h2.setn ..).event ..) h2)

theorem Keeps.ledUncorrectable (h : Keeps s u) (c e : Nat) : Keeps s (u.ledUncorrectable c e) := by
  unfold State.ledUncorrectable
  extract_lets k s1 s2 s3
  have h1 : Keeps s s1 := h.setLed ..
  have h2 : Keeps s s2 := h1.declare ..
  have h3 : Keeps s s3 := h2.fault ..
  exact (h3.bump ..).event ..

theorem Keeps.useRec (h : Keeps s u) (c e : Nat) : Keeps s (u.useRec c e).2.2 := by
  unfold State.useRec
  split
  · exact h.ledUncorrectable ..
  · exact h.bump ..
  · exact h

theorem Keeps.ledgerInit (h : Keeps s u) (c : Nat) : Keeps s (u.ledgerInit c) := by
  unfold State.ledgerInit
  extract_lets x ser n code cls s1 stored lst s2 _ s3
  have h1 : Keeps s s1 := h.foldl _ _ fun _ _ g => g.putRec ..
  have h2 : Keeps s s2 := h1.foldl _ _ fun _ _ g => g.setClass ..
  have h3 : Keeps s s3 := h2.setCasement ..
  refine .ite ?_ (((h3.setv ..).setn ..).setn ..)
  refine h.foldl _ _ fun v x g => ?_
  split
  rename_i s4 e1
  have h4 : Keeps s s4 := (g.useRec ..).snd_snd e1
  exact h4.putRec ..

theorem Keeps.consumableStatus (h : Keeps s u) (c : Nat) : Keeps s (u.consumableStatus c) := by
  unfold State.consumableStatus
  extract_lets vc vs ok st diff dis low s1 s2
  have h1 : Keeps s s1 := h.setn ..
  have h2 : Keeps s s2 := .ite (h1.event ..) h1
  exact .ite (h2.event ..) h2

/-! ## The Azrov node -/

theorem Keeps.portFlush (h : Keeps s u) (p : Nat) : Keeps s (u.portFlush p) := by
  unfold State.portFlush
  refine h.foldl _ _ fun v x g => ?_
  exact .ite ((g.setPort ..).send ..) g

theorem Keeps.sendCtl (h : Keeps s u) (p typ flags dst : Nat) (payload : Bytes) (src : Option Nat) :
    Keeps s (u.sendCtl p typ flags dst payload src) := by
  unfold State.sendCtl
  exact .ite h ((h.setPort ..).portFlush ..)

theorem Keeps.taken (h : Keeps s u) (p seq : Nat) : Keeps s (u.taken p seq) := by
  unfold State.taken
  exact (h.setPort ..).send ..

theorem Keeps.linkIn (h : Keeps s u) (p seq : Nat) (f : State → State) (hf : ∀ v, Keeps s v → Keeps s (f v)) :
    Keeps s (u.linkIn p seq f) := by
  unfold State.linkIn
  exact .ite h (.ite (hf _ (h.taken ..)) (h.send ..))

theorem Keeps.unicast (h : Keeps s u) (typ dst : Nat) (payload : Bytes) (src : Option Nat) :
    Keeps s (u.unicast typ dst payload src) := by
  unfold State.unicast
  refine .ite h ?_
  split
  · exact h.sendCtl ..
  · exact h

theorem Keeps.multicast (h : Keeps s u) (typ : Nat) (payload : Bytes) (from_ : Option Nat) (src : Nat) :
    Keeps s (u.multicast typ payload from_ src) := by
  unfold State.multicast
  refine .ite h ?_
  refine h.foldl _ _ fun v x g => ?_
  split
  exact .ite g (g.sendCtl ..)

theorem Keeps.bumpPart (h : Keeps s u) (k hi lo : Nat) : Keeps s (u.bumpPart k hi lo) := by
  unfold State.bumpPart
  exact h.setn ..

theorem Keeps.setStitch (h : Keeps s u) (x : Stitch) : Keeps s (u.setStitch x) := by
  unfold State.setStitch
  exact h.update (by rfl)

/-! ## The Shutter -/

theorem Keeps.setPend (h : Keeps s u) (c : Nat) (m : Mark) : Keeps s (u.setPend c m) := by
  unfold State.setPend
  exact h.setCasement ..

theorem Keeps.setOpen (h : Keeps s u) (c : Nat) (m : Mark) : Keeps s (u.setOpen c m) := by
  unfold State.setOpen
  exact h.setCasement ..

theorem Keeps.dropPend (h : Keeps s u) (c : Nat) (m : Mark) : Keeps s (u.dropPend c m) := by
  unfold State.dropPend
  exact (h.setCasement ..).setn ..

theorem Keeps.withdraw (h : Keeps s u) (order : Nat) (field : Option Nat) : Keeps s (u.withdraw order field) := by
  unfold State.withdraw
  extract_lets hit n gone q s1 s2
  have h1 : Keeps s s1 := h.update (by rfl)
  have h2 : Keeps s s2 := (h1.bumpBy ..).setn ..
  split
  · exact .ite ((h2.update (by rfl)).bump ..) h2
  · exact h2

theorem Keeps.fieldError (h : Keeps s u) (c : Nat) (m : Mark) (code : Nat) : Keeps s (u.fieldError c m code) := by
  unfold State.fieldError
  extract_lets s1 s2
  have h1 : Keeps s s1 := (h.bump ..).setn ..
  have h2 : Keeps s s2 := (h1.withdraw ..).event ..
  exact h2.setPend ..

theorem Keeps.sealError (h : Keeps s u) (c : Nat) (m : Mark) (slot status : Nat) :
    Keeps s (u.sealError c m slot status) := by
  unfold State.sealError
  extract_lets s1
  have h1 : Keeps s s1 := (h.bump ..).setn ..
  exact (h1.event _ _ _ _).fieldError ..

theorem Keeps.drawTallies (h : Keeps s u) (c : Nat) (m : Mark) : Keeps s (u.drawTallies c m).1 := by
  unfold State.drawTallies
  split
  · exact h
  · split
    · exact h
    · refine Keeps.foldl_proj Prod.fst _ _ (fun a n g => ?_) h
      dsimp only
      split
      · exact g
      · exact g.talDraw n

theorem Keeps.drawRecords (h : Keeps s u) (c : Nat) (m : Mark) : Keeps s (u.drawRecords c m).1 := by
  unfold State.drawRecords
  split
  · exact h
  · split
    · exact h
    · refine Keeps.foldl_proj Prod.fst _ _ (fun a q g => ?_) h
      dsimp only
      split
      · exact g
      · split
        · exact g
        · exact g.setQ ..

theorem Keeps.countOverride (h : Keeps s u) (c : Nat) (t : Template) (m : Mark) :
    Keeps s (u.countOverride c t m) := by
  unfold State.countOverride
  split
  · exact .ite h (h.bump ..)
  · exact h

theorem Keeps.beginMark (h : Keeps s u) (c : Nat) (m : Mark) (again : Bool) : Keeps s (u.beginMark c m again) := by
  unfold State.beginMark
  extract_lets s1
  have h1 : Keeps s s1 := h.withdraw ..
  split
  · exact (h1.setPend ..).fieldError ..
  · extract_lets s2
    have h2 : Keeps s s2 := .ite h1 (h1.countOverride ..)
    split
    refine .ite ((h2.setPend ..).fieldError ..) ?_
    refine .ite ((h2.setPend ..).fieldError ..) ?_
    split
    rename_i s3 _ e1
    have h3 : Keeps s s3 := (h2.drawTallies ..).fst e1
    split
    rename_i s4 _ e2
    have h4 : Keeps s s4 := (h3.drawRecords ..).fst e2
    exact h4.setPend ..

theorem Keeps.recompose (h : Keeps s u) (p : State → Nat → Mark → Bool) : Keeps s (u.recompose p) := by
  unfold State.recompose
  refine h.foldl _ _ fun v x g => ?_
  split
  split
  · exact .ite (g.beginMark ..) g
  · exact g

theorem Keeps.redraw (h : Keeps s u) (n : Nat) : Keeps s (u.redraw n) := by
  unfold State.redraw
  extract_lets hit s1
  have h1 : Keeps s s1 := by
    unfold s1
    refine h.foldl _ _ fun v x g => ?_
    split
    exact .ite (g.setPend ..) g
  refine h1.foldl _ _ fun v x g => ?_
  split
  refine .ite ?_ g
  split
  rename_i s2 _ e1
  have h2 : Keeps s s2 := (g.drawTallies ..).fst e1
  extract_lets s3
  have h3 : Keeps s s3 := h2.withdraw ..
  exact h3.setPend ..

theorem Keeps.giveRecords (h : Keeps s u) (q : Nat) : Keeps s (u.giveRecords q) := by
  unfold State.giveRecords
  refine h.foldl _ _ fun v x g => ?_
  split
  refine .ite ?_ g
  split
  rename_i s1 _ e1
  have h1 : Keeps s s1 := (g.drawRecords ..).fst e1
  exact h1.setPend ..

theorem Keeps.loseSeals (h : Keeps s u) (k status : Nat) : Keeps s (u.loseSeals k status) := by
  unfold State.loseSeals
  refine h.foldl _ _ fun v x g => ?_
  split
  exact .ite (g.sealError ..) g

theorem Keeps.clearDefect (h : Keeps s u) (c e : Nat) : Keeps s (u.clearDefect c e) := by
  unfold State.clearDefect
  extract_lets x back s1 s2
  have hback {v : State} (g : Keeps s v) (x1 : Nat) : Keeps s (back v x1) := by
    unfold back
    exact g.setClass ..
  have h1 : Keeps s s1 := h.setCasement ..
  have h2 : Keeps s s2 := h1.foldl _ _ fun _ _ g => .ite (hback g ..) g
  exact .ite ((h2.setn ..).defectsChanged ..) (Keeps.defectsChanged (hback (h.setCasement ..) ..) ..)

theorem Keeps.newSupply (h : Keeps s u) (c full : Nat) : Keeps s (u.newSupply c full) := by
  unfold State.newSupply
  extract_lets x s1
  have h1 : Keeps s s1 := h.setCasement ..
  exact ((h1.setn ..).setn ..).consumableStatus ..

theorem Keeps.charge (h : Keeps s u) (c v : Nat) : Keeps s (u.charge c v) := by
  unfold State.charge
  extract_lets s1
  have h1 : Keeps s s1 := (h.setn ..).consumableStatus ..
  exact .ite (h1.setCasement ..) h1

theorem Keeps.keepBlocks (h : Keeps s u) (l : List (Nat × Nat × Nat)) : Keeps s (u.keepBlocks l) := by
  unfold State.keepBlocks
  exact h.update (by rfl)

theorem Keeps.unpin (h : Keeps s u) (n : Nat) : Keeps s (u.unpin n) := by
  unfold State.unpin
  split
  · exact h.keepBlocks ..
  · exact h

theorem Keeps.releaseSet (h : Keeps s u) (n : Nat) : Keeps s (u.releaseSet n) := by
  unfold State.releaseSet
  split
  · exact .ite (h.unpin ..) h
  · exact h

theorem Keeps.applyChange (h : Keeps s u) (ch : Change) : Keeps s (u.applyChange ch) := by
  unfold State.applyChange
  extract_lets
  split
  · extract_lets s1
    have h1 : Keeps s s1 := h.update (by rfl)
    exact h1.recompose ..
  · extract_lets s1 _ s2 s3
    have h1 : Keeps s s1 := h.releaseSet ..
    have h2 : Keeps s s2 := h1.update (by rfl)
    have h3 : Keeps s s3 := .ite (h2.keepBlocks ..) (((h2.setn ..).setn ..).setn ..)
    exact h3.recompose ..
  · exact h.redraw ..
  · exact h.giveRecords ..
  · exact h.loseSeals ..
  · exact h.loseSeals ..
  · extract_lets x s1
    have h1 : Keeps s s1 := .ite h (h.setCasement ..)
    exact h1.declare ..
  · extract_lets x es s1
    have h1 : Keeps s s1 := h.setCasement ..
    exact h1.clearDefect ..
  · exact h.newSupply ..
  · exact h.charge ..
  · exact (h.setn ..).consumableStatus ..

theorem Keeps.applyChanges (h : Keeps s u) (t : Time) : Keeps s (u.applyChanges t) := by
  unfold State.applyChanges
  extract_lets
  split
  extract_lets s1 s2
  have h1 : Keeps s s1 := (h.update (by rfl)).settle ..
  have h2 : Keeps s s2 := h1.foldl _ _ fun _ _ g => g.applyChange ..
  exact .ite h2 (h2.recompose ..)

theorem Keeps.startComposition (h : Keeps s u) (c : Nat) : Keeps s (u.startComposition c) := by
  unfold State.startComposition
  extract_lets x used k _ s1
  have h1 : Keeps s s1 := h.update (by rfl)
  split
  · exact .ite (h1.beginMark ..) h
  · exact h

theorem execCompositionStart_keeps (t : Time) (c : Fin 48) (s : State) :
    KeepsNext s (execCompositionStart t c s) := by
  unfold execCompositionStart
  exact ((((Keeps.refl s).tick ..).applyChanges ..).startComposition ..).next

theorem Keeps.setJob (h : Keeps s u) (c : Nat) (m : Mark) : Keeps s (u.setJob c m) := by
  unfold State.setJob
  exact .ite (h.setOpen ..) (h.setPend ..)

theorem Keeps.pair (h : Keeps s u) (c : Nat) : Keeps s (u.pair c) := by
  unfold State.pair
  extract_lets
  split
  · exact (h.setCasement ..).setPend ..
  · exact h

theorem Keeps.rePair (h : Keeps s u) (c : Nat) (r : ReqEntry) : Keeps s (u.rePair c r) := by
  unfold State.rePair
  extract_lets x waits had s1 s2
  have h1 : Keeps s s1 := h.setCasement ..
  have h2 : Keeps s s2 := h1.foldl _ _ fun _ _ g => g.pair ..
  refine h2.foldl _ _ fun v x g => ?_
  split
  · exact g.beginMark ..
  · exact g

theorem Keeps.leadFinish (h : Keeps s u) (c : Nat) (m : Mark) (incomplete : Bool) :
    Keeps s (u.leadFinish c m incomplete) := by
  unfold State.leadFinish
  extract_lets bad
  split
  rename_i s1 e
  have h1 : Keeps s s1 := Keeps.snd (.ite_snd (h.rejectTag ..) h) e
  exact ((h1.update (by rfl)).setCasement ..).complete ..

theorem Keeps.leadTry (h : Keeps s u) (id : MarkId) : Keeps s (u.leadTry id) := by
  unfold State.leadTry
  extract_lets
  split
  · exact .ite (h.leadFinish ..) h
  · exact h

theorem Keeps.report (h : Keeps s u) (c : Nat) (m : Mark) : Keeps s (u.report c m) := by
  unfold State.report
  split
  · exact h
  · refine .ite h ?_
    refine .ite ?_ (h.unicast ..)
    split
    · exact (h.setStitch ..).leadTry ..
    · exact h

theorem Keeps.overflowAnchor (h : Keeps s u) (c : Nat) (m : Mark) : Keeps s (u.overflowAnchor c m) := by
  unfold State.overflowAnchor
  extract_lets s1
  have h1 : Keeps s s1 := (h.bump ..).event ..
  split
  rename_i s2 e1
  have h2 : Keeps s s2 := (h1.rejectTag ..).snd e1
  extract_lets _ s3
  have h3 : Keeps s s3 := (h2.bump ..).setn ..
  exact (h3.complete ..).report ..

theorem Keeps.capture (h : Keeps s u) (c : Nat) (key : TagKey) (a : Int) (t : Time) (req : Option ReqEntry)
    (stitch : Option MarkId) (sent : Option (Nat × Nat)) :
    Keeps s (u.capture c key a t req stitch sent) := by
  unfold State.capture
  extract_lets x k _ s1 _ base _ src1 seq need m s2 s3
  have h1 : Keeps s s1 := h.update (by rfl)
  have h2 : Keeps s s2 := .ite (h1.setn ..) h1
  have h3 : Keeps s s3 := h2.setCasement ..
  exact .ite (h1.overflowAnchor ..) ((h3.setn ..).pair ..)

theorem Keeps.leadAnchor (h : Keeps s u) (c : Nat) (key : TagKey) (a : Int) (t : Time) (req : Option ReqEntry) :
    Keeps s (u.leadAnchor c key a t req) := by
  unfold State.leadAnchor
  extract_lets id full s1
  have h1 : Keeps s s1 := h.capture ..
  refine .ite h1 ?_
  split
  · exact h1
  · extract_lets tpl payload st s2 s3
    have h2 : Keeps s s2 := h1.update (by rfl)
    have h3 : Keeps s s3 := h2.foldl _ _ fun _ _ g => g.unicast ..
    refine h3.foldl _ _ fun v x g => ?_
    split
    exact .ite (g.capture ..) g

theorem Keeps.refuse (h : Keeps s u) (c : Nat) (m : Mark) (fails : Nat) : Keeps s (u.refuse c m fails) := by
  unfold State.refuse
  extract_lets tD vT good void s1 s2 s3 s4
  have h1 : Keeps s s1 := h.foldl _ _ fun _ _ g => g.setQ ..
  have h3 : Keeps s s3 := (h1.withdraw ..).dropPend ..
  have h4 : Keeps s s4 := by
    unfold s4
    split
    · exact .ite (h3.rePair ..) h3
    · exact h3
  split
  rename_i s5 e
  have h5 : Keeps s s5 := Keeps.snd (.ite_snd h4 (h4.rejectTag ..)) e
  exact ((((h5.bump ..).setn ..).complete ..).report ..)

theorem Keeps.abandonMeasure (h : Keeps s u) (c : Nat) : Keeps s (u.abandonMeasure c) := by
  unfold State.abandonMeasure
  extract_lets x s1 s2
  have h1 : Keeps s s1 := h.setCasement ..
  have h2 : Keeps s s2 := .ite (h1.bump ..) h1
  split
  · extract_lets s3
    have h3 : Keeps s s3 := .ite (h2.measPulse ..) h2
    exact .ite (.ite (Keeps.sendCancel (.ite (h3.send ..) h3) ..) h3) h
  · exact h

theorem Keeps.commitMark (h : Keeps s u) (c : Nat) (m : Mark) : Keeps s (u.commitMark c m) := by
  unfold State.commitMark
  extract_lets s1 s2 _ x s3 s4 s5 s6
  have h1 : Keeps s s1 := h.abandonMeasure ..
  have h2 : Keeps s s2 := h1.dropPend ..
  have h3 : Keeps s s3 := h2.setCasement ..
  have h4 : Keeps s s4 := (h3.setn ..).bump ..
  have h5 : Keeps s s5 := h4.setn ..
  have h6 : Keeps s s6 := .ite (h5.setCas ..) h5
  exact h6.talCount ..

theorem Keeps.shortage (h : Keeps s u) (c fails : Nat) : Keeps s (u.shortage c fails) := by
  unfold State.shortage
  exact .ite ((h.setbit ..).event ..) (h.setbit ..)

theorem Keeps.stitchEnd (h : Keeps s u) (c : Nat) (id : MarkId) (go : Bool) : Keeps s (u.stitchEnd c id go) := by
  unfold State.stitchEnd
  split
  · exact .ite (h.commitMark ..) (h.refuse ..)
  · exact h

theorem Keeps.stitchDecide (h : Keeps s u) (x : Stitch) (go : Bool) : Keeps s (u.stitchDecide x go) := by
  unfold State.stitchDecide
  extract_lets c s1 s2 s3
  have h1 : Keeps s s1 := h.setStitch ..
  have h2 : Keeps s s2 := .ite h1 ((h1.bump ..).event ..)
  have h3 : Keeps s s3 := h2.multicast ..
  exact h3.foldl _ _ fun _ _ g => g.stitchEnd ..

theorem Keeps.stitchTest (h : Keeps s u) (id : MarkId) : Keeps s (u.stitchTest id) := by
  unfold State.stitchTest
  split
  · exact h
  · exact .ite h (.ite (h.stitchDecide ..) (.ite (h.stitchDecide ..) h))

theorem Keeps.addVote (h : Keeps s u) (id : MarkId) (node c : Nat) (yes : Bool) (dl : Nat) :
    Keeps s (u.addVote id node c yes dl) := by
  unfold State.addVote
  split
  · exact .ite h ((h.setStitch ..).stitchTest ..)
  · exact h

theorem Keeps.castVote (h : Keeps s u) (c : Nat) (m : Mark) (id : MarkId) (fails : Nat) :
    Keeps s (u.castVote c m id fails) := by
  unfold State.castVote
  extract_lets dl s1
  have h1 : Keeps s s1 := h.setPend ..
  exact .ite (h1.addVote ..) (h1.unicast ..)

theorem Keeps.decide_ (h : Keeps s u) (c : Nat) (m : Mark) : Keeps s (u.decide_ c m) := by
  unfold State.decide_
  extract_lets tD _ _ fails s1
  have h1 : Keeps s s1 := h.shortage ..
  split
  · exact h1.castVote ..
  · exact .ite (h1.commitMark ..) (h1.refuse ..)

theorem Keeps.decideLost (h : Keeps s u) (k : Nat) : Keeps s (u.decideLost k) := by
  unfold State.decideLost
  extract_lets s1
  have h1 : Keeps s s1 := h.applyChanges ..
  refine h1.foldl _ _ fun v x g => ?_
  refine .ite ?_ g
  refine g.foldl _ _ fun v x g => ?_
  split
  · exact g.decide_ ..
  · exact g

/-! ## The one-time array -/

theorem Keeps.otpPut (h : Keeps s u) (r word : Nat) : Keeps s (u.otpPut r word) := by
  unfold State.otpPut
  exact h.update (by rfl)

theorem Keeps.otpReadOut (h : Keeps s u) (row raw : Nat) (weak : Bool) : Keeps s (u.otpReadOut row raw weak) := by
  unfold State.otpReadOut
  refine .ite (h.update (by rfl)) ?_
  split
  · exact h.update (by rfl)
  · split
    extract_lets
    split
    rename_i s1 e
    have h1 : Keeps s s1 := Keeps.snd (.ite_snd (h.free ..) h) e
    extract_lets _ s2
    have h2 : Keeps s s2 := .ite (h1.update (by rfl)) h1
    exact h2.update (by rfl)

theorem Keeps.otpRead (h : Keeps s u) : Keeps s u.otpRead := by
  unfold State.otpRead
  exact .ite (h.update (by rfl)) (.ite (h.otpReadOut ..) (h.otpReadOut ..))

theorem Keeps.otpMargin (h : Keeps s u) (weak : BitVec 39) : Keeps s (u.otpMargin weak) := by
  unfold State.otpMargin
  extract_lets r _ s1
  have h1 : Keeps s s1 := h.update (by rfl)
  exact .ite (h1.update (by rfl)) (h1.otpReadOut ..)

theorem execOtpRead_keeps (t : Time) (s : State) : KeepsNext s (execOtpRead t s) := by
  unfold execOtpRead
  extract_lets s1
  have h1 : Keeps s s1 := (Keeps.refl s).tick ..
  exact .ite h1.next h1.otpRead.next

theorem execOtpMarginRead_keeps (t : Time) (weak : BitVec 39) (s : State) :
    KeepsNext s (execOtpMarginRead t weak s) := by
  unfold execOtpMarginRead
  extract_lets s1
  have h1 : Keeps s s1 := (Keeps.refl s).tick ..
  exact .ite h1.next (h1.otpMargin ..).next

theorem Keeps.otpStart (h : Keeps s u) (j : OtpJob) : Keeps s (u.otpStart j) := by
  unfold State.otpStart
  exact .ite (h.update (by rfl)) (h.update (by rfl))

theorem Keeps.otpRedirect {v : State} (h : Keeps s u) {r word : Nat} (e : u.otpRedirect r word = some v) :
    Keeps s v := by
  unfold State.otpRedirect at e
  extract_lets n _ s1 s2 at e
  split at e
  · cases e
  · obtain rfl := Option.some.inj e
    have h2 : Keeps s s2 := ((Keeps.update (u := u) (v := s1) h (by rfl)).otpPut ..).setn .. |>.event ..
    exact .ite (h2.event ..) h2

theorem Keeps.otpBurn (h : Keeps s u) (r v : Nat) (weak : Bool) : Keeps s (u.otpBurn r v weak).2 := by
  unfold State.otpBurn
  extract_lets fail word raw s1
  have hfail {v : State} (g : Keeps s v) : Keeps s (fail v).2 := (g.fault ..).event ..
  have h1 : Keeps s s1 := h.otpPut ..
  split
  · extract_lets s2
    have h2 : Keeps s s2 := h.foldl _ _ fun _ _ g => g.otpPut ..
    refine .ite_snd ?_ h2
    split
    · exact h2.otpRedirect ‹_›
    · exact hfail h2
  · refine .ite_snd ?_ (.ite_snd ?_ h1)
    · split
      · exact h.otpRedirect ‹_›
      · exact hfail h
    · split
      · exact h1.otpRedirect ‹_›
      · exact hfail h1

theorem Keeps.otpProgramAct (h : Keeps s u) : Keeps s u.otpProgramAct := by
  unfold State.otpProgramAct
  exact (h.setn ..).otpStart ..

theorem Keeps.lifecycleAct (h : Keeps s u) : Keeps s u.lifecycleAct := by
  unfold State.lifecycleAct
  exact h.otpStart ..

theorem Keeps.policyAct (h : Keeps s u) (lock : Bool) : Keeps s (u.policyAct lock) := by
  unfold State.policyAct
  exact h.otpStart ..

theorem Keeps.revokeKeyAct (h : Keeps s u) (k : Nat) : Keeps s (u.revokeKeyAct k) := by
  unfold State.revokeKeyAct
  exact h.otpStart ..

theorem Keeps.securityAct (h : Keeps s u) (v : Nat) : Keeps s (u.securityAct v) := by
  unfold State.securityAct
  exact .ite h (h.otpStart ..)

theorem Keeps.setSlot (h : Keeps s u) (k v : Nat) : Keeps s (u.setSlot k v) := by
  unfold State.setSlot
  exact .ite h ((h.setn ..).event _ _ _ _)

theorem Keeps.showKey (h : Keeps s u) (k : Nat) : Keeps s (u.showKey k) := by
  have key : ∀ f, f = State.showKey → Keeps s (f u k) := by
    delta State.showKey
    generalize publicKey = pk
    rintro _ rfl
    beta_reduce
    cases pk (u.slotScalar k)
    exact ((h.setv ..).setv ..).setn ..
  exact key _ rfl

theorem Keeps.otpFinish (h : Keeps s u) (j : OtpJob) (res : Nat) : Keeps s (u.otpFinish j res) := by
  unfold State.otpFinish
  extract_lets k _ s1 _ s2
  have h1 : Keeps s s1 := h.update (by rfl)
  have h2 : Keeps s s2 := h.update (by rfl)
  split
  · exact h.setn ..
  · exact .ite ((((h1.setn ..).setn ..).showKey ..).setSlot ..) ((h1.setn ..).setn ..)
  · exact .ite (((h2.setn ..).setn ..).setSlot ..) ((h2.setn ..).setn ..)
  · exact h

theorem execOtpProgramDone_keeps (t : Time) (weak : Bool) (s : State) :
    KeepsNext s (execOtpProgramDone t weak s) := by
  unfold execOtpProgramDone
  extract_lets s1
  have h1 : Keeps s s1 := (Keeps.refl s).tick ..
  split
  · exact h1.next
  · split
    rename_i s2 e1
    have h2 : Keeps s s2 := (h1.otpBurn ..).snd e1
    extract_lets _ s3
    have h3 : Keeps s s3 := h2.otpFinish ..
    split
    · exact (h2.update (by rfl)).next
    · exact (h3.update (by rfl)).next

/-! ## The Compositor -/

theorem Keeps.setCommitting (h : Keeps s u) (k : CommitKind) (c : Option Commit) : Keeps s (u.setCommitting k c) := by
  unfold State.setCommitting
  split <;> exact h.update (by rfl)

theorem Keeps.storeCommit (h : Keeps s u) (k : CommitKind) (c : Commit) (v : Stored) :
    Keeps s (u.storeCommit k c v) := by
  unfold State.storeCommit
  extract_lets ts s1 later _ s2
  have h1 : Keeps s s1 := h.setn ..
  have hlater {v : State} (g : Keeps s v) (x1 : Change) : Keeps s (later v x1) := g.update (by rfl)
  have h2 : Keeps s s2 := h1.update (by rfl)
  split
  · exact hlater (h1.setn ..) ..
  · extract_lets s3
    have h3 : Keeps s s3 := by
      unfold s3
      split
      · exact (h2.setn ..).setn ..
      · exact h2
    exact hlater (h3.setn ..) ..
  · exact h1.update (by rfl)

theorem Keeps.failCommit (h : Keeps s u) (k : CommitKind) (number code : Nat) :
    Keeps s (u.failCommit k number code) := by
  unfold State.failCommit
  exact (h.setn ..).event _ _ _ _

theorem Keeps.endCommit (h : Keeps s u) (k : CommitKind) (c : Commit) : Keeps s (u.endCommit k c).2 := by
  unfold State.endCommit
  split
  split
  · exact h.storeCommit ..
  · exact h.failCommit ..

theorem Keeps.commitAct (h : Keeps s u) (k : CommitKind) (p : Path) : Keeps s (u.commitAct k p) := by
  unfold State.commitAct
  exact .ite (h.endCommit ..) ((h.setCommitting ..).answer ..)

theorem execCommitValidationDone_keeps (t : Time) (kind : CommitKind) (s : State) :
    KeepsNext s (execCommitValidationDone t kind s) := by
  unfold execCommitValidationDone
  extract_lets s1
  have h1 : Keeps s s1 := (Keeps.refl s).tick ..
  split
  · exact h1.next
  · split
    rename_i s2 e1
    have h2 : Keeps s s2 := ((h1.setCommitting ..).endCommit ..).snd e1
    exact (h2.answer ..).next

theorem Keeps.pinAct (h : Keeps s u) (n : Nat) (was : Bool) : Keeps s (u.pinAct n was) := by
  unfold State.pinAct
  refine .ite h ?_
  refine .ite (h.unpin ..) ?_
  split
  · exact h.keepBlocks ..
  · exact h

theorem execTypeCaseFillDone_keeps (t : Time) (set block : Nat) (s : State) :
    KeepsNext s (execTypeCaseFillDone t set block s) := by
  unfold execTypeCaseFillDone
  extract_lets s1
  have h1 : Keeps s s1 := (Keeps.refl s).tick ..
  split
  · exact h1.next
  · extract_lets s2
    have h2 : Keeps s s2 := h1.update (by rfl)
    refine Keeps.next ?_
    refine h2.foldl _ _ fun v x g => ?_
    split
    exact .ite (g.setPend ..) g

theorem Keeps.cacheUse (h : Keeps s u) (t : Template) : Keeps s (u.cacheUse t) := by
  unfold State.cacheUse
  exact .ite (h.update (by rfl)) ((h.update (by rfl)).bump ..)

theorem Keeps.lookUp (h : Keeps s u) (u0 : Nat) (m : Mark) (bs : List (Nat × Nat × Nat)) :
    Keeps s (u.lookUp u0 m bs).2.1 := by
  unfold State.lookUp
  refine Keeps.foldl_proj (fun a : Bool × State × Mark => a.2.1) _ _ (fun a b g => ?_) h
  obtain ⟨ok, v, m'⟩ := a
  dsimp only at g ⊢
  split
  · exact g
  · split
    · exact .ite (g.update (by rfl)) g
    · split
      · exact (g.bump (ky 0x5000 5)).update (by rfl)
      · exact g

theorem Keeps.issueSeals (h : Keeps s u) (c : Nat) (t : Template) (m : Mark) : Keeps s (u.issueSeals c t m).1 := by
  unfold State.issueSeals
  refine Keeps.foldl_proj Prod.fst _ _ (fun a q g => ?_) h
  obtain ⟨v, m'⟩ := a
  dsimp only at g ⊢
  split
  · exact g
  · split
    · exact (g.update (by rfl)).setn ..
    · exact g

theorem Keeps.prepField (h : Keeps s u) (u0 c : Nat) (t : Template) (m : Mark) (i : Nat) (f : Field) :
    Keeps s (u.prepField u0 c t m i f).2.1 := by
  unfold State.prepField
  extract_lets x s1
  have h1 : Keeps s s1 := .ite (h.event ..) h
  split
  · exact h
  · exact h
  · split
    rename_i s2 _ e1
    have h2 : Keeps s s2 := (h1.lookUp ..).snd_fst e1
    extract_lets k s3 s4
    have h3 : Keeps s s3 := h2.bumpBy ..
    have h4 : Keeps s s4 := .ite (h3.event ..) h3
    split
    · exact h2
    · split
      · exact h2
      · extract_lets s5
        have h5 : Keeps s s5 := h4.bumpBy ..
        split
        rename_i s6 _ e2
        have h6 : Keeps s s6 := (h5.issueSeals ..).fst e2
        exact h6

theorem Keeps.prepare (h : Keeps s u) (u0 c : Nat) (t : Template) (m : Mark) : Keeps s (u.prepare u0 c t m).2.1 := by
  unfold State.prepare
  refine Keeps.foldl_proj (fun a : Prep × State × Mark => a.2.1) _ _ (fun a x g => ?_) h
  dsimp only
  split
  · exact g
  · exact g.prepField ..

theorem Keeps.unitWork (h : Keeps s u) (u0 c : Nat) (m : Mark) (t : Template) : Keeps s (u.unitWork u0 c m t) := by
  unfold State.unitWork
  extract_lets ne row0 line s1
  have h1 : Keeps s s1 := h.cacheUse ..
  refine .ite (h.setJob ..) ?_
  refine .ite ((h1.setPend ..).fieldError ..) ?_
  split
  · rename_i s2 _ e1
    have h2 : Keeps s s2 := (h1.prepare ..).snd_fst e1
    exact (h2.setPend ..).fieldError ..
  · rename_i s2 _ _ e1
    have h2 : Keeps s s2 := (h1.prepare ..).snd_fst e1
    exact h2.setPend ..

theorem execCompositionUnitDispatch_keeps (t : Time) (u0 : Fin 8) (s : State) :
    KeepsNext s (execCompositionUnitDispatch t u0 s) := by
  unfold execCompositionUnitDispatch
  extract_lets s1
  have h1 : Keeps s s1 := ((Keeps.refl s).tick ..).applyChanges ..
  split
  · split
    · exact (h1.unitWork ..).next
    · exact h1.next
  · exact h1.next

theorem execGalleyRefillDone_keeps (t : Time) (c : Fin 48) (line : Nat) (s : State) :
    KeepsNext s (execGalleyRefillDone t c line s) := by
  unfold execGalleyRefillDone
  extract_lets s1
  have h1 : Keeps s s1 := (Keeps.refl s).tick ..
  exact (h1.setCasement ..).next

/-! ## The Notary unit -/

theorem Keeps.setNotary (h : Keeps s u) (n : Notary) : Keeps s (u.setNotary n) := by
  unfold State.setNotary
  exact h.update (by rfl)

theorem execNotaryDispatch_keeps (t : Time) (s : State) : KeepsNext s (execNotaryDispatch t s) := by
  unfold execNotaryDispatch
  extract_lets s1
  have h1 : Keeps s s1 := (Keeps.refl s).tick ..
  refine .ite h1.next ?_
  split
  · extract_lets
    exact ((h1.setNotary ..).setn ..).next
  · split
    · exact (h1.setNotary ..).next
    · exact (h1.setNotary ..).next
    · exact h1.next

theorem Keeps.deliverSeal (h : Keeps s u) (r : NReq) (st : Nat) (sig : Bytes) : Keeps s (u.deliverSeal r st sig) := by
  unfold State.deliverSeal
  extract_lets s1
  have h1 : Keeps s s1 := h.bump ..
  split
  · exact h
  · exact .ite (h1.setPend ..) (h.sealError ..)

theorem execNotaryOperationDone_keeps (t : Time) (s : State) : KeepsNext s (execNotaryOperationDone t s) := by
  unfold execNotaryOperationDone
  extract_lets s1 n s2
  have h1 : Keeps s s1 := (Keeps.refl s).tick ..
  have h2 : Keeps s s2 := (h1.setNotary ..).bump ..
  split
  · exact h1.next
  · refine .ite h1.next ?_
    split
    · split
      exact .ite h2.next ((h2.setn ..).deliverSeal ..).next
    · extract_lets
      exact ((h2.setn ..).setn ..).next
    · extract_lets st s3
      have h3 : Keeps s s3 := h2.update (by rfl)
      refine .ite ((h2.setn ..).setn ..).next ?_
      split
      · exact (h3.otpStart ..).next
      · exact h3.next

theorem Keeps.importAct (h : Keeps s u) : Keeps s u.importAct := by
  unfold State.importAct
  extract_lets k x s1
  have h1 : Keeps s s1 := (h.setv ..).setn ..
  exact h1.update (by rfl)

theorem Keeps.revokeAct (h : Keeps s u) : Keeps s u.revokeAct := by
  unfold State.revokeAct
  extract_lets k s1 _ _ s2
  have h1 : Keeps s s1 := h.setn ..
  have h2 : Keeps s s2 := h1.update (by rfl)
  exact .ite ((h.setn ..).setn ..) (.ite ((h.setn ..).setn ..) (h2.otpStart ..))

theorem Keeps.verifyAct (h : Keeps s u) : Keeps s u.verifyAct := by
  unfold State.verifyAct
  exact (h.update (by rfl)).setn ..

/-! ## General inputs -/

theorem Keeps.ginReject (h : Keeps s u) (n : Nat) : Keeps s (u.ginReject n) := by
  unfold State.ginReject
  exact h.bump ..

theorem execGinPulseRejected_keeps (t : Time) (n : Fin 64) (s : State) :
    KeepsNext s (execGinPulseRejected t n s) := by
  unfold execGinPulseRejected
  extract_lets s1
  have h1 : Keeps s s1 := (Keeps.refl s).tick ..
  exact .ite h1.next (h1.ginReject ..).next

theorem execInputInactive_keeps (t : Time) (n : Fin 64) (s : State) : KeepsNext s (execInputInactive t n s) := by
  unfold execInputInactive
  extract_lets s1
  have h1 : Keeps s s1 := (Keeps.refl s).tick ..
  exact .ite h1.next (h1.setGin ..).next

theorem execGinStuckTimeout_keeps (t : Time) (n : Fin 64) (s : State) : KeepsNext s (execGinStuckTimeout t n s) := by
  unfold execGinStuckTimeout
  extract_lets s1 x s2
  have h1 : Keeps s s1 := (Keeps.refl s).tick ..
  have h2 : Keeps s s2 := h1.setGin ..
  exact .ite (h2.foldl _ _ fun _ _ g => .ite ((g.event ..).fault ..) g).next h1.next

theorem Keeps.plsRescale (h : Keeps s u) (n old new : Nat) : Keeps s (u.plsRescale n old new) := by
  unfold State.plsRescale
  exact h.setPls ..

theorem Keeps.plsEnable (h : Keeps s u) (n : Nat) : Keeps s (u.plsEnable n) := by
  unfold State.plsEnable
  exact h.setPls ..

/-! ## The ports of a casement -/

theorem Keeps.dropUsage (h : Keeps s u) (c : Nat) : Keeps s (u.dropUsage c) := by
  unfold State.dropUsage
  exact (h.setCasement ..).bumpBy ..

theorem Keeps.showRecord (h : Keeps s u) (c : Nat) (r : Bytes) : Keeps s (u.showRecord c r) := by
  unfold State.showRecord
  exact (h.setv ..).setn ..

theorem Keeps.loadRecord (h : Keeps s u) (c : Nat) (r : Bytes) : Keeps s (u.loadRecord c r) := by
  unfold State.loadRecord
  extract_lets x new lost s1 s2 s3 _ s4
  have h1 : Keeps s s1 := h.setCasement ..
  have h2 : Keeps s s2 := .ite (h1.bump ..) h1
  have h3 : Keeps s s3 := ((h2.showRecord ..).fillTable ..).dropUsage ..
  have h4 : Keeps s s4 := .ite (h3.update (by rfl)) h3
  exact .ite (h4.ledgerInit ..) h4

theorem Keeps.changeRecord (h : Keeps s u) (c : Nat) (r : Bytes) : Keeps s (u.changeRecord c r) := by
  unfold State.changeRecord
  extract_lets s1
  have h1 : Keeps s s1 := h.loadRecord ..
  exact .ite (h1.setn ..) h1

theorem Keeps.takeHeld (h : Keeps s u) (c : Nat) : Keeps s (u.takeHeld c) := by
  unfold State.takeHeld
  split
  · exact h.loadRecord ..
  · exact h

theorem Keeps.svcEnd (h : Keeps s u) (c : Nat) (v : Svc) (res : Nat) : Keeps s (u.svcEnd c v res) := by
  unfold State.svcEnd
  exact (h.setCasement ..).startProgram ..

theorem Keeps.pollFailed (h : Keeps s u) (c : Nat) : Keeps s (u.pollFailed c) := by
  unfold State.pollFailed
  extract_lets x n s1 s2
  have h1 : Keeps s s1 := h.setCasement ..
  have h2 : Keeps s s2 := by
    unfold s2
    split
    · exact .ite h1 (h1.svcEnd ..)
    · exact h1
  refine .ite h1 ?_
  split
  · exact h1.setCas ..
  · exact h2.setCas ..
  · exact h1.casFault ..
  · exact h1.casFault ..
  · exact h1.casFault ..
  · exact h1

theorem Keeps.holdRecord (h : Keeps s u) (c : Nat) (r : Bytes) : Keeps s (u.holdRecord c r) := by
  unfold State.holdRecord
  exact h.setCasement ..

theorem Keeps.recordRead (h : Keeps s u) (c : Nat) (r : Bytes) : Keeps s (u.recordRead c r) := by
  unfold State.recordRead
  extract_lets x s1 same differs st s2 s3
  have h1 : Keeps s s1 := h.setCasement ..
  have h2 : Keeps s s2 := .ite (h1.event ..) h1
  clear_value st
  split
  · exact .ite ((h2.loadRecord ..).setCas ..) (h2.showRecord ..)
  · exact h2.changeRecord ..
  · exact h2.changeRecord ..
  · exact (h2.showRecord ..).holdRecord ..
  · have h3 : Keeps s s3 := (h2.showRecord ..).holdRecord ..
    exact .ite h3 (.ite (h3.casFault ..) (.ite h3 (((h3.setn ..).event ..).casFault ..)))

theorem Keeps.sillAsk (h : Keeps s u) (c : Nat) (k : SillKind) : Keeps s (u.sillAsk c k) := by
  unfold State.sillAsk
  exact h.setCasement ..

theorem execSillTransactionStart_keeps (t : Time) (c : Fin 48) (s : State) :
    KeepsNext s (execSillTransactionStart t c s) := by
  unfold execSillTransactionStart
  extract_lets s1
  have h1 : Keeps s s1 := (Keeps.refl s).tick ..
  split
  · exact ((h1.setCasement ..).send ..).next
  · exact h1.next

theorem Keeps.sillOk (h : Keeps s u) (c : Nat) (k : SillKind) (d : Bytes) : Keeps s (u.sillOk c k d) := by
  unfold State.sillOk
  split
  · exact .ite (h.sillAsk ..) (h.setCasement ..)
  · exact h.recordRead ..
  · exact h
  · exact (h.setv ..).setn ..
  · exact h.setn ..
  · exact (h.setn ..).consumableStatus ..

theorem Keeps.sillFailed (h : Keeps s u) (c : Nat) (k : SillKind) (res : Nat) : Keeps s (u.sillFailed c k res) := by
  unfold State.sillFailed
  extract_lets s1
  have h1 : Keeps s s1 := (h.bump ..).event ..
  split
  · exact h1.pollFailed ..
  · exact h1.pollFailed ..
  · exact h1.setCasement ..
  · exact Keeps.setn (.ite h1 h) ..
  · exact Keeps.setn (.ite h1 h) ..
  · exact h1

theorem execSillTransactionDone_keeps (t : Time) (c : Fin 48) (r : SillReply) (s : State) :
    KeepsNext s (execSillTransactionDone t c r s) := by
  unfold execSillTransactionDone
  extract_lets s1 x idle
  have h1 : Keeps s s1 := (Keeps.refl s).tick ..
  split
  · exact h1.next
  · refine .ite h1.next ?_
    extract_lets again bad
    have hidle : Keeps s idle := h1.setCasement ..
    have hagain (f b us : Nat) : Keeps s (again f b us) := h1.setCasement ..
    have hbad : KeepsNext s bad := Keeps.next (.ite (hagain ..) (hidle.sillFailed ..))
    split
    · exact .ite (.ite (hidle.sillOk ..).next hbad)
        (.ite (Keeps.next (.ite (hagain ..) (hidle.sillFailed ..))) (.ite (hidle.sillFailed ..).next hbad))
    · exact hbad

theorem execSillRetry_keeps (t : Time) (c : Fin 48) (s : State) : KeepsNext s (execSillRetry t c s) := by
  unfold execSillRetry
  extract_lets s1
  have h1 : Keeps s s1 := (Keeps.refl s).tick ..
  split
  · exact .ite ((h1.setCasement ..).send ..).next h1.next
  · exact h1.next

theorem execHeadPoll_keeps (t : Time) (c : Fin 48) (s : State) : KeepsNext s (execHeadPoll t c s) := by
  unfold execHeadPoll
  extract_lets s1
  have h1 : Keeps s s1 := (Keeps.refl s).tick ..
  exact .ite ((h1.setCasement ..).sillAsk ..).next h1.next

theorem Keeps.svcAct (h : Keeps s u) (c v : Nat) : Keeps s (u.svcAct c v) := by
  unfold State.svcAct
  exact (h.setn ..).sillAsk ..

theorem Keeps.analogBit (h : Keeps s u) (c i ev : Nat) (on : Bool) : Keeps s (u.analogBit c i ev on) := by
  unfold State.analogBit
  extract_lets k was s1
  have h1 : Keeps s s1 := h.setbit ..
  exact .ite (h1.event ..) h1

theorem execAdcConversion_keeps (t : Time) (c : Fin 48) (pin : AdcPin) (code : Nat) (s : State) :
    KeepsNext s (execAdcConversion t c pin code s) := by
  unfold execAdcConversion
  extract_lets s1 j i s2 k x s3 s4 mv s5 s6
  have h1 : Keeps s s1 := (Keeps.refl s).tick ..
  have h2 : Keeps s s2 := h1.update (by rfl)
  have h3 : Keeps s s3 := (h2.analogBit ..).analogBit ..
  have h4 : Keeps s s4 := h3.setCasement ..
  have h5 : Keeps s s5 := h2.setCasement ..
  have h6 : Keeps s s6 := (h5.setn ..).setn ..
  refine .ite h1.next ?_
  split
  · split
    · exact h2.next
    · extract_lets s7
      have h7 : Keeps s s7 := (h4.setn ..).setn ..
      exact .ite (((h2.setCasement ..).analogBit ..).analogBit ..).next <|
        .ite (((h2.setCasement ..).analogBit ..).analogBit ..).next (Keeps.next (.ite (h7.analogBit ..) h7))
  · exact Keeps.next (.ite (h6.analogBit ..) h6)
  · exact h2.next

theorem execVddaReferenceConversion_keeps (t : Time) (j : Fin 8) (code : Nat) (s : State) :
    KeepsNext s (execVddaReferenceConversion t j code s) := by
  unfold execVddaReferenceConversion
  extract_lets s1
  have h1 : Keeps s s1 := (Keeps.refl s).tick ..
  exact .ite h1.next (h1.update (by rfl)).next

theorem Keeps.svcMeasure (h : Keeps s u) (c : Nat) : Keeps s (u.svcMeasure c) := by
  unfold State.svcMeasure
  extract_lets
  split
  · extract_lets
    exact .ite ((h.setCasement ..).measLoad ..) (h.svcEnd ..)
  · exact h

theorem Keeps.startTraining (h : Keeps s u) (c why : Nat) : Keeps s (u.startTraining c why) := by
  unfold State.startTraining
  exact .ite ((h.setCasement ..).send ..) (h.setCasement ..)

theorem Keeps.tryTraining (h : Keeps s u) (c : Nat) : Keeps s (u.tryTraining c) := by
  unfold State.tryTraining
  exact .ite (h.startTraining ..) h

theorem execTrainingEnd_keeps (t : Time) (c : Fin 48) (s : State) : KeepsNext s (execTrainingEnd t c s) := by
  unfold execTrainingEnd
  extract_lets s1 x s2 s3
  have h1 : Keeps s s1 := (Keeps.refl s).tick ..
  have h2 : Keeps s s2 := h1.setCasement ..
  have h3 : Keeps s s3 := h2.sendSashes ..
  split
  · exact .ite h1.next (.ite (h1.setCasement ..).next (Keeps.next (.ite (h3.svcMeasure ..) h3)))
  · exact h1.next

theorem execStrobeLimit_keeps (t : Time) (c : Fin 48) (overlap : Bool) (s : State) :
    KeepsNext s (execStrobeLimit t c overlap s) := by
  unfold execStrobeLimit
  extract_lets s1 acts x s2 _ s3 s4 s5
  have h1 : Keeps s s1 := (Keeps.refl s).tick ..
  have h2 : Keeps s s2 := by
    unfold s2
    split
    · exact .ite ((h1.measPulse ..).send ..) h1
    · exact h1
  have h3 : Keeps s s3 := h2.setCasement ..
  have h4 : Keeps s s4 := h3.stopPulses ..
  have h5 : Keeps s s5 := (h4.bump ..).event ..
  exact .ite h1.next (h5.fault ..).next

/-! ## The states of a casement -/

theorem Keeps.armEnforce (h : Keeps s u) (c : Nat) : Keeps s (u.armEnforce c) := by
  unfold State.armEnforce
  extract_lets b s1
  have h1 : Keeps s s1 := h.foldl _ _ fun _ _ g => g.enforce ..
  exact h1.foldl _ _ fun _ _ g => g.enforce ..

theorem Keeps.usageFlush (h : Keeps s u) (c : Nat) : Keeps s (u.usageFlush c) := by
  unfold State.usageFlush
  extract_lets x k s1 s2
  have h1 : Keeps s s1 := h.setCasement ..
  have h2 : Keeps s s2 := h1.foldl _ _ fun _ _ g => g.sillAsk ..
  exact .ite h2 (h2.sillAsk ..)

theorem Keeps.beginPowerDown (h : Keeps s u) (c target : Nat) : Keeps s (u.beginPowerDown c target) := by
  unfold State.beginPowerDown
  extract_lets s1 x running s2
  have h1 : Keeps s s1 := h.usageFlush ..
  have h2 : Keeps s s2 := h1.setCasement ..
  exact .ite h2 (h2.startProgram ..)

theorem Keeps.toService (h : Keeps s u) (c : Nat) : Keeps s (u.toService c) := by
  unfold State.toService
  extract_lets x s1 s2 s3
  have h1 : Keeps s s1 := h.setCasement ..
  have h2 : Keeps s s2 := ((h1.setn ..).setCas ..).takeHeld ..
  have h3 : Keeps s s3 := .ite (h2.ledgerInit ..) h2
  exact h3.sillAsk ..

theorem Keeps.toCold (h : Keeps s u) (c : Nat) : Keeps s (u.toCold c) := by
  unfold State.toCold
  extract_lets x s1
  have h1 : Keeps s s1 := h.setCasement ..
  exact ((h1.setn ..).setCas ..).takeHeld ..

theorem Keeps.faultToCold (h : Keeps s u) (c : Nat) : Keeps s (u.faultToCold c) := by
  unfold State.faultToCold
  exact (h.toCold ..).setn ..

theorem Keeps.svcRails (h : Keeps s u) (c : Nat) : Keeps s (u.svcRails c) := by
  unfold State.svcRails
  extract_lets
  split
  · exact .ite h (h.setCasement ..)
  · exact h

theorem Keeps.casDownDone (h : Keeps s u) (c : Nat) : Keeps s (u.casDownDone c) := by
  unfold State.casDownDone
  extract_lets x s1
  have h1 : Keeps s s1 := by
    unfold s1
    split
    · exact (h.setCasement ..).setn ..
    · exact h
  split
  · exact .ite (h1.faultToCold ..) (h1.setCasement ..)
  · exact .ite (h1.setCasement ..) (.ite (h1.toService ..) (h1.toCold ..))
  · exact h1

theorem Keeps.armFail (h : Keeps s u) (c : Nat) : Keeps s (u.armFail c) := by
  unfold State.armFail
  exact .ite ((h.event ..).beginPowerDown ..) h

theorem Keeps.casUpDone (h : Keeps s u) (c status : Nat) : Keeps s (u.casUpDone c status) := by
  unfold State.casUpDone
  extract_lets
  split
  · extract_lets s1
    have h1 : Keeps s s1 := (h.setCasement ..).startTraining ..
    exact .ite h (.ite (h.svcEnd ..) (.ite h1 (h1.svcMeasure ..)))
  · exact .ite h (.ite (h.armFail ..) (h.tryTraining ..))

theorem Keeps.armAct (h : Keeps s u) (c : Nat) : Keeps s (u.armAct c) := by
  unfold State.armAct
  extract_lets s1 x s2 s3 lat s4 s5
  have h1 : Keeps s s1 := h.armEnforce ..
  have h2 : Keeps s s2 := h1.setCasement ..
  have h3 : Keeps s s3 := (((h2.setn ..).setn ..).setCas ..).fillTable ..
  have h4 : Keeps s s4 := h3.setn ..
  have h5 : Keeps s s5 := h4.setn ..
  exact ((h5.ledgerInit ..).startProgram ..).tryTraining ..

theorem Keeps.casPending (h : Keeps s u) (c : Nat) : Keeps s (u.casPending c) := by
  unfold State.casPending
  exact (h.setbit ..).setbit ..

theorem Keeps.takeCommand (h : Keeps s u) (c : Nat) : Keeps s (u.takeCommand c) := by
  unfold State.takeCommand
  extract_lets x due yes target
  refine .ite h ?_
  clear_value target
  split
  · exact .ite h (h.beginPowerDown ..)
  · exact h

theorem Keeps.takeCommands (h : Keeps s u) : Keeps s u.takeCommands := by
  unfold State.takeCommands
  exact h.foldl _ _ fun _ _ g => g.takeCommand ..

theorem Keeps.casAct (h : Keeps s u) (c cmd : Nat) : Keeps s (u.casAct c cmd) := by
  unfold State.casAct
  extract_lets x st s1 s2 s3
  have h1 : Keeps s s1 := (h.setCasement ..).casPending ..
  have h2 : Keeps s s2 := by
    unfold s2
    split
    · exact .ite h (h.svcEnd ..)
    · exact h
  have h3 : Keeps s s3 := h.setCasement ..
  split
  · exact h.armAct ..
  · exact .ite (h1.beginPowerDown ..) h1
  · exact .ite (h.toService ..) ((h.setCasement ..).casPending ..)
  · exact h2.toCold ..
  · exact .ite (.ite h3 (h3.startProgram ..)) (h.faultToCold ..)
  · exact h

theorem Keeps.afterClose (h : Keeps s u) (c : Nat) : Keeps s (u.afterClose c) := by
  unfold State.afterClose
  exact .ite h ((h.setCas ..).takeCommand ..)

theorem execChangeApply_keeps (t : Time) (s : State) : KeepsNext s (execChangeApply t s) := by
  unfold execChangeApply
  exact (((Keeps.refl s).tick ..).applyChanges ..).takeCommands.next

theorem execArmingComplete_keeps (t : Time) (c : Fin 48) (s : State) : KeepsNext s (execArmingComplete t c s) := by
  unfold execArmingComplete
  extract_lets s1
  have h1 : Keeps s s1 := (Keeps.refl s).tick ..
  exact .ite (((h1.setCasement ..).setCas ..).sillAsk ..).next h1.next

theorem execArmingTimeout_keeps (t : Time) (c : Fin 48) (s : State) : KeepsNext s (execArmingTimeout t c s) := by
  unfold execArmingTimeout
  extract_lets s1
  have h1 : Keeps s s1 := (Keeps.refl s).tick ..
  exact .ite (h1.armFail ..).next h1.next

theorem execUsageLinesFlush_keeps (t : Time) (c : Fin 48) (s : State) : KeepsNext s (execUsageLinesFlush t c s) := by
  unfold execUsageLinesFlush
  extract_lets s1
  have h1 : Keeps s s1 := (Keeps.refl s).tick ..
  exact .ite (h1.usageFlush ..).next h1.next

theorem execUsageHour_keeps (t : Time) (c : Fin 48) (s : State) : KeepsNext s (execUsageHour t c s) := by
  unfold execUsageHour
  extract_lets s1
  have h1 : Keeps s s1 := (Keeps.refl s).tick ..
  split
  · exact .ite ((h1.setCasement ..).sillAsk ..).next h1.next
  · exact h1.next

/-! ## The Ledger and head service -/

theorem Keeps.measCode (h : Keeps s u) (c vb vh von : Nat) : Keeps s (u.measCode c vb vh von).2 := by
  unfold State.measCode
  extract_lets
  split
  · exact h
  · split
    · split
      rename_i s1 e1
      have h1 : Keeps s s1 := (h.free ..).snd e1
      exact h1
    · exact h

theorem Keeps.measWrite (h : Keeps s u) (c e code : Nat) (service : Bool) :
    Keeps s (u.measWrite c e code service) := by
  unfold State.measWrite
  split
  rename_i s1 e1
  have h1 : Keeps s s1 := (h.useRec ..).snd_snd e1
  extract_lets k revive cls s2
  have h2 : Keeps s s2 := h1.putRec ..
  exact .ite ((h2.setCasement ..).defectsChanged ..) h2

theorem Keeps.gapGo (h : Keeps s u) (c : Nat) (base : Option Time) : Keeps s (u.gapGo c base) := by
  unfold State.gapGo
  extract_lets again _ s1
  have h1 : Keeps s s1 := h.setCasement ..
  split
  · exact h.measLoad ..
  · exact ((h1.setn ..).bump ..).event ..

theorem Keeps.gapTaken (h : Keeps s u) (c e : Nat) : Keeps s (u.gapTaken c e) := by
  unfold State.gapTaken
  exact .ite (h.setCasement ..) ((h.setCasement ..).setn ..)

theorem Keeps.measResult (h : Keeps s u) (c code : Nat) (m : Meas) : Keeps s (u.measResult c code m) := by
  unfold State.measResult
  extract_lets k next s1 s2 s3
  have h1 : Keeps s s1 := .ite (h.gapTaken ..) h
  have h2 : Keeps s s2 := .ite (h1.declare ..) (h1.measWrite ..)
  have h3 : Keeps s s3 := .ite (h2.bump ..) h2
  refine .ite (h.measLoad ..) ?_
  split
  · exact h3.gapGo ..
  · refine .ite (h3.measLoad ..) ?_
    split
    · exact h3.svcEnd ..
    · exact h3
  · split
    · exact h3.svcEnd ..
    · exact h3

theorem execMeasureCycle_keeps (t : Time) (c : Fin 48) (vb vh von : Nat) (s : State) :
    KeepsNext s (execMeasureCycle t c vb vh von s) := by
  unfold execMeasureCycle
  extract_lets s1 x j mv supply run
  have h1 : Keeps s s1 := (Keeps.refl s).tick ..
  have hrun (m : Meas) : KeepsNext s (run s1 m) := by
    refine .ite h1.next ?_
    split
    rename_i s2 e
    have h2 : Keeps s s2 := ((h1.measPulse ..).measCode ..).snd e
    exact (h2.measResult ..).next
  split
  · refine .ite h1.next (.ite (h1.svcEnd ..).next ?_)
    split
    · exact hrun _
    · exact h1.next
  · refine .ite h1.next ?_
    split
    · exact hrun _
    · exact (h1.gapGo ..).next

theorem execMeasurePassStart_keeps (t : Time) (c : Fin 48) (s : State) :
    KeepsNext s (execMeasurePassStart t c s) := by
  unfold execMeasurePassStart
  extract_lets s1
  have h1 : Keeps s s1 := (Keeps.refl s).tick ..
  exact .ite ((h1.setCasement ..).gapGo ..).next h1.next

theorem Keeps.measSvcAct (h : Keeps s u) (c v : Nat) : Keeps s (u.measSvcAct c v) := by
  unfold State.measSvcAct
  extract_lets x s1
  have h1 : Keeps s s1 := (h.setCasement ..).setn ..
  exact h1.startProgram ..

theorem Keeps.scrubBank (h : Keeps s u) (q b : Nat) : Keeps s (State.scrubBank q u b) := by
  unfold State.scrubBank
  extract_lets
  split
  · exact h
  · extract_lets s1
    have h1 : Keeps s s1 := h.setLed ..
    split
    · exact h1.bump ..
    · exact h1
  · split
    · exact h.ledUncorrectable ..
    · exact (h.setLed ..).fault ..

theorem execScrubStep_keeps (t : Time) (s : State) : KeepsNext s (execScrubStep t s) := by
  unfold execScrubStep
  extract_lets +onlyGivenNames s1 q s2
  have h1 : Keeps s s1 := (Keeps.refl s).tick ..
  have h2 : Keeps s s2 := h1.foldl _ _ fun _ _ g => g.scrubBank ..
  clear_value s2
  revert s2
  -- `id` binds the state anew, so that the kernel does not compute how it came about
  refine id fun s2 h2 => ?_
  extract_lets s3
  have h3 : Keeps s s3 := h2.update (by rfl)
  exact .ite h1.next (Keeps.next (.ite (h3.bump ..) h3))

theorem execSpoolSpan_keeps (t : Time) (c : Fin 48) (s : State) : KeepsNext s (execSpoolSpan t c s) := by
  unfold execSpoolSpan
  extract_lets s1 x span p s2
  have h1 : Keeps s s1 := (Keeps.refl s).tick ..
  have h2 : Keeps s s2 := h1.setCasement ..
  split
  · extract_lets
    exact .ite h1.next (.ite h2.next ((h2.setn ..).consumableStatus ..).next)
  · exact h1.next

theorem execInkSensorPoll_keeps (t : Time) (c : Fin 48) (s : State) : KeepsNext s (execInkSensorPoll t c s) := by
  unfold execInkSensorPoll
  extract_lets s1
  have h1 : Keeps s s1 := (Keeps.refl s).tick ..
  exact .ite ((h1.setCasement ..).sillAsk ..).next h1.next

theorem Keeps.recordPut (h : Keeps s u) (c v : Nat) : Keeps s (u.recordPut c v) := by
  unfold State.recordPut
  exact h.putRec ..

theorem Keeps.ledgerExport (h : Keeps s u) (c : Nat) : Keeps s (u.ledgerExport c) := by
  unfold State.ledgerExport
  extract_lets
  refine .ite (h.setn ..) ?_
  extract_lets
  refine (h.setn ..).foldl _ _ fun v x g => ?_
  extract_lets
  split
  · exact ((g.dramWrite ..).ledUncorrectable ..).setn ..
  · exact (g.dramWrite ..).bump ..
  · exact g.dramWrite ..

theorem Keeps.ledgerImport (h : Keeps s u) (c : Nat) : Keeps s (u.ledgerImport c) := by
  unfold State.ledgerImport
  exact .ite (h.setn ..) ((h.setn ..).foldl _ _ fun _ _ g => g.putRec ..)

/-! ## The firing engine -/

theorem Keeps.settleLoads (h : Keeps s u) (c : Nat) (t : Time) : Keeps s (u.settleLoads c t) := by
  unfold State.settleLoads
  exact h.setCasement ..

theorem Keeps.overspeed (h : Keeps s u) (c v : Nat) : Keeps s (u.overspeed c v) := by
  unfold State.overspeed
  extract_lets old s1
  have h1 : Keeps s s1 := h.setn ..
  exact .ite (h1.event ..) (.ite (h1.event ..) h1)

theorem Keeps.blankLine (h : Keeps s u) (c : Nat) (m : Mark) (n : Nat) (why : LSt) :
    Keeps s (u.blankLine c m n why) := by
  unfold State.blankLine
  extract_lets l owed s1 _ s2 s3
  have h1 : Keeps s s1 := .ite (h.sendCancel ..) h
  have h2 : Keeps s s2 := .ite (h1.event ..) h1
  have h3 : Keeps s s3 := .ite ((h2.bump ..).event ..) h2
  split
  · exact (h3.setOpen ..).bump ..
  · exact ((h1.setOpen ..).bump ..).overspeed ..
  · exact (h1.setOpen ..).bump ..

theorem Keeps.lineCodes (h : Keeps s u) (c : Nat) (m : Mark) (tones : List Nat) (ahead : List Line) (cool : Bool) :
    Keeps s (u.lineCodes c m tones ahead cool).2 := by
  unfold State.lineCodes
  exact Keeps.foldl_proj Prod.snd _ _ (fun a x g => g.useRec c x.2) h

theorem Keeps.loadLine (h : Keeps s u) (c : Nat) (m : Mark) (n : Nat) (t : Time) : Keeps s (u.loadLine c m n t) := by
  unfold State.loadLine
  extract_lets
  split
  rename_i s1 e1
  have h1 : Keeps s s1 := (h.lineCodes ..).snd e1
  extract_lets nj seq code s2 s3
  have h2 : Keeps s s2 := .ite (h1.sendSashes ..) (h1.sendPlane ..)
  have h3 : Keeps s s3 := h2.nextSeq ..
  exact h3.setOpen ..

theorem execLineLoad_keeps (t : Time) (c : Fin 48) (s : State) : KeepsNext s (execLineLoad t c s) := by
  unfold execLineLoad
  extract_lets s1
  have h1 : Keeps s s1 := ((Keeps.refl s).tick ..).settleLoads ..
  split
  · extract_lets
    exact .ite (h1.loadLine ..).next h1.next
  · exact h1.next

theorem execLoadDeadline_keeps (t : Time) (c : Fin 48) (s : State) : KeepsNext s (execLoadDeadline t c s) := by
  unfold execLoadDeadline
  extract_lets s1
  have h1 : Keeps s s1 := ((Keeps.refl s).tick ..).settleLoads ..
  split
  · split
    · extract_lets
      exact .ite h1.next (h1.blankLine ..).next
    · exact h1.next
  · exact h1.next

theorem Keeps.publish (h : Keeps s u) (c : Nat) (m : Mark) (fv ft hb : Nat) : Keeps s (u.publish c m fv ft hb) := by
  unfold State.publish
  exact (h.setn ..).setn ..

theorem execMinPeriodRefresh_keeps (t : Time) (c : Fin 48) (s : State) :
    KeepsNext s (execMinPeriodRefresh t c s) := by
  unfold execMinPeriodRefresh
  extract_lets s1 x s2
  have h1 : Keeps s s1 := (Keeps.refl s).tick ..
  have h2 : Keeps s s2 := h1.setCasement ..
  refine .ite h1.next ?_
  split
  exact (h2.publish ..).next

theorem execLineFreeze_keeps (t : Time) (c : Fin 48) (s : State) : KeepsNext s (execLineFreeze t c s) := by
  unfold execLineFreeze
  extract_lets s1
  have h1 : Keeps s s1 := ((Keeps.refl s).tick ..).settleLoads ..
  split
  · exact h1.next
  · extract_lets
    split
    · exact h1.next
    · extract_lets
      refine .ite h1.next ?_
      split
      extract_lets s2 setup wd dline hb _ s3 s4 vf d fire
      have h2 : Keeps s s2 := ((h1.setOpen ..).setn ..).setn ..
      have h3 : Keeps s s3 := (h2.setCasement ..).setn ..
      have h4 : Keeps s s4 := h3.publish ..
      have hfire {v : State} (g : Keeps s v) (x1 : Mark) (x2 : Nat) (x3 : Bool) (x4 : Nat) : Keeps s (fire x1 v x2 x3 x4) := by
        unfold fire
        split
        extract_lets w short s5 lack s6
        have h5 : Keeps s s5 := .ite g ((g.bumpBy ..).event ..)
        have h6 : Keeps s s6 := .ite h5 ((h5.bumpBy ..).bump ..)
        exact (h6.setOpen ..).overspeed ..
      exact .ite (h4.blankLine ..).next <| .ite (h4.blankLine ..).next <| .ite (Keeps.next (hfire h4 ..)) <|
        .ite (h4.blankLine ..).next <| .ite (Keeps.next (hfire h4 ..)) <| .ite (Keeps.next (hfire h4 ..)) <|
        .ite (h4.blankLine ..).next (Keeps.next (hfire h4 ..))

theorem Keeps.emitLine (h : Keeps s u) (c : Nat) (l : Line) : Keeps s (u.emitLine c l) := by
  unfold State.emitLine
  extract_lets tls s1 p p2 s2
  have h1 : Keeps s s1 := by
    unfold s1
    refine .ite h ?_
    refine h.foldl _ _ fun v x g => ?_
    split
    extract_lets s3 _ s4
    have h3 : Keeps s s3 := g.send ..
    have h4 : Keeps s s4 := h3.setCasement ..
    exact .ite (h4.sendPlane ..) h3
  have h2 : Keeps s s2 := h1.send ..
  exact .ite h2 (h2.send ..)

theorem Keeps.fireLine (h : Keeps s u) (c : Nat) (m : Mark) (n : Nat) : Keeps s (u.fireLine c m n) := by
  unfold State.fireLine
  exact .ite (h.blankLine ..) ((h.setOpen ..).emitLine ..)

theorem Keeps.trigger (h : Keeps s u) (c : Nat) (due : Time → Bool) : Keeps s (u.trigger c due) := by
  unfold State.trigger
  split
  · exact .ite (h.fireLine ..) h
  · exact h

theorem execLineTrigger_keeps (t : Time) (c : Fin 48) (s : State) : KeepsNext s (execLineTrigger t c s) := by
  unfold execLineTrigger
  exact ((((Keeps.refl s).tick ..).settleLoads ..).trigger ..).next

theorem Keeps.writeBack (h : Keeps s u) (c : Nat) (m : Mark) (l : Line) : Keeps s (u.writeBack c m l) := by
  unfold State.writeBack
  refine h.foldl _ _ fun v x g => ?_
  split
  rename_i s1 e1
  have h1 : Keeps s s1 := (g.useRec ..).snd_snd e1
  exact h1.putRec ..

theorem Keeps.finishLine {v : State} (h : Keeps s u) {c : Nat} {t : Time} (e : u.finishLine c t = some v) :
    Keeps s v := by
  unfold State.finishLine at e
  split at e
  · extract_lets at e
    split at e
    · cases e
    · obtain rfl := Option.some.inj e
      exact ((h.writeBack ..).setCasement ..).setOpen ..
  · cases e

theorem execLineFired_keeps (t : Time) (c : Fin 48) (s : State) : KeepsNext s (execLineFired t c s) := by
  unfold execLineFired
  extract_lets s1
  have h1 : Keeps s s1 := ((Keeps.refl s).tick ..).settleLoads ..
  cases e : s1.finishLine c t with
  | none => exact h1.next
  | some v => exact (h1.finishLine e).next

theorem Keeps.unseen (h : Keeps s u) (m : Mark) : Keeps s (u.unseen m).2 := by
  unfold State.unseen
  split
  rename_i s1 e1
  have h1 : Keeps s s1 := Keeps.snd (.ite_snd (h.free ..) h) e1
  split
  rename_i s2 e2
  have h2 : Keeps s s2 := Keeps.snd (.ite_snd (h1.free ..) h1) e2
  split
  rename_i s3 e3
  have h3 : Keeps s s3 := Keeps.snd (.ite_snd (h2.free ..) h2) e3
  split
  rename_i s4 e4
  refine Keeps.snd ?_ e4
  exact .ite_snd (h3.free 16) h3

theorem Keeps.closeMark (h : Keeps s u) (c : Nat) : Keeps s (u.closeMark c) := by
  unfold State.closeMark
  extract_lets x
  split
  · exact h
  · refine .ite h ?_
    extract_lets use s1 s2 s3
    have h2 : Keeps s s2 := ((h.setCasement ..).setn ..).setn ..
    have h3 : Keeps s s3 := .ite h2 (h2.charge ..)
    split
    rename_i s4 e4
    have h4 : Keeps s s4 := (h3.unseen ..).snd e4
    extract_lets part
    split
    rename_i s5 e5
    have h5 : Keeps s s5 := Keeps.snd (.ite_snd (h4.rejectTag ..) h4) e5
    refine Keeps.afterClose ?_ ..
    split
    · exact .ite (h5.setCasement ..) (.ite (h5.leadFinish ..) ((h5.complete ..).report ..))
    · exact h5.complete ..

theorem execMarkClose_keeps (t : Time) (c : Fin 48) (s : State) : KeepsNext s (execMarkClose t c s) := by
  unfold execMarkClose
  exact ((((Keeps.refl s).tick ..).settleLoads ..).closeMark ..).next

theorem Keeps.drainBlank (h : Keeps s u) (c : Nat) (t : Time) (fuel : Nat) : Keeps s (u.drainBlank c t fuel) := by
  induction fuel generalizing u with
  | zero => exact h
  | succ n ih =>
    unfold State.drainBlank
    split
    · rename_i e
      exact ih (h.finishLine e)
    · exact h

theorem Keeps.passLines (h : Keeps s u) (c : Nat) (t : Time) : Keeps s (u.passLines c t) := by
  unfold State.passLines
  extract_lets x open_ s1 s2
  have h1 : Keeps s s1 := by
    unfold s1
    refine h.foldl _ _ fun v x g => ?_
    split
    · exact .ite (g.blankLine ..) g
    · exact g
  have h2 : Keeps s s2 := h1.drainBlank ..
  exact (h2.closeMark ..).closeMark ..

theorem execDeadReckonExpiry_keeps (t : Time) (k : Fin 32) (s : State) :
    KeepsNext s (execDeadReckonExpiry t k s) := by
  unfold execDeadReckonExpiry
  extract_lets s1 s2
  have h1 : Keeps s s1 := (Keeps.refl s).tick ..
  have h2 : Keeps s s2 := h1.laxLost ..
  split
  · exact .ite ((h2.foldl _ _ fun _ _ g => .ite (g.passLines ..) g).decideLost ..).next h1.next
  · exact h1.next

/-! ## Events of one casement on one clock -/

theorem Keeps.closesFirst (h : Keeps s u) (c : Nat) (t : Time) : Keeps s (u.closesFirst c t) := by
  unfold State.closesFirst
  extract_lets s1 s2
  have h1 : Keeps s s1 := (h.settleLoads ..).trigger ..
  have h2 : Keeps s s2 := h1.drainBlank ..
  exact (h2.closeMark ..).closeMark ..

theorem execDecisionPoint_keeps (t : Time) (c : Fin 48) (s : State) : KeepsNext s (execDecisionPoint t c s) := by
  unfold execDecisionPoint
  extract_lets s1
  have h1 : Keeps s s1 := (((Keeps.refl s).tick ..).applyChanges ..).closesFirst ..
  split
  · exact .ite ((h1.decide_ ..).takeCommand ..).next h1.next
  · exact h1.next

theorem Keeps.anchorFirst (h : Keeps s u) (c : Nat) (t : Time) : Keeps s (u.anchorFirst c t) := by
  unfold State.anchorFirst
  extract_lets s1
  have h1 : Keeps s s1 := h.closesFirst ..
  split
  · exact .ite (h1.decide_ ..) h1
  · exact h1

theorem Keeps.anchorsFirst (h : Keeps s u) (c : Nat) (t : Time) : Keeps s (u.anchorsFirst c t) := by
  unfold State.anchorsFirst
  exact h.foldl _ _ fun _ _ g => g.anchorFirst ..

theorem execGinEdge_keeps (t : Time) (n : Fin 64) (s : State) : KeepsNext s (execGinEdge t n s) := by
  unfold execGinEdge
  extract_lets s1 x same k pa held s2 d _ s3 s4 s5
  have h1 : Keeps s s1 := (Keeps.refl s).tick ..
  have h2 : Keeps s s2 := .ite h1 (h1.setGin ..)
  have h3 : Keeps s s3 := h2.setGin ..
  have h4 : Keeps s s4 := ((h3.bump ..).setn ..).setn ..
  have h5 : Keeps s s5 := h4.talCount ..
  exact .ite h1.next <| .ite h2.next <| .ite (h2.ginReject ..).next <|
    .ite (h5.foldl _ _ fun _ _ g => .ite ((g.anchorsFirst ..).leadAnchor ..) g).next h5.next

/-! ## Axes -/

theorem Keeps.axEvent (h : Keeps s u) (a cause : Nat) (d : Bytes) : Keeps s (u.axEvent a cause d) := by
  unfold State.axEvent
  exact h.event _ _ _ _

theorem Keeps.axDisable (h : Keeps s u) (a : Nat) : Keeps s (u.axDisable a) := by
  unfold State.axDisable
  exact (h.putAx ..).setAxState ..

theorem Keeps.axLeave (h : Keeps s u) (a : Nat) : Keeps s (u.axLeave a) := by
  unfold State.axLeave
  split
  · exact h.axDisable ..
  · exact h.axStop ..
  · exact h.axStop ..
  · exact .ite (h.axDisable ..) h

theorem Keeps.stopEnd (h : Keeps s u) (a why : Nat) : Keeps s (u.stopEnd a why) := by
  unfold State.stopEnd
  extract_lets _ s1
  have h1 : Keeps s s1 := h.setAx ..
  split
  · exact h1.axDisable ..
  · exact h1.rampFaulted ..
  · exact h1.setAxState ..

theorem Keeps.axLimit (h : Keeps s u) (a : Nat) (positive : Bool) : Keeps s (u.axLimit a positive) := by
  unfold State.axLimit
  extract_lets b s1
  have h1 : Keeps s s1 := (h.setbit ..).axEvent ..
  exact .ite ((h1.setAx ..).stopEnd ..) (h1.axStop ..)

theorem Keeps.loopEnabled (h : Keeps s u) (a : Nat) : Keeps s (u.loopEnabled a) := by
  unfold State.loopEnabled
  exact h.foldl _ _ fun _ _ g => .ite (g.setLoop ..) g

theorem Keeps.axEnter (h : Keeps s u) (a : Nat) (v : Int) : Keeps s (u.axEnter a v) := by
  unfold State.axEnter
  extract_lets x s1
  have h1 : Keeps s s1 := h.putAx ..
  exact ((h1.setAxState ..).setn ..).loopEnabled ..

theorem Keeps.axEnable (h : Keeps s u) (a : Nat) : Keeps s (u.axEnable a) := by
  unfold State.axEnable
  extract_lets s1 s2 clean s3 x s4 _ held v s5
  have h1 : Keeps s s1 := .ite h (h.axDisable ..)
  have h2 : Keeps s s2 := h1.foldl _ _ fun _ _ g => g.enforce ..
  have h3 : Keeps s s3 := .ite (h2.setbit ..) h2
  have h4 : Keeps s s4 := (h3.putAx ..).setn ..
  have h5 : Keeps s s5 := (h4.axEnter ..).axEvent ..
  exact .ite (.ite (h4.setAx ..) (.ite (.ite h5 (h5.setAx ..)) (h4.axEnter ..))) (h4.axEnter ..)

theorem Keeps.axCaught (h : Keeps s u) (a : Nat) (raw : Int) : Keeps s (u.axCaught a raw) := by
  unfold State.axCaught
  exact ((h.setn ..).axEnter ..).axEvent ..

theorem Keeps.brakeOpen (h : Keeps s u) (a phase : Nat) (i : Int) : Keeps s (u.brakeOpen a phase i) := by
  unfold State.brakeOpen
  extract_lets x
  split
  rename_i s1 e
  have h1 : Keeps s s1 := Keeps.snd (.ite_snd (h.free ..) h) e
  exact .ite (h1.putAx ..) h1

theorem execChopOff_keeps (t : Time) (a : Fin 16) (phase : Fin 3) (i : Int) (s : State) :
    KeepsNext s (execChopOff t a phase i s) := by
  unfold execChopOff
  extract_lets s1
  have h1 : Keeps s s1 := (Keeps.refl s).tick ..
  exact .ite (h1.brakeOpen ..).next (.ite (h1.putAx ..).next h1.next)

theorem execChopCycleEnd_keeps (t : Time) (a : Fin 16) (phase : Fin 3) (sense : Int × Fin 4096) (s : State) :
    KeepsNext s (execChopCycleEnd t a phase sense s) := by
  unfold execChopCycleEnd
  extract_lets s1 x c first
  have h1 : Keeps s s1 := (Keeps.refl s).tick ..
  refine .ite h1.next ?_
  split
  rename_i s2 e
  have h2 : Keeps s s2 := Keeps.snd (.ite_snd (h1.free ..) h1) e
  exact Keeps.next (.ite ((h2.putAx ..).setn ..) (h2.putAx ..))

theorem execOvercurrent_keeps (t : Time) (a : Fin 16) (is : Fin 4 × Fin 256) (s : State) :
    KeepsNext s (execOvercurrent t a is s) := by
  unfold execOvercurrent
  extract_lets s1 _ s2
  have h1 : Keeps s s1 := (Keeps.refl s).tick ..
  have h2 : Keeps s s2 := by
    unfold s2
    split
    · exact (h1.axDisable ..).setbit ..
    · exact (h1.putAx ..).setbit ..
    · exact h1.axFault ..
  exact .ite h1.next (h2.axisFault ..).next

theorem Keeps.obsRound (h : Keeps s u) (a : Nat) (t : Time) (va vb ia ib : Int) :
    Keeps s (u.obsRound a t va vb ia ib) := by
  unfold State.obsRound
  extract_lets
  split
  extract_lets tot s1
  have h1 : Keeps s s1 := h.setAx ..
  exact .ite (h1.setn ..) h1

theorem execObserverUpdate_keeps (t : Time) (a : Fin 16) (is01 is23 vp01 : Fin 4096 × Fin 4096) (vp2 : Fin 4096)
    (s : State) :
    KeepsNext s (execObserverUpdate t a is01 is23 vp01 vp2 s) := by
  unfold execObserverUpdate
  extract_lets s1 i _ s2
  have h1 : Keeps s s1 := (Keeps.refl s).tick ..
  have h2 : Keeps s s2 := h1.setAx ..
  refine .ite h1.next ?_
  refine .ite h2.next ?_
  split
  split
  exact (h2.obsRound ..).next

theorem execObserverDisagreement_keeps (t : Time) (a : Fin 16) (s : State) :
    KeepsNext s (execObserverDisagreement t a s) := by
  unfold execObserverDisagreement
  extract_lets s1
  have h1 : Keeps s s1 := (Keeps.refl s).tick ..
  split
  · exact .ite (((h1.setAx ..).setbit ..).axEvent ..).next h1.next
  · exact h1.next

theorem execStartTimeout_keeps (t : Time) (a : Fin 16) (s : State) : KeepsNext s (execStartTimeout t a s) := by
  unfold execStartTimeout
  extract_lets s1
  have h1 : Keeps s s1 := (Keeps.refl s).tick ..
  split
  · exact .ite ((h1.setAx ..).positionLost ..).next h1.next
  · exact h1.next

theorem Keeps.axAct (h : Keeps s u) (a v : Nat) : Keeps s (u.axAct a v) := by
  unfold State.axAct
  extract_lets x put
  have hput (x1 : AxCmd) : Keeps s (put x1) := h.setAx ..
  split
  · exact hput ..
  · exact hput ..
  · exact hput ..
  · exact hput ..
  · exact (h.setAx ..).setn ..
  · exact hput ..
  · exact hput ..
  · exact hput ..
  · exact hput ..
  · exact h

theorem Keeps.axRunRefused (h : Keeps s u) (a : Nat) : Keeps s (u.axRunRefused a) := by
  unfold State.axRunRefused
  exact h.setn ..

theorem execRunCheckDone_keeps (t : Time) (a : Fin 48) (s : State) : KeepsNext s (execRunCheckDone t a s) := by
  unfold execRunCheckDone
  extract_lets s1
  have h1 : Keeps s s1 := (Keeps.refl s).tick ..
  split
  · exact h1.next
  · extract_lets r s2
    have h2 : Keeps s s2 := (h1.setAx ..).setn ..
    exact .ite h2.next (Keeps.next (.ite (h2.setAx ..) (h2.setAx ..)))

theorem execRunTrigger_keeps (t : Time) (a : Fin 48) (s : State) : KeepsNext s (execRunTrigger t a s) := by
  unfold execRunTrigger
  extract_lets s1
  have h1 : Keeps s s1 := (Keeps.refl s).tick ..
  split
  · exact .ite (h1.setAx ..).next h1.next
  · exact h1.next

theorem execLimitInput_keeps (t : Time) (a : Fin 48) (positive : Bool) (s : State) :
    KeepsNext s (execLimitInput t a positive s) := by
  unfold execLimitInput
  extract_lets s1
  have h1 : Keeps s s1 := (Keeps.refl s).tick ..
  exact .ite (h1.setAx ..).next h1.next

theorem Keeps.motionStart (h : Keeps s u) (a : Nat) (p : Plan) : Keeps s (u.motionStart a p) := by
  unfold State.motionStart
  extract_lets st s1
  have h1 : Keeps s s1 := h.setn ..
  exact (h1.setAx ..).setAxState ..

theorem Keeps.applyMotion (h : Keeps s u) (a : Nat) (c : AxCmd) : Keeps s (u.applyMotion a c) := by
  unfold State.applyMotion
  extract_lets
  refine .ite (h.bump ..) ?_
  extract_lets
  split
  · exact h.motionStart ..
  · exact .ite h (h.motionStart ..)
  · extract_lets s1
    have h1 : Keeps s s1 := h.motionStart ..
    exact .ite (h.bump ..) (h1.setAx ..)
  · exact h

theorem Keeps.applyOther (h : Keeps s u) (a : Nat) (c : AxCmd) : Keeps s (u.applyOther a c) := by
  unfold State.applyOther
  split
  · exact .ite (h.bump ..) (.ite (h.axEnable ..) h)
  · exact .ite (h.axDisable ..) h
  · exact .ite (h.putAx ..) h
  · exact .ite (h.putAx ..) h
  · exact .ite (((h.putAx ..).setn ..).setAxState ..) h
  · exact h

theorem Keeps.applyCmds (h : Keeps s u) (a : Nat) : Keeps s (u.applyCmds a) := by
  unfold State.applyCmds
  extract_lets x cs s1 s2 lim stops s3 s4
  have h1 : Keeps s s1 := h.setAx ..
  have h2 : Keeps s s2 := h1.foldl _ _ fun _ _ g => g.applyOther ..
  have h3 : Keeps s s3 := h2.foldl _ _ fun _ _ g => g.axLimit ..
  have h4 : Keeps s s4 := .ite (h3.axStop ..) h3
  refine .ite h4 ?_
  refine .ite (h4.bumpBy ..) ?_
  refine .ite (h4.setAx ..) ?_
  split
  · exact h4.applyMotion ..
  · exact h4

theorem Keeps.planStep (h : Keeps s u) (a : Nat) : Keeps s (u.planStep a).2.2 := by
  unfold State.planStep
  extract_lets x p vmax am dm hold
  have hhold {v : State} (g : Keeps s v) : Keeps s (hold v) := (g.setAx ..).setAxState ..
  split
  · exact h
  · split
    exact .ite (hhold h) h
  · extract_lets
    exact .ite (hhold h) h
  · exact .ite (h.stopEnd ..) h
  · extract_lets g s1
    have h1 : Keeps s s1 := .ite (h.axEvent ..) h
    split
    split
    · exact h.setAx ..
    · split
      · exact h1.setAx ..
      · split
        · exact hhold h1
        · exact h1.setAx ..

theorem Keeps.axInc (h : Keeps s u) (a : Nat) (fwd : Bool) (ts : Time) : Keeps s (u.axInc a fwd ts) := by
  unfold State.axInc
  exact (h.setAx ..).laxIncs ..

theorem Keeps.issueSteps (h : Keeps s u) (a : Nat) (t : Time) (fuel : Nat) : Keeps s (u.issueSteps a t fuel) := by
  induction fuel generalizing u with
  | zero => exact h
  | succ n ih =>
    unfold State.issueSteps
    extract_lets
    split
    · exact h
    · extract_lets _ _ _ s1 s2
      have h1 : Keeps s s1 := h.setAx ..
      have h2 : Keeps s s2 := .ite (h1.bump ..) h1
      exact .ite h (ih ((h2.send ..).axInc ..))

theorem Keeps.axIncs (h : Keeps s u) (a : Nat) (l : List (Bool × Time)) (t : Time) : Keeps s (u.axIncs a l t) := by
  unfold State.axIncs
  extract_lets x s1 x' late s2
  have h1 : Keeps s s1 := h.setAx ..
  have h2 : Keeps s s2 := .ite h1 (h1.setAx ..)
  exact .ite (h2.issueSteps ..) (h.foldl _ _ fun _ _ g => g.axInc ..)

theorem Keeps.limitedStep (h : Keeps s u) (a : Nat) : Keeps s (u.limitedStep a).2.2 := by
  unfold State.limitedStep
  extract_lets s1
  have h1 : Keeps s s1 := ((h.setbit ..).axEvent ..).axStop ..
  split
  · exact .ite (h1.stopEnd ..) h1
  · exact h.planStep ..

theorem Keeps.axFeedback (h : Keeps s u) (a : Nat) : Keeps s (u.axFeedback a) := by
  unfold State.axFeedback
  exact .ite h (.ite (h.setn ..) (h.setn ..))

theorem Keeps.followTimer (h : Keeps s u) (a : Nat) (t : Time) : Keeps s (u.followTimer a t) := by
  unfold State.followTimer
  exact h.setAx ..

theorem Keeps.takeVelSet (h : Keeps s u) (a : Nat) : Keeps s (u.takeVelSet a) := by
  unfold State.takeVelSet
  extract_lets x s1
  have h1 : Keeps s s1 := h.setAx ..
  split
  · exact h
  · exact .ite (.ite h1 (.ite (h1.setAx ..) (h1.motionStart ..))) h1

theorem execAxisTick_keeps (t : Time) (a : Fin 48) (s : State) : KeepsNext s (execAxisTick t a s) := by
  unfold execAxisTick
  extract_lets s1 _ s2 s3
  have h1 : Keeps s s1 := (Keeps.refl s).tick ..
  have h2 : Keeps s s2 := h1.setAx ..
  have h3 : Keeps s s3 := (h2.applyCmds ..).takeVelSet ..
  refine .ite h1.next ?_
  split
  rename_i s4 e1
  have h4 : Keeps s s4 := (h3.limitedStep ..).snd_snd e1
  extract_lets x v' s5 s6 s7
  have h5 : Keeps s s5 := h4.setAx ..
  have h6 : Keeps s s6 := (h5.setn ..).setn ..
  have h7 : Keeps s s7 := h6.axIncs ..
  exact ((h7.axFeedback ..).followTimer ..).next

theorem execFollowingError_keeps (t : Time) (a : Fin 48) (s : State) : KeepsNext s (execFollowingError t a s) := by
  unfold execFollowingError
  extract_lets s1
  have h1 : Keeps s s1 := (Keeps.refl s).tick ..
  split
  · exact .ite (((h1.setbit ..).axEvent ..).axisFault ..).next h1.next
  · exact h1.next

theorem execHoldCurrentTimeout_keeps (t : Time) (a : Fin 48) (s : State) :
    KeepsNext s (execHoldCurrentTimeout t a s) := by
  unfold execHoldCurrentTimeout
  extract_lets s1
  have h1 : Keeps s s1 := (Keeps.refl s).tick ..
  split
  · exact .ite (h1.setAx ..).next h1.next
  · exact h1.next

theorem execCatchDone_keeps (t : Time) (a : Fin 48) (s : State) : KeepsNext s (execCatchDone t a s) := by
  unfold execCatchDone
  extract_lets s1 x w s2
  have h1 : Keeps s s1 := (Keeps.refl s).tick ..
  have h2 : Keeps s s2 := h1.axFeedback ..
  split
  · exact h1.next
  · exact .ite h1.next (.ite (.ite (h1.axCaught ..).next (h1.putAx ..).next) (h2.axCaught ..).next)

theorem execCatchBrakeExpiry_keeps (t : Time) (a : Fin 48) (s : State) :
    KeepsNext s (execCatchBrakeExpiry t a s) := by
  unfold execCatchBrakeExpiry
  extract_lets s1
  have h1 : Keeps s s1 := (Keeps.refl s).tick ..
  split
  · exact h1.next
  · exact .ite (h1.axCaught ..).next h1.next

theorem execAlignTimeExpiry_keeps (t : Time) (a : Fin 48) (s : State) : KeepsNext s (execAlignTimeExpiry t a s) := by
  unfold execAlignTimeExpiry
  extract_lets s1 x s2
  have h1 : Keeps s s1 := (Keeps.refl s).tick ..
  have h2 : Keeps s s2 := (h1.putAx ..).setn ..
  split
  · exact h1.next
  · exact .ite (h2.enforce ..).next h1.next

theorem Keeps.axPreset (h : Keeps s u) (a : Nat) (v : Int) : Keeps s (u.axPreset a v) := by
  unfold State.axPreset
  exact ((h.setAx ..).setn ..).setn ..

theorem Keeps.segWrite (h : Keeps s u) (b : Bytes) : Keeps s (u.segWrite b) := by
  unfold State.segWrite
  exact h.update (by rfl)

/-! ## The loop engine -/

theorem Keeps.loopTakeUp (h : Keeps s u) (n : Nat) : Keeps s (u.loopTakeUp n) := by
  unfold State.loopTakeUp
  split
  · refine h.foldl _ _ fun v x g => ?_
    split
    exact g.update (by rfl)
  · exact h

theorem Keeps.loopEvent (h : Keeps s u) (n cause : Nat) : Keeps s (u.loopEvent n cause) := by
  unfold State.loopEvent
  exact h.event ..

theorem Keeps.loopPut (h : Keeps s u) (n : Nat) (y ia e h' : Int) (satHi satLo clamped hand idle : Bool) :
    Keeps s (u.loopPut n y ia e h' satHi satLo clamped hand idle) := by
  unfold State.loopPut
  extract_lets old st s1 s2 s3
  have h1 : Keeps s s1 := ((((h.setn ..).setn ..).setn ..).setn ..).setn ..
  have h2 : Keeps s s2 := .ite (h1.loopEvent ..) h1
  have h3 : Keeps s s3 := .ite (h2.loopEvent ..) h2
  exact h3.bump ..

theorem Keeps.loopAuto (h : Keeps s u) (n : Nat) (entry : Bool) : Keeps s (u.loopAuto n entry) := by
  unfold State.loopAuto
  extract_lets x idle tm bias imin imax ymin ymax yprev st yl s1
  have h1 : Keeps s s1 := .ite (h.enforce ..) h
  split
  extract_lets _ y s2 s3
  have h2 : Keeps s s2 := h1.setLoop ..
  have h3 : Keeps s s3 := h2.loopPut ..
  exact .ite (h3.loopEvent ..) h3

theorem Keeps.loopEval (h : Keeps s u) (n : Nat) : Keeps s (u.loopEval n) := by
  unfold State.loopEval
  extract_lets entry s1 x idle yprev imin imax ia0 onLimit x' mv rr start h0 k on ia tm y _ s2
  have h1 : Keeps s s1 := h.loopTakeUp ..
  have h2 : Keeps s s2 := h1.setLoop ..
  split
  · exact h1.loopAuto ..
  · split
    extract_lets _ s3 s4
    have h3 : Keeps s s3 := h1.setLoop ..
    have h4 : Keeps s s4 := h3.loopPut ..
    exact .ite (h4.loopEvent ..) h4
  · exact h2.loopPut ..
  · exact (h1.setLoop ..).loopPut ..

theorem Keeps.passSlot (h : Keeps s u) (bf : Nat) (p : Pass) (n : Nat) : Keeps s (State.passSlot bf u p n).1 := by
  unfold State.passSlot
  extract_lets skip entry cost
  split
  · exact h.bump ..
  · split
    · exact h.loopEval ..
    · exact h.bump ..

theorem Keeps.loopPublish (h : Keeps s u) (n : Nat) : Keeps s (u.loopPublish n) := by
  unfold State.loopPublish
  exact .ite (h.setAx ..) h

theorem execLoopTick_keeps (t : Time) (s : State) : KeepsNext s (execLoopTick t s) := by
  unfold execLoopTick
  extract_lets s1 _ s2 N s3
  have h1 : Keeps s s1 := (Keeps.refl s).tick ..
  have h3 : Keeps s s3 := (h1.update (by rfl)).setn ..
  refine .ite h1.next ?_
  split
  rename_i s4 p e
  have h4 : Keeps s s4 := Keeps.fst (Keeps.foldl_proj Prod.fst _ _ (fun _ _ g => g.passSlot ..) h3) e
  extract_lets s5 s6
  have h5 : Keeps s s5 := h4.foldl _ _ fun _ _ g => g.loopPublish ..
  have h6 : Keeps s s6 := (h5.setn ..).setn ..
  refine Keeps.next ?_
  split
  · exact h6
  · exact (((h6.bump ..).setn ..).loopEvent ..).fault ..

theorem execPlannedPassRefresh_keeps (t : Time) (s : State) : KeepsNext s (execPlannedPassRefresh t s) := by
  unfold execPlannedPassRefresh
  extract_lets s1
  have h1 : Keeps s s1 := (Keeps.refl s).tick ..
  exact .ite h1.next (h1.setn ..).next

theorem Keeps.loopEcc (h : Keeps s u) (n : Nat) : Keeps s (u.loopEcc n) := by
  unfold State.loopEcc
  extract_lets _ s1 s2
  have h1 : Keeps s s1 := h.setLoop ..
  have h2 : Keeps s s2 := ((((h1.setn ..).setn ..).setn ..).setn ..).setn ..
  exact h2.loopEvent ..

theorem Keeps.loopModeWrite (h : Keeps s u) (n : Nat) : Keeps s (u.loopModeWrite n) := by
  unfold State.loopModeWrite
  exact h.setbit ..

theorem Keeps.loopApply (h : Keeps s u) (n : Nat) : Keeps s (u.loopApply n) := by
  unfold State.loopApply
  exact h.setLoop ..

/-! ## The host interface's queues -/

theorem Keeps.hostError (h : Keeps s u) (off : Nat) (r : Refuse) (bar2 : Bool) :
    Keeps s (u.hostError off r bar2) := by
  unfold State.hostError
  split
  · exact h.answer ..
  · extract_lets
    exact (((h.update (by rfl)).bump ..).event ..).answer ..

theorem execBar2Access_keeps (t : Time) (off : Nat) (write : Option Bytes) (len : Nat) (bad : Bool) (s : State) :
    KeepsNext s (execBar2Access t off write len bad s) := by
  unfold execBar2Access
  extract_lets s1 a n s2
  have h1 : Keeps s s1 := (Keeps.refl s).tick ..
  have h2 : Keeps s s2 := h1.hostError ..
  refine .ite (h1.answer ..).next ?_
  refine .ite (Keeps.next (.ite (h2.answer ..) h2)) ?_
  split
  · exact ((h1.dramWrite ..).answer ..).next
  · exact .ite ((h1.fault ..).answer ..).next (h1.answer ..).next

theorem Keeps.msix (h : Keeps s u) (v : Nat) : Keeps s (u.msix v) := by
  unfold State.msix
  exact .ite (h.send ..) (h.update (by rfl))

theorem Keeps.queueIrq (h : Keeps s u) (q n : Nat) : Keeps s (u.queueIrq q n) := by
  unfold State.queueIrq
  exact .ite h (.ite ((h.setQ ..).msix ..) (h.setQ ..))

theorem execIrqModerationTimeout_keeps (t : Time) (q : Nat) (s : State) :
    KeepsNext s (execIrqModerationTimeout t q s) := by
  unfold execIrqModerationTimeout
  extract_lets s1
  have h1 : Keeps s s1 := (Keeps.refl s).tick ..
  exact .ite ((h1.setQ ..).msix ..).next h1.next

theorem Keeps.idxBack (h : Keeps s u) (q idx : Nat) : Keeps s (u.idxBack q idx) := by
  unfold State.idxBack
  exact .ite h (h.memWrite ..)

theorem Keeps.queueEnable (h : Keeps s u) (q : Nat) : Keeps s (u.queueEnable q) := by
  unfold State.queueEnable
  extract_lets d c s1
  have h1 : Keeps s s1 := h.setQ ..
  exact .ite ((h.setQ ..).event _ _ _ _) (h1.update (by rfl))

theorem Keeps.queueDisable (h : Keeps s u) (q : Nat) : Keeps s (u.queueDisable q) := by
  unfold State.queueDisable
  exact h.setQ ..

theorem execQueueEnable_keeps (t : Time) (q : Nat) (s : State) : KeepsNext s (execQueueEnable t q s) := by
  unfold execQueueEnable
  extract_lets s1
  have h1 : Keeps s s1 := (Keeps.refl s).tick ..
  refine .ite (h1.answer ..).next ?_
  split
  · exact (h1.hostError ..).next
  · exact Keeps.next (Keeps.answer (.ite h1 (h1.queueEnable ..)) ..)

theorem execQueueDisable_keeps (t : Time) (q : Nat) (s : State) : KeepsNext s (execQueueDisable t q s) := by
  unfold execQueueDisable
  extract_lets s1
  have h1 : Keeps s s1 := (Keeps.refl s).tick ..
  refine .ite (h1.answer ..).next ?_
  split
  · exact (h1.hostError ..).next
  · exact ((h1.queueDisable ..).answer ..).next

theorem Keeps.qWrite (h : Keeps s u) (q off v : Nat) : Keeps s (u.qWrite q off v) := by
  unfold State.qWrite
  extract_lets d s1
  have h1 : Keeps s s1 := h.setQ ..
  exact .ite (.ite (.ite h (h.queueDisable ..)) (.ite (h1.queueEnable ..) h1)) (h.setQ ..)

theorem Keeps.qBytesWrite (h : Keeps s u) (q : Nat) (b : Bytes) : Keeps s (u.qBytesWrite q b) := by
  unfold State.qBytesWrite
  exact h.foldl _ _ fun _ _ g => g.qWrite ..

theorem Keeps.queueEcc (h : Keeps s u) (q : Nat) : Keeps s (u.queueEcc q) := by
  unfold State.queueEcc
  exact (h.setQ ..).event ..

theorem Keeps.doorbell (h : Keeps s u) (q v : Nat) : Keeps s (u.doorbell q v) := by
  unfold State.doorbell
  exact .ite (h.setQ ..) (h.setQ ..)

theorem Keeps.popEntry (h : Keeps s u) (q : Nat) : Keeps s (u.popEntry q) := by
  unfold State.popEntry
  extract_lets
  split
  exact (h.setQ ..).idxBack ..

theorem Keeps.malformed (h : Keeps s u) (q i off : Nat) : Keeps s (u.malformed q i off) := by
  unfold State.malformed
  exact (h.setQ ..).event _ _ _ _

theorem Keeps.porterScan (h : Keeps s u) : Keeps s u.porterScan := by
  unfold State.porterScan
  extract_lets s1
  have h1 : Keeps s s1 := by
    unfold s1
    refine h.foldl _ _ fun v x g => ?_
    split
    exact .ite (.ite (g.setQ ..) g) (.ite (g.setQ ..) g)
  exact h1.update (by rfl)

theorem Keeps.blockEvent (h : Keeps s u) (q : Nat) : Keeps s (u.blockEvent q) := by
  unfold State.blockEvent
  exact .ite (h.event ..) h

theorem Keeps.fetched (h : Keeps s u) (q : Nat) (ok : Bool) : Keeps s (u.fetched q ok) := by
  unfold State.fetched
  extract_lets d i b bad s1
  have h1 : Keeps s s1 := h.setQ ..
  clear_value bad
  split
  · extract_lets s2
    have h2 : Keeps s s2 := h1.malformed ..
    exact .ite ((h2.setQ ..).idxBack ..) h2
  · exact .ite ((h1.update (by rfl)).blockEvent ..) h1

theorem execPorterGrant_keeps (t : Time) (ok : Bool) (s : State) : KeepsNext s (execPorterGrant t ok s) := by
  unfold execPorterGrant
  extract_lets s1
  have h1 : Keeps s s1 := ((Keeps.refl s).tick ..).porterScan
  refine .ite h1.next ?_
  split
  · exact h1.next
  · extract_lets n s2 d s3
    have h2 : Keeps s s2 := h1.update (by rfl)
    have h3 : Keeps s s3 := (h2.setQ ..).bump ..
    exact (h3.fetched ..).porterScan.next

theorem execAgingPromotion_keeps (t : Time) (q : Nat) (s : State) : KeepsNext s (execAgingPromotion t q s) := by
  unfold execAgingPromotion
  extract_lets s1
  have h1 : Keeps s s1 := ((Keeps.refl s).tick ..).porterScan
  split
  · exact .ite (h1.setQ ..).next h1.next
  · exact h1.next

theorem execMarkRequestAccept_keeps (t : Time) (q : Nat) (ok : Bool) (s : State) :
    KeepsNext s (execMarkRequestAccept t q ok s) := by
  unfold execMarkRequestAccept
  extract_lets s1 d i s2 s3
  have h1 : Keeps s s1 := (Keeps.refl s).tick ..
  have h2 : Keeps s s2 := h1.setQ ..
  have h3 : Keeps s s3 := h2.popEntry ..
  split
  · extract_lets
    refine .ite h1.next ?_
    split
    · exact ((h1.malformed ..).popEntry ..).next
    · extract_lets e s4
      have h4 : Keeps s s4 := .ite ((h3.anchorsFirst ..).leadAnchor ..) ((h3.setCasement ..).pair ..)
      exact (h4.blockEvent ..).next
  · exact h1.next

theorem execRecordAccept_keeps (t : Time) (q : Nat) (ok : Bool) (s : State) :
    KeepsNext s (execRecordAccept t q ok s) := by
  unfold execRecordAccept
  extract_lets s1
  have h1 : Keeps s s1 := (Keeps.refl s).tick ..
  split
  · extract_lets fl n a data s2 _ s3
    have h2 : Keeps s s2 := h1.setQ ..
    have h3 : Keeps s s3 := h2.update (by rfl)
    exact .ite h1.next (.ite ((h1.malformed ..).popEntry ..).next ((h3.popEntry ..).blockEvent ..).next)
  · exact h1.next

theorem Keeps.produce (h : Keeps s u) (q : Nat) (es : List Bytes) : Keeps s (u.produce q es) := by
  unfold State.produce
  extract_lets s1
  have h1 : Keeps s s1 := by
    unfold s1
    refine h.foldl _ _ fun v x g => ?_
    extract_lets d s2
    have h2 : Keeps s s2 := g.memWrite ..
    exact h2.setQ ..
  exact (h1.idxBack ..).queueIrq ..

theorem execCompletionDrain_keeps (t : Time) (q : Nat) (s : State) : KeepsNext s (execCompletionDrain t q s) := by
  unfold execCompletionDrain
  extract_lets s1
  have h1 : Keeps s s1 := (Keeps.refl s).tick ..
  refine .ite h1.next ?_
  split
  extract_lets s2
  have h2 : Keeps s s2 := h1.update (by rfl)
  exact .ite h1.next ((h2.setn ..).produce ..).next

theorem Keeps.holdEvents (h : Keeps s u) (l : List Nat) : Keeps s (u.holdEvents l) := by
  unfold State.holdEvents
  refine h.foldl _ _ fun v x g => ?_
  exact .ite ((g.setQ ..).event ..) g

theorem execEventWrite_keeps (t : Time) (s : State) : KeepsNext s (execEventWrite t s) := by
  unfold execEventWrite
  extract_lets s1 s2
  have h1 : Keeps s s1 := (Keeps.refl s).tick ..
  have h2 : Keeps s s2 := h1.holdEvents ..
  split
  · exact h2.next
  · extract_lets q s3 s4
    have h3 : Keeps s s3 := h2.update (by rfl)
    have h4 : Keeps s s4 := h3.produce ..
    exact .ite h2.next (Keeps.next (.ite (h4.msix ..) h4))

theorem Keeps.mboxSubmit (h : Keeps s u) : Keeps s u.mboxSubmit := by
  unfold State.mboxSubmit
  exact h.update (by rfl)

theorem execMailboxSubmit_keeps (t : Time) (v : BitVec 32) (s : State) : KeepsNext s (execMailboxSubmit t v s) := by
  unfold execMailboxSubmit
  extract_lets s1
  have h1 : Keeps s s1 := (Keeps.refl s).tick ..
  exact .ite (h1.answer ..).next <| .ite (h1.answer ..).next <|
    .ite (h1.hostError ..).next (h1.mboxSubmit.answer ..).next

/-! ## The DMA channels and the link -/

theorem Keeps.dmaError (h : Keeps s u) (n code : Nat) : Keeps s (u.dmaError n code) := by
  unfold State.dmaError
  exact (h.setDma ..).event _ _ _ _

theorem Keeps.dmaSettle (h : Keeps s u) : Keeps s u.dmaSettle := by
  unfold State.dmaSettle
  refine h.foldl _ _ fun v x g => ?_
  split
  exact .ite g (g.setDma ..)

theorem Keeps.dmaStart (h : Keeps s u) (n : Nat) : Keeps s (u.dmaStart n) := by
  unfold State.dmaStart
  extract_lets d _ s1
  have h1 : Keeps s s1 := h.setDma ..
  exact .ite h (.ite (h1.dmaError ..) (h1.setDma ..).dmaSettle)

theorem Keeps.dmaAbort (h : Keeps s u) (n : Nat) : Keeps s (u.dmaAbort n) := by
  unfold State.dmaAbort
  exact .ite (h.dmaError ..).dmaSettle h

theorem execDmaStart_keeps (t : Time) (n : Fin 64) (s : State) : KeepsNext s (execDmaStart t n s) := by
  unfold execDmaStart
  extract_lets s1
  have h1 : Keeps s s1 := (Keeps.refl s).tick ..
  exact .ite (h1.answer ..).next ((h1.dmaStart ..).answer ..).next

theorem execDmaAbort_keeps (t : Time) (n : Fin 64) (s : State) : KeepsNext s (execDmaAbort t n s) := by
  unfold execDmaAbort
  extract_lets s1
  have h1 : Keeps s s1 := (Keeps.refl s).tick ..
  exact .ite (h1.answer ..).next ((h1.dmaAbort ..).answer ..).next

theorem Keeps.dmaMove (h : Keeps s u) (n : Nat) (ok : Bool) : Keeps s (u.dmaMove n ok) := by
  unfold State.dmaMove
  extract_lets
  split
  · exact h.dmaError ..
  · extract_lets s1 data _ s2 _ s3 d unit _ s4
    have h1 : Keeps s s1 := .ite (h.fault ..) h
    have h2 : Keeps s s2 := h.memWrite ..
    have h3 : Keeps s s3 := h2.update (by rfl)
    have h4 : Keeps s s4 := h3.setDma ..
    exact .ite (h1.dmaError ..) (.ite (.ite (h4.event ..) h4) (h3.setDma ..))

theorem execDmaBurst_keeps (t : Time) (n : Fin 64) (ok : Bool) (s : State) : KeepsNext s (execDmaBurst t n ok s) := by
  unfold execDmaBurst
  extract_lets s1
  have h1 : Keeps s s1 := ((Keeps.refl s).tick ..).dmaSettle
  exact .ite h1.next (h1.dmaMove ..).dmaSettle.next

theorem Keeps.dmaRegWrite (h : Keeps s u) (n off v : Nat) : Keeps s (u.dmaRegWrite n off v) := by
  unfold State.dmaRegWrite
  extract_lets d s1 s2
  have h1 : Keeps s s1 := .ite h (h.setDma ..)
  have h2 : Keeps s s2 := .ite (h1.dmaAbort ..) h1
  split
  · exact .ite (h2.dmaStart ..) h2
  · exact h.setDma ..
  · exact h.setDma ..
  · exact h.setDma ..
  · exact h.setDma ..
  · exact h.setDma ..
  · exact h.setDma ..
  · exact h.setDma ..
  · exact h.setDma ..
  · exact h.setDma ..
  · exact h.setDma ..
  · exact h

theorem Keeps.hostResetAll (h : Keeps s u) : Keeps s u.hostResetAll := by
  unfold State.hostResetAll
  extract_lets s1 s2
  have h1 : Keeps s s1 := by
    unfold s1
    refine h.foldl _ _ fun v x g => ?_
    split
    exact .ite (g.queueDisable ..) g
  have h2 : Keeps s s2 := by
    unfold s2
    refine h1.foldl _ _ fun v x g => ?_
    split
    exact .ite (g.dmaError ..) g
  exact h2.update (by rfl)

theorem execHostReset_keeps (t : Time) (kind : HostResetKind) (s : State) : KeepsNext s (execHostReset t kind s) := by
  unfold execHostReset
  extract_lets s1 s2 _ s3 s4
  have h1 : Keeps s s1 := (Keeps.refl s).tick ..
  have h2 : Keeps s s2 := h1.hostResetAll.setn ..
  have h3 : Keeps s s3 := h2.update (by rfl)
  have h4 : Keeps s s4 := (h3.setn ..).setn ..
  refine .ite h1.next ?_
  split
  · exact (((h4.event ..).setLive ..).fault ..).next
  · exact (h2.event ..).next

theorem execPcieLinkUp_keeps (t : Time) (speed width : Nat) (s : State) :
    KeepsNext s (execPcieLinkUp t speed width s) := by
  unfold execPcieLinkUp
  extract_lets s1 _ s2 s3
  have h1 : Keeps s s1 := (Keeps.refl s).tick ..
  have h2 : Keeps s s2 := h1.update (by rfl)
  have h3 : Keeps s s3 := (h2.setn ..).setn ..
  exact .ite h1.next ((h3.event ..).setLive ..).next

/-! ## Azrov: links, discovery and shared axes -/

theorem Keeps.showPorts (h : Keeps s u) : Keeps s u.showPorts := by
  unfold State.showPorts
  extract_lets s1
  have h1 : Keeps s s1 := by
    unfold s1
    refine h.foldl _ _ fun v x g => ?_
    extract_lets s2
    have h2 : Keeps s s2 := g.setn ..
    exact h2.setn ..
  exact h1.setn ..

theorem Keeps.flood (h : Keeps s u) (typ : Nat) (payload : Bytes) (from_ : Option Nat) (src : Nat) :
    Keeps s (u.flood typ payload from_ src) := by
  unfold State.flood
  exact h.foldl _ _ fun _ _ g => .ite g (g.sendCtl ..)

theorem Keeps.setView (h : Keeps s u) (x : Topo) : Keeps s (u.setView x) := by
  unfold State.setView
  exact h.update (by rfl)

theorem Keeps.discovering (h : Keeps s u) : Keeps s u.discovering := by
  unfold State.discovering
  exact .ite h (h.setn ..)

theorem Keeps.portsChanged (h : Keeps s u) : Keeps s u.portsChanged := by
  unfold State.portsChanged
  extract_lets s1 v l _ s2
  have h1 : Keeps s s1 := h.showPorts
  have h2 : Keeps s s2 := h1.update (by rfl)
  exact ((h2.setView ..).flood ..).discovering

theorem Keeps.stitchResend (h : Keeps s u) : Keeps s u.stitchResend := by
  unfold State.stitchResend
  refine h.foldl _ _ fun v x g => ?_
  split
  · exact .ite (g.multicast ..) g
  · refine g.foldl _ _ fun v x g => ?_
    split
    exact .ite (g.unicast ..) g

theorem Keeps.failLink (h : Keeps s u) (id : Nat) : Keeps s (u.failLink id) := by
  unfold State.failLink
  extract_lets
  split
  · exact h
  · extract_lets e tree s1 s2 lost s3 s4 _ s5
    have h1 : Keeps s s1 := h.update (by rfl)
    have h2 : Keeps s s2 := (h1.bump ..).event ..
    have h3 : Keeps s s3 := .ite (h2.event ..) h2
    have h4 : Keeps s s4 := .ite (h3.event _ _ _ _).discovering h3
    have h5 : Keeps s s5 := .ite (h4.update (by rfl)) h4
    exact h5.showPorts.stitchResend

theorem Keeps.passFailover (h : Keeps s u) (id : Nat) (from_ : Option Nat) : Keeps s (u.passFailover id from_) := by
  unfold State.passFailover
  extract_lets _ s1 s2
  have h1 : Keeps s s1 := h.update (by rfl)
  have h2 : Keeps s s2 := h1.foldl _ _ fun _ _ g => .ite g (g.send ..)
  exact .ite h (h2.failLink ..)

theorem Keeps.portDown (h : Keeps s u) (p : Nat) (cause : DownCause) : Keeps s (u.portDown p cause) := by
  unfold State.portDown
  extract_lets x l inTree was s1 s2 s3 s4 s5
  have h2 : Keeps s s2 := (h.setPort ..).event ..
  have h3 : Keeps s s3 := .ite (h2.event ..) h2
  have h4 : Keeps s s4 := .ite ((h3.setLive ..).fault ..) h3
  clear_value l
  have h5 : Keeps s s5 := by
    unfold s5
    split
    · exact .ite (h4.passFailover ..) h4
    · exact h4
  exact .ite h h5.portsChanged

theorem execPortUp_keeps (t : Time) (p : Fin 4) (s : State) : KeepsNext s (execPortUp t p s) := by
  unfold execPortUp
  extract_lets s1 x _ s2
  have h1 : Keeps s s1 := (Keeps.refl s).tick ..
  have h2 : Keeps s s2 := h1.setPort ..
  exact .ite h1.next ((h2.setLive ..).event ..).portsChanged.next

theorem execPortDown_keeps (t : Time) (p : Fin 4) (cause : DownCause) (s : State) :
    KeepsNext s (execPortDown t p cause s) := by
  unfold execPortDown
  exact (((Keeps.refl s).tick ..).portDown ..).next

theorem execFailover_keeps (t : Time) (p : Fin 4) (link : Nat) (s : State) :
    KeepsNext s (execFailover t p link s) := by
  unfold execFailover
  extract_lets s1
  have h1 : Keeps s s1 := (Keeps.refl s).tick ..
  exact .ite h1.next (h1.passFailover ..).next

theorem execRediscoveryStart_keeps (t : Time) (link : Nat) (s : State) :
    KeepsNext s (execRediscoveryStart t link s) := by
  unfold execRediscoveryStart
  extract_lets s1 here _ s2
  have h1 : Keeps s s1 := (Keeps.refl s).tick ..
  have h2 : Keeps s s2 := h1.update (by rfl)
  exact .ite (h2.event ..).portsChanged.next h1.next

theorem Keeps.enterConflict (h : Keeps s u) : Keeps s u.enterConflict := by
  unfold State.enterConflict
  exact .ite h (((h.update (by rfl)).setn ..).event ..)

theorem Keeps.sentAt (h : Keeps s u) (i : Nat) (t : Time) : Keeps s (u.sentAt i t) := by
  unfold State.sentAt
  exact h.update (by rfl)

theorem execHelloSend_keeps (t : Time) (s : State) : KeepsNext s (execHelloSend t s) := by
  unfold execHelloSend
  extract_lets s1 s2
  have h1 : Keeps s s1 := (Keeps.refl s).tick ..
  have h2 : Keeps s s2 := h1.sentAt ..
  exact .ite h1.next (h2.foldl _ _ fun _ _ g => .ite (g.sendCtl ..) g).next

theorem Keeps.hello (h : Keeps s u) (p src fabric nbPort : Nat) (root : Bool) (serial : Nat) :
    Keeps s (u.hello p src fabric nbPort root serial) := by
  unfold State.hello
  extract_lets x s1 roots _ s2
  have h1 : Keeps s s1 := .ite h.enterConflict h
  have h2 : Keeps s s2 := h1.update (by rfl)
  exact .ite (.ite h ((h.setPort ..).event ..).portsChanged) (.ite h2 (h2.setPort ..).portsChanged)

theorem execHello_keeps (t : Time) (p : Fin 4) (seq src fabric nbPort : Nat) (root : Bool) (serial : Nat)
    (s : State) :
    KeepsNext s (execHello t p seq src fabric nbPort root serial s) := by
  unfold execHello
  exact (((Keeps.refl s).tick ..).linkIn _ _ _ fun _ g => g.hello ..).next

theorem Keeps.topology (h : Keeps s u) (p src version : Nat) (entries : List TopoEntry) :
    Keeps s (u.topology p src version entries) := by
  unfold State.topology
  extract_lets s1 back own failed _ s2
  have h1 : Keeps s s1 := h.setView ..
  have h2 : Keeps s s2 := h1.update (by rfl)
  exact .ite h (.ite (.ite h.enterConflict h) (.ite h (h2.flood ..).discovering))

theorem execTopology_keeps (t : Time) (p : Fin 4) (seq src version : Nat) (entries : List TopoEntry) (s : State) :
    KeepsNext s (execTopology t p seq src version entries s) := by
  unfold execTopology
  exact (((Keeps.refl s).tick ..).linkIn _ _ _ fun _ g => g.topology ..).next

theorem Keeps.stageTree (h : Keeps s u) (version applyTime root epoch : Nat) :
    Keeps s (u.stageTree version applyTime root epoch) := by
  unfold State.stageTree
  exact h.update (by rfl)

theorem execViewStable_keeps (t : Time) (s : State) : KeepsNext s (execViewStable t s) := by
  unfold execViewStable
  extract_lets s1 s2
  have h1 : Keeps s s1 := (Keeps.refl s).tick ..
  have h2 : Keeps s s2 := (h1.setn ..).event ..
  refine .ite h1.next ?_
  split
  exact .ite h2.next ((h2.flood ..).stageTree ..).next

theorem Keeps.treeIn (h : Keeps s u) (p version applyTime root epoch : Nat) :
    Keeps s (u.treeIn p version applyTime root epoch) := by
  unfold State.treeIn
  exact .ite h ((h.flood ..).stageTree ..)

theorem execTree_keeps (t : Time) (p : Fin 4) (seq version applyTime root epoch : Nat) (s : State) :
    KeepsNext s (execTree t p seq version applyTime root epoch s) := by
  unfold execTree
  exact (((Keeps.refl s).tick ..).linkIn _ _ _ fun _ g => g.treeIn ..).next

theorem execTreeApply_keeps (t : Time) (s : State) : KeepsNext s (execTreeApply t s) := by
  unfold execTreeApply
  extract_lets s1
  have h1 : Keeps s s1 := (Keeps.refl s).tick ..
  split
  · exact h1.next
  · extract_lets s2 s3 s4 s5
    have h2 : Keeps s s2 := h1.update (by rfl)
    have h3 : Keeps s s3 := h2.setn ..
    have h4 : Keeps s s4 := .ite (h3.setn ..) h3
    have h5 : Keeps s s5 := .ite h4 (h4.event ..)
    exact .ite h1.next h5.showPorts.stitchResend.next

theorem Keeps.resendFrame (h : Keeps s u) (p seq : Nat) : Keeps s (u.resendFrame p seq) := by
  unfold State.resendFrame
  extract_lets
  split
  · exact h
  · exact .ite (h.portDown ..) (((h.setPort ..).bumpPart ..).send ..)

theorem execAck_keeps (t : Time) (p : Fin 4) (seq : Nat) (s : State) : KeepsNext s (execAck t p seq s) := by
  unfold execAck
  extract_lets s1
  have h1 : Keeps s s1 := (Keeps.refl s).tick ..
  exact ((h1.setPort ..).portFlush ..).next

theorem execNak_keeps (t : Time) (p : Fin 4) (seq : Nat) (s : State) : KeepsNext s (execNak t p seq s) := by
  unfold execNak
  exact (((Keeps.refl s).tick ..).resendFrame ..).next

theorem execReplayTimeout_keeps (t : Time) (p : Fin 4) (s : State) : KeepsNext s (execReplayTimeout t p s) := by
  unfold execReplayTimeout
  extract_lets s1
  have h1 : Keeps s s1 := (Keeps.refl s).tick ..
  split
  · exact (h1.resendFrame ..).next
  · exact h1.next

theorem execTimeSyncSend_keeps (t : Time) (p : Fin 4) (s : State) : KeepsNext s (execTimeSyncSend t p s) := by
  unfold execTimeSyncSend
  extract_lets s1
  have h1 : Keeps s s1 := (Keeps.refl s).tick ..
  exact .ite ((h1.sentAt ..).sendCtl ..).next h1.next

theorem Keeps.timeSync (h : Keeps s u) (p : Nat) (t1 t2 t3 t4 foffParent : Int) :
    Keeps s (u.timeSync p t1 t2 t3 t4 foffParent) := by
  unfold State.timeSync
  exact .ite ((h.setn ..).setn ..) (.ite (h.sendCtl ..) h)

theorem execTimeSync_keeps (t : Time) (p : Fin 4) (seq : Nat) (t1 t2 t3 t4 foffParent : Int) (s : State) :
    KeepsNext s (execTimeSync t p seq t1 t2 t3 t4 foffParent s) := by
  unfold execTimeSync
  exact (((Keeps.refl s).tick ..).linkIn _ _ _ fun _ g => g.timeSync ..).next

theorem Keeps.sendPos (h : Keeps s u) (src seq : Nat) (b : Bytes) (from_ : Option Nat) :
    Keeps s (u.sendPos src seq b from_) := by
  unfold State.sendPos
  refine .ite h ?_
  refine h.foldl _ _ fun v x g => ?_
  split
  exact .ite g (g.send ..)

theorem execPositionSend_keeps (t : Time) (j : Fin 8) (s : State) : KeepsNext s (execPositionSend t j s) := by
  unfold execPositionSend
  extract_lets s1 k seq b _ s2
  have h1 : Keeps s s1 := (Keeps.refl s).tick ..
  have h2 : Keeps s s2 := h1.update (by rfl)
  exact .ite h1.next ((h2.sentAt ..).sendPos ..).next

theorem Keeps.discardPos (h : Keeps s u) (slot : Nat) (t : Time) : Keeps s (u.discardPos slot t) := by
  unfold State.discardPos
  extract_lets s1
  have h1 : Keeps s s1 := .ite (h.bump ..) h
  exact .ite ((h1.update (by rfl)).event ..) h1

theorem Keeps.takePos (h : Keeps s u) (k : Nat) (f : PosFrame) : Keeps s (u.takePos k f) := by
  unfold State.takePos
  exact h.setLax ..

theorem execPosition_keeps (t : Time) (p : Fin 4) (f : PosFrame) (s : State) :
    KeepsNext s (execPosition t p f s) := by
  unfold execPosition
  extract_lets s1 b s2 clash _ s3 inst last fresh fb s4
  have h1 : Keeps s s1 := (Keeps.refl s).tick ..
  have h2 : Keeps s s2 := h1.sendPos ..
  have h3 : Keeps s s3 := .ite ((h2.update (by rfl)).event ..) h2
  have h4 : Keeps s s4 := h3.update (by rfl)
  exact .ite h1.next <|
    .ite (h3.discardPos ..).next (h4.foldl _ _ fun _ _ g => .ite (g.takePos ..) (g.sourceFault ..)).next

theorem execPositionLossTimeout_keeps (t : Time) (k : Fin 32) (s : State) :
    KeepsNext s (execPositionLossTimeout t k s) := by
  unfold execPositionLossTimeout
  extract_lets s1
  have h1 : Keeps s s1 := (Keeps.refl s).tick ..
  exact .ite (h1.sourceFault ..).next h1.next

theorem Keeps.takeAnchor (h : Keeps s u) (c : Nat) (id : MarkId) (ref : Nat) (aref : Int) (ftime template tag : Nat) :
    Keeps s (u.takeAnchor c id ref aref ftime template tag) := by
  unfold State.takeAnchor
  exact .ite h (.ite ((h.bumpPart ..).event ..) (h.capture ..))

theorem Keeps.anchorIn (h : Keeps s u) (p dst : Nat) (id : MarkId) (ref : Nat) (aref : Int)
    (ftime template tag : Nat) :
    Keeps s (u.anchorIn p dst id ref aref ftime template tag) := by
  unfold State.anchorIn
  exact .ite h (.ite (h.unicast ..) (.ite h (h.foldl _ _ fun _ _ g => .ite ((g.anchorFirst ..).takeAnchor ..) g)))

theorem execAnchor_keeps (t : Time) (p : Fin 4) (seq dst : Nat) (id : MarkId) (ref : Nat) (aref : Int)
    (ftime template tag : Nat) (s : State) :
    KeepsNext s (execAnchor t p seq dst id ref aref ftime template tag s) := by
  unfold execAnchor
  exact (((Keeps.refl s).tick ..).linkIn _ _ _ fun _ g => g.anchorIn ..).next

theorem Keeps.voteIn (h : Keeps s u) (p : Nat) (id : MarkId) (src cas : Nat) (yes : Bool) (items deadline : Nat) :
    Keeps s (u.voteIn p id src cas yes items deadline) := by
  unfold State.voteIn
  exact .ite h (.ite (h.addVote ..) (h.unicast ..))

theorem execVoteReceive_keeps (t : Time) (p : Fin 4) (seq : Nat) (id : MarkId) (src cas : Nat) (yes : Bool)
    (items deadline : Nat) (s : State) :
    KeepsNext s (execVoteReceive t p seq id src cas yes items deadline s) := by
  unfold execVoteReceive
  exact (((Keeps.refl s).tick ..).linkIn _ _ _ fun _ g => g.voteIn ..).takeCommands.next

theorem execVoteCutoff_keeps (t : Time) (c : Fin 48) (s : State) : KeepsNext s (execVoteCutoff t c s) := by
  unfold execVoteCutoff
  extract_lets s1
  have h1 : Keeps s s1 := (Keeps.refl s).tick ..
  split
  · exact h1.next
  · extract_lets
    exact .ite (h1.stitchTest ..).takeCommands.next (((h1.bumpBy ..).event ..).stitchDecide ..).takeCommands.next

theorem Keeps.expire (h : Keeps s u) (c : Nat) (m : Mark) : Keeps s (u.expire c m) := by
  unfold State.expire
  extract_lets _ s1
  have h1 : Keeps s s1 := by
    unfold s1
    split
    · exact h.update (by rfl)
    · exact h
  exact h1.refuse ..

theorem execGoDeadline_keeps (t : Time) (c : Fin 48) (s : State) : KeepsNext s (execGoDeadline t c s) := by
  unfold execGoDeadline
  extract_lets s1
  have h1 : Keeps s s1 := (Keeps.refl s).tick ..
  split
  · exact .ite ((h1.expire ..).takeCommand ..).next h1.next
  · exact h1.next

theorem Keeps.goLate (h : Keeps s u) (c : Nat) (id : MarkId) : Keeps s (u.goLate c id) := by
  unfold State.goLate
  extract_lets _ s1
  have h1 : Keeps s s1 := h.update (by rfl)
  exact (h1.bumpPart ..).event ..

theorem Keeps.decisionIn (h : Keeps s u) (id : MarkId) (go : Bool) : Keeps s (u.decisionIn id go) := by
  unfold State.decisionIn
  refine h.foldl _ _ fun v x g => ?_
  split
  · exact .ite ((g.expire ..).goLate ..) (g.stitchEnd ..)
  · exact .ite (g.goLate ..) g

theorem Keeps.decisionFrame (h : Keeps s u) (p : Nat) (id : MarkId) (go : Bool) :
    Keeps s (u.decisionFrame p id go) := by
  unfold State.decisionFrame
  exact .ite h ((h.multicast ..).decisionIn ..)

theorem execGo_keeps (t : Time) (p : Fin 4) (seq : Nat) (id : MarkId) (s : State) :
    KeepsNext s (execGo t p seq id s) := by
  unfold execGo
  exact (((Keeps.refl s).tick ..).linkIn _ _ _ fun _ g => g.decisionFrame ..).takeCommands.next

theorem execAbort_keeps (t : Time) (p : Fin 4) (seq : Nat) (id : MarkId) (s : State) :
    KeepsNext s (execAbort t p seq id s) := by
  unfold execAbort
  exact (((Keeps.refl s).tick ..).linkIn _ _ _ fun _ g => g.decisionFrame ..).takeCommands.next

theorem Keeps.reportIn (h : Keeps s u) (p : Nat) (id : MarkId) (src cas flags late : Nat) :
    Keeps s (u.reportIn p id src cas flags late) := by
  unfold State.reportIn
  refine .ite h ?_
  refine .ite (h.unicast ..) ?_
  split
  · exact h
  · extract_lets x s1
    have h1 : Keeps s s1 := h.setStitch ..
    exact .ite (h1.update (by rfl)) (h1.leadTry ..)

theorem execReport_keeps (t : Time) (p : Fin 4) (seq : Nat) (id : MarkId) (src cas : Nat) (flags : BitVec 32)
    (late : Nat) (s : State) :
    KeepsNext s (execReport t p seq id src cas flags late s) := by
  unfold execReport
  exact (((Keeps.refl s).tick ..).linkIn _ _ _ fun _ g => g.reportIn ..).next

theorem Keeps.reportMissing (h : Keeps s u) (c : Nat) (x : Stitch) : Keeps s (u.reportMissing c x) := by
  unfold State.reportMissing
  extract_lets n s1 y s2
  have h1 : Keeps s s1 := (h.bumpBy ..).event ..
  have h2 : Keeps s s2 := by
    unfold s2
    split
    · split
      rename_i s3 e1
      have h2 : Keeps s s3 := (h1.rejectTag ..).snd e1
      exact h2.setCasement ..
    · exact h1
  split
  · exact h1.leadFinish ..
  · exact h2.update (by rfl)

theorem execReportMarginReached_keeps (t : Time) (c : Fin 48) (s : State) :
    KeepsNext s (execReportMarginReached t c s) := by
  unfold execReportMarginReached
  extract_lets s1
  have h1 : Keeps s s1 := (Keeps.refl s).tick ..
  split
  · exact h1.next
  · exact .ite (h1.reportMissing ..).next h1.next

theorem execLineAxisUpdate_keeps (t : Time) (k : Fin 32) (s : State) : KeepsNext s (execLineAxisUpdate t k s) := by
  unfold execLineAxisUpdate
  extract_lets s1 s2
  have h1 : Keeps s s1 := (Keeps.refl s).tick ..
  have h2 : Keeps s s2 := h1.laxUpdate ..
  exact .ite h1.next (h2.foldl _ _ fun _ _ g => .ite (g.stitchTest ..) g).takeCommands.next

/-! ## Calibration layers, the boot and the images -/

theorem Keeps.recal (h : Keeps s u) (idx base n : Nat) : Keeps s (u.recal idx base n) := by
  unfold State.recal
  split
  · exact h.setn ..
  · exact h.setn ..
  · exact h

theorem Keeps.otpShadowLoad (h : Keeps s u) : Keeps s u.otpShadowLoad := by
  unfold State.otpShadowLoad
  exact h.update (by rfl)

theorem Keeps.otpLoad (h : Keeps s u) : Keeps s u.otpLoad := by
  unfold State.otpLoad
  extract_lets s1 bad fixed split _ s2 s3 s4 s5 s6 s7 s8 s9
  have h1 : Keeps s s1 := h.otpShadowLoad
  have h2 : Keeps s s2 := h1.update (by rfl)
  have h3 : Keeps s s3 := (h2.setn ..).setn ..
  have h4 : Keeps s s4 := .ite h3 (h3.setv ..)
  have h5 : Keeps s s5 := (h4.setn ..).setn ..
  have h6 : Keeps s s6 := h5.foldl _ _ fun _ _ g => g.setn ..
  have h7 : Keeps s s7 := ((h6.setn ..).setn ..).setn ..
  have h8 : Keeps s s8 := (h7.setn ..).setn ..
  have h9 : Keeps s s9 := by
    unfold s9
    refine h8.foldl _ _ fun v x g => ?_
    split
    exact g.setn ..
  exact h9.foldl _ _ fun _ _ g => (g.event ..).fault ..

theorem Keeps.notaryStart (h : Keeps s u) : Keeps s u.notaryStart := by
  unfold State.notaryStart
  generalize publicKey = pk
  generalize keyDigest = kd
  refine h.foldl _ _ fun v k g => ?_
  have h1 := g.showKey k
  generalize v.showKey k = v1 at h1 ⊢
  cases pk (v.slotScalar k)
  have hset {n : Nat} {z : Int} {c : Prop} [Decidable c] : Keeps s ((if c then v1 else v).setn n z) :=
    Keeps.setn (.ite h1 g) ..
  exact .ite (Keeps.fault (.ite (hset.event _ _ _ _) hset) ..) (.ite (hset.event _ _ _ _) hset)

theorem Keeps.showSlots (h : Keeps s u) : Keeps s u.showSlots := by
  unfold State.showSlots
  exact (h.setn ..).setn ..

theorem Keeps.startSlot (h : Keeps s u) (n : Nat) : Keeps s (u.startSlot n) := by
  unfold State.startSlot
  extract_lets b c s1
  have h1 : Keeps s s1 := by
    unfold s1
    refine .ite h ?_
    split
    · exact (h.flashWrite ..).event ..
    · exact h
  exact h1.update (by rfl)

theorem Keeps.selectImage (h : Keeps s u) : Keeps s u.selectImage := by
  unfold State.selectImage
  extract_lets rejected recovery _ s1 a b _ s2 act s3
  have hrejected {v : State} (g : Keeps s v) (c : Nat) : Keeps s (rejected v c) := .ite g (g.event ..)
  have hrecovery {v : State} (g : Keeps s v) : Keeps s (recovery v) := by
    unfold recovery
    extract_lets c _ s2
    have h2 : Keeps s s2 := hrejected (g.update (by rfl)) _
    exact .ite (h2.startSlot 2) (h2.update (by rfl))
  have h1 : Keeps s s1 := h.update (by rfl)
  have h2 : Keeps s s2 := hrejected (hrejected (h1.update (by rfl)) _) _
  have h3 : Keeps s s3 := by
    unfold s3
    split
    · refine .ite ?_ (.ite (Keeps.startSlot (.ite (h2.event ..) h2) 0)
        (.ite (Keeps.startSlot (.ite (h2.event ..) h2) 1) (hrecovery h2)))
      split
      rename_i s4 e
      exact (Keeps.snd (.ite_snd (h2.free ..) h2) e).startSlot _
    · exact hrecovery h1
    · exact h1.update (by rfl)
    · exact h1.update (by rfl)
  exact h3.showSlots

theorem Keeps.updateAct (h : Keeps s u) : Keeps s u.updateAct := by
  unfold State.updateAct
  extract_lets _ _ c
  refine .ite (h.setn ..) ?_
  exact Keeps.setn (Keeps.update (h.setMem (Mem.wf_filterFlash _)) (by rfl)) ..

theorem execUpdateDone_keeps (t : Time) (ok : Bool) (s : State) : KeepsNext s (execUpdateDone t ok s) := by
  unfold execUpdateDone
  extract_lets s1 _ s2 o run trial
  have h1 : Keeps s s1 := (Keeps.refl s).tick ..
  have h2 : Keeps s s2 := h1.update (by rfl)
  split
  · exact h1.next
  · extract_lets +onlyGivenNames d s3
    have h3 : Keeps s s3 := (h2.flashWrite ..).flashWrite ..
    clear_value s3
    revert s3
    -- `id` binds the state anew, so that the kernel does not compute how it came about
    refine id fun s3 h3 => .ite (h2.setn ..).next ?_
    extract_lets c _ s4
    have h4 : Keeps s s4 := h3.update (by rfl)
    exact (h4.setn ..).showSlots.next

theorem execConfirmed_keeps (t : Time) (s : State) : KeepsNext s (execConfirmed t s) := by
  unfold execConfirmed
  extract_lets s1
  have h1 : Keeps s s1 := (Keeps.refl s).tick ..
  split
  · exact h1.next
  · extract_lets s2 _ s3
    have h2 : Keeps s s2 := h1.flashWrite ..
    have h3 : Keeps s s3 := h2.update (by rfl)
    exact .ite h1.next (h3.event ..).showSlots.next

theorem Keeps.storeLoad (h : Keeps s u) : Keeps s u.storeLoad := by
  unfold State.storeLoad
  extract_lets fresh _ s1
  have h1 : Keeps s s1 := h.update (by rfl)
  split
  · exact h1.event ..
  · extract_lets s2
    have h2 : Keeps s s2 := by
      unfold s2
      refine h1.foldl _ _ fun v x g => ?_
      split
      exact g.setv ..
    refine .ite h1 ?_
    refine h2.foldl _ _ fun v x g => ?_
    split
    exact .ite (g.enforce ..) g

/-! ## The Lamplighter's program store -/

theorem Keeps.shadowWrite (h : Keeps s u) (v : Nat) : Keeps s (u.shadowWrite v) := by
  unfold State.shadowWrite
  exact h.update (by rfl)

theorem Keeps.lampCommit (h : Keeps s u) : Keeps s u.lampCommit := by
  unfold State.lampCommit
  extract_lets entry r _ s1
  have h1 : Keeps s s1 := .ite (h.update (by rfl)) h
  exact (h1.setn ..).event ..

/-! ## Device modes, resets and start-up -/

theorem Keeps.enforceAll (h : Keeps s u) (te : Te) : Keeps s (u.enforceAll te) := by
  unfold State.enforceAll
  exact h.foldl _ _ fun _ _ g => .ite (g.enforce ..) g

theorem Keeps.showSashes (h : Keeps s u) : Keeps s u.showSashes := by
  unfold State.showSashes
  extract_lets s1
  have h1 : Keeps s s1 := h.foldl _ _ fun _ _ g => (g.setn ..).setn ..
  refine h1.foldl _ _ fun v x g => ?_
  refine .ite g ?_
  refine g.foldl _ _ fun v x g => ?_
  exact (g.setn ..).setn ..

theorem Keeps.enterStandby (h : Keeps s u) : Keeps s u.enterStandby := by
  unfold State.enterStandby
  extract_lets s1
  have h1 : Keeps s s1 := .ite (h.setn ..) h
  exact (h1.enforceAll ..).showSashes.enterMode ..

theorem Keeps.windDown (h : Keeps s u) : Keeps s u.windDown := by
  unfold State.windDown
  extract_lets s1
  have h1 : Keeps s s1 := by
    unfold s1
    refine h.foldl _ _ fun v x g => ?_
    extract_lets st s2
    have h2 : Keeps s s2 := by
      unfold s2
      split
      · exact .ite (g.svcEnd ..) g
      · exact g
    exact .ite (h2.beginPowerDown ..) g
  exact h1.foldl _ _ fun _ _ g => g.axLeave ..

theorem Keeps.leaveSafe (h : Keeps s u) : Keeps s u.leaveSafe := by
  unfold State.leaveSafe
  extract_lets s1
  have h1 : Keeps s s1 := by
    unfold s1
    refine h.foldl _ _ fun v x g => ?_
    exact .ite ((g.setCasement ..).toCold ..) g
  exact (h1.foldl _ _ fun _ _ g => g.axLeave ..).enterStandby

theorem Keeps.transTry (h : Keeps s u) : Keeps s u.transTry := by
  unfold State.transTry
  extract_lets _ s1
  have h1 : Keeps s s1 := h.update (by rfl)
  split
  · exact .ite ((h.update (by rfl)).enterStandby.setn ..) h
  · exact .ite h (((h1.foldl _ _ fun _ _ g => g.axLeave ..).enterMode ..).setn ..)
  · exact h

theorem Keeps.modeAsk (h : Keeps s u) (m : Nat) : Keeps s (u.modeAsk m).2 := by
  unfold State.modeAsk
  extract_lets cur into _ w s1
  have hinto (c : Nat) : Keeps s (into c).2 := .ite_snd h (h.enterMode _)
  refine .ite_snd h (.ite_snd h (.ite_snd (.ite_snd h.enterSafe h) (.ite_snd h ?_)))
  have hw : Keeps s w := h.windDown
  clear_value cur into w
  have h1 : Keeps s s1 := hw.update (by rfl)
  clear_value s1
  split
  · cases leastOf u.configFaults with
    | none => exact h.enterStandby.inSnd
    | some k => exact (h.setn ..).inSnd
  · exact .ite_snd h ((h.update (by rfl)).startProgram ..)
  · exact hinto _
  · exact hinto _
  · exact hinto _
  · exact hinto _
  · exact hinto _
  · exact hinto _
  · exact .ite_snd h (.ite_snd h1.transTry h1)
  · exact .ite_snd h (.ite_snd h1.transTry h1)
  · exact .ite_snd h (.ite_snd h (.ite_snd (h.free 8).inSnd h.leaveSafe.inSnd))
  · exact h

theorem Keeps.modeRequest (h : Keeps s u) (m : Nat) : Keeps s (u.modeRequest m) := by
  unfold State.modeRequest
  extract_lets _ s1
  have h1 : Keeps s s1 := h.update (by rfl)
  split
  rename_i s2 e
  have h2 : Keeps s s2 := (h1.modeAsk ..).snd e
  exact .ite (h2.setn ..) ((h2.setn ..).event _ _ _ _)

theorem Keeps.startupAsk (h : Keeps s u) (m : Nat) : Keeps s (u.startupAsk m).2 := by
  unfold State.startupAsk
  split
  rename_i s1 e
  extract_lets s2
  have h2 : Keeps s s2 := ((h.modeAsk ..).snd e).setn ..
  exact .ite_snd h2 ((h2.update (by rfl)).event _ _ _ _)

theorem Keeps.startupReady (h : Keeps s u) : Keeps s u.startupReady := by
  unfold State.startupReady
  refine .ite ?_ h
  split
  rename_i s1 e1
  have h1 : Keeps s s1 := (h.startupAsk ..).snd e1
  exact h1.update (by rfl)

theorem execStartupStandbyRequest_keeps (t : Time) (s : State) : KeepsNext s (execStartupStandbyRequest t s) := by
  unfold execStartupStandbyRequest
  extract_lets s1
  have h1 : Keeps s s1 := (Keeps.refl s).tick ..
  split
  · exact h1.next
  · refine .ite h1.next ?_
    split
    rename_i s2 e1
    have h2 : Keeps s s2 := (h1.startupAsk ..).snd e1
    exact .ite h2.next (.ite h2.startupReady.next (h2.update (by rfl)).next)

theorem execModeTransitionComplete_keeps (t : Time) (s : State) : KeepsNext s (execModeTransitionComplete t s) := by
  unfold execModeTransitionComplete
  exact ((Keeps.refl s).tick ..).transTry.next

theorem Keeps.putBank (h : Keeps s u) (b : Bank) : Keeps s (u.putBank b) := by
  unfold State.putBank
  exact .ite (h.update (by rfl)) (h.update (by rfl))

theorem Keeps.otpCut (h : Keeps s u) : Keeps s u.otpCut := by
  unfold State.otpCut
  extract_lets burn
  have hburn {v : State} (g : Keeps s v) (x1 : Nat) (x2 : Nat) (x3 : Nat) : Keeps s (burn v x1 x2 x3) := g.update (by rfl)
  split
  · exact h
  · extract_lets
    split
    rename_i s1 e1
    have h1 : Keeps s s1 := (h.free ..).snd e1
    split
    · exact hburn h1 ..
    · refine h1.foldl _ _ fun v x g => ?_
      split
      exact hburn g ..

theorem Keeps.cleared (h : Keeps s u) (powerOn : Bool) : Keeps s (u.cleared powerOn) := by
  unfold State.cleared
  extract_lets s1
  have h1 : Keeps s s1 := h.otpCut
  split
  rename_i s2 e
  have h2 : Keeps s s2 := (h1.free ..).snd e
  extract_lets s3
  have h3 : Keeps s s3 := by
    unfold s3
    split
    · exact .ite (h2.putBank ..) h2
    · exact h2
  exact ⟨h3.queue, h3.time, fun x => Mem.wf_dropDram (h3.mem x), fun _ => rfl⟩

theorem execPorstLow_keeps (t : Time) (s : State) : KeepsNext s (execPorstLow t s) := by
  unfold execPorstLow
  exact (((Keeps.refl s).tick ..).cleared ..).next

theorem Keeps.beginReset (h : Keeps s u) (cause : Nat) : Keeps s (u.beginReset cause) := by
  unfold State.beginReset
  extract_lets s1
  have h1 : Keeps s s1 := h.cleared ..
  exact h1.update (by rfl)

theorem Keeps.shutdownEnded (h : Keeps s u) : Keeps s u.shutdownEnded := by
  unfold State.shutdownEnded
  split
  · exact h.beginReset ..
  · exact h

theorem Keeps.resetAfterShutdown (h : Keeps s u) (cause : Nat) : Keeps s (u.resetAfterShutdown cause) := by
  unfold State.resetAfterShutdown
  exact (h.update (by rfl)).hwShutdown

theorem Keeps.timeStart (h : Keeps s u) : Keeps s u.timeStart := by
  unfold State.timeStart
  split
  rename_i s1 e1
  have h1 : Keeps s s1 := (h.free ..).snd e1
  extract_lets _ s2
  have h2 : Keeps s s2 := (h1.update (by rfl)).calAdvance
  exact .ite ((h2.update (by rfl)).setn ..) (((h2.update (by rfl)).setn ..).event ..)

theorem Keeps.finishBoot (h : Keeps s u) : Keeps s u.finishBoot := by
  unfold State.finishBoot
  have h1 := h.setMem Mem.wf_dropDram
  generalize ({ u with mem := { u.mem with dram := [] } } : State) = s1 at h1 ⊢
  extract_lets +onlyGivenNames s1 s2 stored s3
  have h3 : Keeps s s3 := h1.notaryStart.storeLoad
  clear_value s3 stored
  revert s3
  -- `id` binds the state anew, so that the kernel does not compute how it came about
  refine id fun s3 h3 => ?_
  extract_lets -underBinder +onlyGivenNames s4
  have h4 : Keeps s s4 := by
    cases stored with
    | none => exact h3
    | some b => exact Keeps.lampCommit (h3.update (by rfl))
  clear_value s4
  extract_lets -underBinder +onlyGivenNames s5 s6 s7 s8
  have h5 : Keeps s s5 := h4.foldl _ _ fun _ _ g => g.recal ..
  clear_value s5
  have h7 : Keeps s s7 := (h5.setn ..).foldl _ _ fun _ _ g => (g.setn ..).talMark _
  have h8 : Keeps s s8 := h7.showSashes
  clear_value s8
  revert s8
  -- `id` binds the state anew, so that the kernel does not compute how it came about
  refine id fun s8 h8 => ?_
  extract_lets _ s9 _ s10 _ s11
  have h9 : Keeps s s9 := h8.update (by rfl)
  have h10 : Keeps s s10 := h9.update (by rfl)
  have h11 : Keeps s s11 := .ite h10 (h10.update (by rfl))
  clear_value s11
  split
  rename_i d s12 e
  have h12 : Keeps s s12 := (h11.free ..).snd e
  extract_lets +onlyGivenNames s13 s14 s15 s16
  have h16 : Keeps s s16 := (((h12.setn ..).enterMode _).startProgram ..).event _ _ _ _
  clear_value s16
  revert s16
  -- `id` binds the state anew, so that the kernel does not compute how it came about
  refine id fun s16 h16 => ?_
  extract_lets g _ s17
  have h17 : Keeps s s17 := h16.update (by rfl)
  exact h17.foldl _ _ fun _ _ g => .ite (g.send ..) g

theorem Keeps.bootRun (h : Keeps s u) (cause : Nat) : Keeps s (u.bootRun cause) := by
  unfold State.bootRun
  extract_lets _ s1 s2 s3 s4
  have h1 : Keeps s s1 := h.update (by rfl)
  have h2 : Keeps s s2 := (h1.setn ..).setn ..
  have h3 : Keeps s s3 := .ite h2.timeStart h2
  have h4 : Keeps s s4 := h3.otpLoad.selectImage
  exact .ite h4.finishBoot h4

theorem execPorstRelease_keeps (t : Time) (straps : BitVec 3) (s : State) :
    KeepsNext s (execPorstRelease t straps s) := by
  unfold execPorstRelease
  extract_lets s1
  have h1 : Keeps s s1 := (Keeps.refl s).tick ..
  exact .ite h1.next ((h1.update (by rfl)).bootRun ..).next

theorem execResetHoldEnd_keeps (t : Time) (s : State) : KeepsNext s (execResetHoldEnd t s) := by
  unfold execResetHoldEnd
  extract_lets s1
  have h1 : Keeps s s1 := (Keeps.refl s).tick ..
  split
  · exact .ite (h1.bootRun ..).next h1.next
  · exact h1.next

theorem Keeps.beginRestart (h : Keeps s u) : Keeps s u.beginRestart := by
  unfold State.beginRestart
  extract_lets s1 _ s2 _ s3
  have h1 : Keeps s s1 := by
    unfold s1
    refine .ite ?_ h
    split
    rename_i s4 e1
    have h1 : Keeps s s4 := (h.free ..).snd e1
    exact (h1.update (by rfl)).setn ..
  have h2 : Keeps s s2 := h1.update (by rfl)
  have h3 : Keeps s s3 := h2.update (by rfl)
  exact ((h3.bump ..).setn ..).event ..

theorem Keeps.restartServes (h : Keeps s u) : Keeps s u.restartServes := by
  unfold State.restartServes
  extract_lets _ _ s1 s2
  have h1 : Keeps s s1 := h.update (by rfl)
  have h2 : Keeps s s2 := h1.event ..
  exact .ite ((h2.update (by rfl)).event ..) h2

theorem Keeps.hostLoad {v : State} (h : Keeps s u) {len : Nat} (e : u.hostLoad len = some v) : Keeps s v := by
  unfold State.hostLoad at e
  extract_lets at e
  split at e
  · cases e
  · obtain rfl := Option.some.inj e
    exact (h.update (by rfl)).showSlots

/-! ## The Lamplighter -/

theorem Keeps.abandoned (h : Keeps s u) (x : Nat) : Keeps s (u.abandoned x) := by
  unfold State.abandoned
  refine .ite h ?_
  split
  · exact h.casDownDone ..
  · exact h.casUpDone ..
  · exact h

theorem Keeps.afterProgram (h : Keeps s u) (x status : Nat) : Keeps s (u.afterProgram x status) := by
  unfold State.afterProgram
  extract_lets _ s1
  have h1 : Keeps s s1 := .ite (h.update (by rfl)) h
  split
  · exact h1.startupReady
  · exact h.transTry
  · exact Keeps.shutdownEnded (.ite h.allOff h)
  · exact h.casUpDone ..
  · exact h.casUpDone ..
  · exact h.casDownDone ..
  · exact h

theorem Keeps.endProgram (h : Keeps s u) (x status : Nat) : Keeps s (u.endProgram x status) := by
  unfold State.endProgram
  extract_lets s1 _ s2 s3 s4 s5
  have h1 : Keeps s s1 := h.lsyncHold ..
  have h2 : Keeps s s2 := h1.setEx ..
  have h3 : Keeps s s3 := (h2.setn ..).setn ..
  have h4 : Keeps s s4 := h3.event ..
  have h5 : Keeps s s5 := by
    unfold s5
    split
    · exact h4.fault ..
    · exact h4.fault ..
    · exact h4.fault ..
    · exact (h4.event ..).fault ..
    · exact (h4.event ..).fault ..
    · exact h4
  exact .ite h5 (h5.afterProgram ..)

theorem Keeps.goTo (h : Keeps s u) (x a us : Nat) : Keeps s (u.goTo x a us) := by
  unfold State.goTo
  exact (h.setEx ..).setn ..

theorem Keeps.goNext (h : Keeps s u) (x us : Nat) : Keeps s (u.goNext x us) := by
  unfold State.goNext
  exact h.goTo ..

theorem Keeps.startAct (h : Keeps s u) (e : Nat) : Keeps s (u.startAct e) := by
  unfold State.startAct
  exact .ite h.hwShutdown (h.startProgram ..)

theorem Keeps.railGood (h : Keeps s u) (n : Nat) : Keeps s (u.railGood n) := by
  unfold State.railGood
  extract_lets x s1 s2
  have h1 : Keeps s s1 := (h.setRail ..).setn ..
  have h2 : Keeps s s2 := .ite (h1.event ..) h1
  exact .ite (h2.tryTraining ..) h2

theorem Keeps.railRamp (h : Keeps s u) (n : Nat) : Keeps s (u.railRamp n) := by
  unfold State.railRamp
  extract_lets tmo _ s1
  have h1 : Keeps s s1 := (h.setRail ..).setn ..
  exact .ite (h1.railGood ..) h1

theorem Keeps.railEnable (h : Keeps s u) (n : Nat) : Keeps s (u.railEnable n) := by
  unfold State.railEnable
  exact .ite (h.railRamp ..) h

theorem Keeps.escalated (h : Keeps s u) (n : Nat) : Keeps s (u.escalated n) := by
  unfold State.escalated
  refine h.foldl _ _ fun v x g => ?_
  exact .ite (g.endProgram ..) g

theorem Keeps.railGroup (h : Keeps s u) (n cause reaction : Nat) : Keeps s (u.railGroup n cause reaction) := by
  unfold State.railGroup
  extract_lets c _ s1 s2 s3 s4 _ s5
  have h1 : Keeps s s1 := (h.setRail ..).setn ..
  have h2 : Keeps s s2 := h1.event ..
  have h3 : Keeps s s3 := ((h2.stopPulses ..).fault ..).casFault ..
  have h4 : Keeps s s4 := (h3.escalated ..).svcRails ..
  have h5 : Keeps s s5 := .ite (h2.update (by rfl)) h2
  exact .ite (.ite h4 (h4.startProgram ..)) ((h5.fault ..).escalated ..).hwShutdown

theorem Keeps.railFault (h : Keeps s u) (n cause : Nat) : Keeps s (u.railFault n cause) := by
  unfold State.railFault
  extract_lets s1 x s2
  have h1 : Keeps s s1 := h.bump ..
  have h2 : Keeps s s2 := (h1.setRail ..).setn ..
  split
  · exact (h1.setRail ..).event ..
  · exact .ite (Keeps.event (.ite (h2.stopPulses ..) h2) ..) (h1.railGroup ..)
  · exact h1.railGroup ..

theorem execPgChange_keeps (t : Time) (n : Fin 64) (level : Bool) (s : State) :
    KeepsNext s (execPgChange t n level s) := by
  unfold execPgChange
  extract_lets s1 _ s2
  have h1 : Keeps s s1 := (Keeps.refl s).tick ..
  have h2 : Keeps s s2 := h1.setRail ..
  split
  · exact Keeps.next (.ite (h2.railGood ..) h2)
  · exact .ite (Keeps.next (.ite (h2.tryTraining ..) h2)) (Keeps.next (Keeps.railFault (.ite (h2.stopPulses ..) h2) ..))
  · exact h2.next

theorem execPgTimeout_keeps (t : Time) (n : Fin 64) (s : State) : KeepsNext s (execPgTimeout t n s) := by
  unfold execPgTimeout
  extract_lets s1
  have h1 : Keeps s s1 := (Keeps.refl s).tick ..
  exact .ite (h1.railFault ..).next h1.next

theorem execRetryDelayExpiry_keeps (t : Time) (n : Fin 64) (s : State) :
    KeepsNext s (execRetryDelayExpiry t n s) := by
  unfold execRetryDelayExpiry
  extract_lets s1
  have h1 : Keeps s s1 := (Keeps.refl s).tick ..
  exact .ite (h1.railRamp ..).next h1.next

theorem execRetryCountReset_keeps (t : Time) (n : Fin 64) (s : State) : KeepsNext s (execRetryCountReset t n s) := by
  unfold execRetryCountReset
  extract_lets s1
  have h1 : Keeps s s1 := (Keeps.refl s).tick ..
  exact .ite (h1.setRail ..).next h1.next

theorem execEnd_keeps (t : Time) (x : Fin 49) (s : State) : KeepsNext s (execEnd t x s) := by
  unfold execEnd
  extract_lets s1
  have h1 : Keeps s s1 := (Keeps.refl s).tick ..
  exact .ite (h1.endProgram ..).next h1.next

theorem execEnable_keeps (t : Time) (x : Fin 49) (s : State) : KeepsNext s (execEnable t x s) := by
  unfold execEnable
  extract_lets s1
  have h1 : Keeps s s1 := (Keeps.refl s).tick ..
  exact .ite h1.next (.ite (h1.endProgram ..).next ((h1.foldl _ _ fun _ _ g => g.railEnable ..).goNext ..).next)

theorem execDisable_keeps (t : Time) (x : Fin 49) (s : State) : KeepsNext s (execDisable t x s) := by
  unfold execDisable
  extract_lets s1
  have h1 : Keeps s s1 := (Keeps.refl s).tick ..
  exact .ite ((h1.foldl _ _ fun _ _ g => g.railOff ..).goNext ..).next h1.next

theorem execWait_keeps (t : Time) (x : Fin 49) (s : State) : KeepsNext s (execWait t x s) := by
  unfold execWait
  extract_lets s1
  have h1 : Keeps s s1 := (Keeps.refl s).tick ..
  exact .ite (h1.goNext ..).next h1.next

theorem execWaitPg_keeps (t : Time) (x : Fin 49) (s : State) : KeepsNext s (execWaitPg t x s) := by
  unfold execWaitPg
  extract_lets s1 w e rails low past tmo s2
  have h1 : Keeps s s1 := (Keeps.refl s).tick ..
  have h2 : Keeps s s2 := h1.setEx ..
  exact .ite h1.next <| .ite (h1.goNext ..).next <| .ite (.ite (h1.endProgram ..).next h1.next) <|
    .ite (h2.foldl _ _ fun _ _ g => .ite (g.railFault ..) g).next h1.next

theorem execCheckJump_keeps (t : Time) (x : Fin 49) (s : State) : KeepsNext s (execCheckJump t x s) := by
  unfold execCheckJump
  extract_lets s1
  have h1 : Keeps s s1 := (Keeps.refl s).tick ..
  exact .ite h1.next (Keeps.next (.ite (h1.goTo ..) (h1.goNext ..)))

theorem execSyncStep_keeps (t : Time) (x : Fin 49) (s : State) : KeepsNext s (execSyncStep t x s) := by
  unfold execSyncStep
  extract_lets s1 w n loc e tmo s2
  have h1 : Keeps s s1 := (Keeps.refl s).tick ..
  have h2 : Keeps s s2 := h1.setEx ..
  exact .ite h1.next <| .ite ((h1.setn ..).goNext ..).next <| .ite (h1.goNext ..).next <|
    .ite (h1.endProgram ..).next <| .ite h1.next (h2.update (by rfl)).next

theorem execLsyncQualify_keeps (t : Time) (s : State) : KeepsNext s (execLsyncQualify t s) := by
  unfold execLsyncQualify
  extract_lets s1
  have h1 : Keeps s s1 := (Keeps.refl s).tick ..
  split
  · exact h1.next
  · extract_lets s2
    have h2 : Keeps s s2 := (h1.setn ..).setn ..
    exact ((h2.update (by rfl)).goNext ..).next

theorem execLsyncRedrive_keeps (t : Time) (s : State) : KeepsNext s (execLsyncRedrive t s) := by
  unfold execLsyncRedrive
  extract_lets s1
  have h1 : Keeps s s1 := (Keeps.refl s).tick ..
  split
  · exact .ite ((h1.update (by rfl)).setn ..).next h1.next
  · exact h1.next

theorem execSyncTimeout_keeps (t : Time) (x : Fin 49) (s : State) : KeepsNext s (execSyncTimeout t x s) := by
  unfold execSyncTimeout
  extract_lets s1
  have h1 : Keeps s s1 := (Keeps.refl s).tick ..
  exact .ite (h1.endProgram ..).next h1.next

theorem execContention_keeps (t : Time) (s : State) : KeepsNext s (execContention t s) := by
  unfold execContention
  extract_lets s1
  have h1 : Keeps s s1 := (Keeps.refl s).tick ..
  exact .ite (((h1.setn ..).event ..).fault ..).next h1.next

theorem execProgramTimeLimit_keeps (t : Time) (x : Fin 49) (s : State) :
    KeepsNext s (execProgramTimeLimit t x s) := by
  unfold execProgramTimeLimit
  extract_lets s1
  have h1 : Keeps s s1 := (Keeps.refl s).tick ..
  exact .ite ((h1.event ..).endProgram ..).next h1.next

theorem execShutdownTimeLimit_keeps (t : Time) (s : State) : KeepsNext s (execShutdownTimeLimit t s) := by
  unfold execShutdownTimeLimit
  extract_lets s1
  have h1 : Keeps s s1 := (Keeps.refl s).tick ..
  exact .ite ((h1.event ..).endProgram ..).next h1.next

theorem Keeps.programEcc (h : Keeps s u) (x : Nat) : Keeps s (u.programEcc x) := by
  unfold State.programEcc
  exact .ite ((h.event ..).endProgram ..) h

theorem execPressed_keeps (t : Time) (s : State) : KeepsNext s (execPressed t s) := by
  unfold execPressed
  extract_lets s1
  have h1 : Keeps s s1 := (Keeps.refl s).tick ..
  exact .ite h1.next ((h1.update (by rfl)).event ..).next

theorem execShort_keeps (t : Time) (s : State) : KeepsNext s (execShort t s) := by
  unfold execShort
  extract_lets s1 _ s2 s3
  have h1 : Keeps s s1 := (Keeps.refl s).tick ..
  have h2 : Keeps s s2 := h1.update (by rfl)
  have h3 : Keeps s s3 := h2.event ..
  split
  · exact h1.next
  · extract_lets
    exact .ite h2.next (Keeps.next (.ite (h3.startProgram ..) h3))

theorem Keeps.abandon (h : Keeps s u) (x : Nat) : Keeps s (u.abandon x) := by
  unfold State.abandon
  extract_lets s1 _ s2
  have h1 : Keeps s s1 := h.lsyncHold ..
  have h2 : Keeps s s2 := h1.setEx ..
  exact .ite h ((h2.setn ..).abandoned ..)

theorem execForceOff_keeps (t : Time) (s : State) : KeepsNext s (execForceOff t s) := by
  unfold execForceOff
  extract_lets s1 _ s2 down s3 s4
  have h1 : Keeps s s1 := (Keeps.refl s).tick ..
  have h2 : Keeps s s2 := h1.update (by rfl)
  have h3 : Keeps s s3 := (h2.foldl _ _ fun _ _ g => g.abandon ..).allOff
  have h4 : Keeps s s4 := (h3.event ..).fault ..
  split
  · exact h1.next
  · exact .ite h1.next (Keeps.next (.ite h4.shutdownEnded h4))

theorem execManualReset_keeps (t : Time) (s : State) : KeepsNext s (execManualReset t s) := by
  unfold execManualReset
  extract_lets s1
  have h1 : Keeps s s1 := (Keeps.refl s).tick ..
  exact .ite h1.next (((h1.update (by rfl)).event ..).resetAfterShutdown ..).next

/-! ## The fault collector's commands -/

theorem Keeps.galleyBad (h : Keeps s u) (c d : Nat) : Keeps s (u.galleyBad c d) := by
  unfold State.galleyBad
  extract_lets
  split
  · exact .ite (h.setOpen ..) (h.blankLine ..)
  · exact h

theorem Keeps.dramError (h : Keeps s u) (mib : Nat) : Keeps s (u.dramError mib) := by
  unfold State.dramError
  extract_lets within reads l
  clear_value l
  obtain _ | ⟨x, _ | ⟨y, l⟩⟩ := l
  · exact h
  · exact h.fieldError ..
  · have h1 := h.free 16
    dsimp only
    split
    · exact h1.fieldError ..
    · exact h1

theorem Keeps.clockLoss (h : Keeps s u) : Keeps s u.clockLoss := by
  unfold State.clockLoss
  extract_lets _ s1 s2
  have h1 : Keeps s s1 := .ite h ((h.update (by rfl)).event ..)
  have h2 : Keeps s s2 := by
    unfold s2
    refine h1.foldl _ _ fun v x g => ?_
    exact (g.setCasement ..).stopPulses ..
  refine h2.foldl _ _ fun v x g => ?_
  extract_lets _ s3
  have h3 : Keeps s s3 := g.putAx ..
  exact .ite h3 (((h3.putAx ..).setAxState ..).setn ..)

theorem Keeps.errorLine (h : Keeps s u) (b cause inst detail : Nat) : Keeps s (u.errorLine b cause inst detail) := by
  unfold State.errorLine
  extract_lets _ s1
  have h1 : Keeps s s1 := .ite (h.setNotary ..) h
  refine .ite ?_ <| .ite (.ite ((h.galleyBad ..).fault ..) (h.fault ..)) <|
    .ite (Keeps.fault (.ite (h.dramError ..) h) ..) <| .ite (Keeps.fault (.ite (h.queueEcc ..) h) ..) <|
    .ite (h1.fault ..) <| .ite (Keeps.fault (.ite (h.loopEcc ..) h) ..) <|
    .ite (.ite (h.programEcc ..) (h.fault ..)) <| .ite ((h.setLive ..).fault ..).clockLoss (h.fault ..)
  split
  · exact .ite (h.ledUncorrectable ..) (h.fault ..)
  · exact h.fault ..

theorem execFaultOccurrence_keeps (t : Time) (b : Fin 64) (cause inst detail : Nat) (s : State) :
    KeepsNext s (execFaultOccurrence t b cause inst detail s) := by
  unfold execFaultOccurrence
  extract_lets s1
  have h1 : Keeps s s1 := (Keeps.refl s).tick ..
  exact .ite h1.next (h1.errorLine ..).next

theorem Keeps.faultAgain (h : Keeps s u) (b : Nat) : Keeps s (u.faultAgain b) := by
  unfold State.faultAgain
  extract_lets s1
  have h1 : Keeps s s1 := ((h.setn ..).setn ..).setn ..
  clear_value s1
  exact (h1.update (by rfl)).event ..

theorem Keeps.clearFaults (h : Keeps s u) (mask : BitVec 64) : Keeps s (u.clearFaults mask) := by
  unfold State.clearFaults
  extract_lets live s1
  have h1 : Keeps s s1 := by
    refine h.foldl _ _ fun v b g => .ite g (.ite (g.faultAgain b) (.ite (g.event ..) ?_))
    extract_lets _ s2
    have h2 : Keeps s s2 := g.setFlt (fsw_clear _ _)
    exact (h2.foldl _ _ fun _ _ g => g.setn ..).event ..
  exact Keeps.errReg (.ite (h1.setn ..) h1)

theorem execFswLoRead_keeps (t : Time) (live : Bool) (s : State) : KeepsNext s (execFswLoRead t live s) := by
  unfold execFswLoRead
  extract_lets s1 v _ s2
  have h1 : Keeps s s1 := (Keeps.refl s).tick ..
  have h2 : Keeps s s2 := .ite (h1.update (by rfl)) (h1.update (by rfl))
  exact .ite (h1.answer ..).next (h2.answer ..).next

theorem execWatchdog_keeps (t : Time) (code : Nat) (s : State) : KeepsNext s (execWatchdog t code s) := by
  unfold execWatchdog
  extract_lets s1 s2 s3
  have h1 : Keeps s s1 := (Keeps.refl s).tick ..
  have h2 : Keeps s s2 := .ite h1 (h1.fault ..)
  have h3 : Keeps s s3 := h2.event ..
  exact .ite h1.next (h3.update (by rfl)).next

theorem execWatchdogRestartStart_keeps (t : Time) (s : State) : KeepsNext s (execWatchdogRestartStart t s) := by
  unfold execWatchdogRestartStart
  extract_lets s1 s2
  have h1 : Keeps s s1 := (Keeps.refl s).tick ..
  have h2 : Keeps s s2 := h1.beginRestart
  exact .ite h1.next (h2.update (by rfl)).next

theorem execLockstepMismatch_keeps (t : Time) (group : Nat) (s : State) :
    KeepsNext s (execLockstepMismatch t group s) := by
  unfold execLockstepMismatch
  extract_lets s1
  have h1 : Keeps s s1 := (Keeps.refl s).tick ..
  exact .ite h1.next (h1.fault ..).dropSafe.next

theorem execDieTemperatureMeasure_keeps (t : Time) (celsius : Int) (s : State) :
    KeepsNext s (execDieTemperatureMeasure t celsius s) := by
  unfold execDieTemperatureMeasure
  extract_lets s1 c _ s2
  have h1 : Keeps s s1 := (Keeps.refl s).tick ..
  have h2 : Keeps s s2 := (h1.update (by rfl)).setn ..
  exact .ite h1.next (.ite ((h2.setLive ..).fault ..).next (.ite (h2.setLive ..).next h2.next))

theorem execReferenceLost_keeps (t : Time) (pll : Option (Fin 2)) (s : State) :
    KeepsNext s (execReferenceLost t pll s) := by
  unfold execReferenceLost
  extract_lets s1
  have h1 : Keeps s s1 := (Keeps.refl s).tick ..
  refine .ite h1.next ?_
  refine Keeps.next ?_
  split <;> exact h1.errorLine ..

theorem execSafeHeartbeat_keeps (t : Time) (s : State) : KeepsNext s (execSafeHeartbeat t s) := by
  unfold execSafeHeartbeat
  extract_lets s1
  have h1 : Keeps s s1 := (Keeps.refl s).tick ..
  exact .ite (h1.update (by rfl)).next h1.next

theorem Keeps.injectAct (h : Keeps s u) : Keeps s u.injectAct := by
  unfold State.injectAct
  exact .ite ((h.update (by rfl)).setn ..) (h.setn ..)

theorem Keeps.injectSingle (h : Keeps s u) (b i d : Nat) : Keeps s (u.injectSingle b i d) := by
  unfold State.injectSingle
  refine .ite ?_ (.ite (h.bump ..) h)
  split
  · exact h.bump ..
  · exact h

theorem Keeps.injectDouble (h : Keeps s u) (b i d : Nat) : Keeps s (u.injectDouble b i d) := by
  unfold State.injectDouble
  extract_lets _ s1
  have h1 : Keeps s s1 := h.update (by rfl)
  refine .ite ?_ ?_
  · split
    rename_i s2 e1
    have h2 : Keeps s s2 := (h1.free ..).snd e1
    split
    rename_i s3 e2
    have h3 : Keeps s s3 := (h2.free ..).snd e2
    exact h3.fault ..
  · refine .ite ?_ ?_
    · split
      rename_i s2 e1
      have h2 : Keeps s s2 := (h1.free ..).snd e1
      exact h2.errorLine ..
    · refine .ite ?_ (h1.errorLine ..)
      split
      rename_i s2 e1
      have h2 : Keeps s s2 := (h1.free ..).snd e1
      exact h2.errorLine ..

theorem execInjectionRewrite_keeps (t : Time) (s : State) : KeepsNext s (execInjectionRewrite t s) := by
  unfold execInjectionRewrite
  extract_lets s1 _ s2
  have h1 : Keeps s s1 := (Keeps.refl s).tick ..
  have h2 : Keeps s s2 := (h1.update (by rfl)).setn ..
  split
  · exact h1.next
  · extract_lets s3
    have h3 : Keeps s s3 := .ite (h2.injectDouble ..) (h2.injectSingle ..)
    exact (h3.update (by rfl)).next

/-! ## The persistent store -/

theorem Keeps.saveAct (h : Keeps s u) (p : Path) : Keeps s (u.saveAct p) := by
  unfold State.saveAct
  exact (h.update (by rfl)).answer ..

theorem Keeps.saveEnd (h : Keeps s u) : Keeps s u.saveEnd := by
  unfold State.saveEnd
  split
  · exact h
  · extract_lets s1 _ s2
    have h1 : Keeps s s1 := h.putBank ..
    have h2 : Keeps s s2 := h1.update (by rfl)
    exact .ite h2 (h2.answer ..)

theorem execStoreSaveDone_keeps (t : Time) (s : State) : KeepsNext s (execStoreSaveDone t s) := by
  unfold execStoreSaveDone
  exact ((Keeps.refl s).tick ..).saveEnd.next

theorem Keeps.restoreAct (h : Keeps s u) : Keeps s u.restoreAct := by
  unfold State.restoreAct
  exact h.update (by rfl)

theorem execAutoSave_keeps (t : Time) (s : State) : KeepsNext s (execAutoSave t s) := by
  unfold execAutoSave
  extract_lets s1
  have h1 : Keeps s s1 := (Keeps.refl s).tick ..
  exact .ite h1.next (h1.update (by rfl)).next

/-! ## The dictionary as the firmware serves it -/

theorem Keeps.readSide (h : Keeps s u) (idx sub : Nat) : Keeps s (u.readSide idx sub) := by
  unfold State.readSide
  split
  · extract_lets
    exact .ite (h.useRec ..) h
  · exact h

theorem Keeps.writeVal (h : Keeps s u) (k : Nat) (r : Row) (v : Val) : Keeps s (u.writeVal k r v) := by
  unfold State.writeVal
  exact .ite h (.ite (h.setDec ..) (h.setv ..))

theorem Keeps.addChange (h : Keeps s u) (c : Change) : Keeps s (u.addChange c) := by
  unfold State.addChange
  exact h.update (by rfl)

theorem Keeps.laxPreset (h : Keeps s u) (k : Nat) (v : Int) : Keeps s (u.laxPreset k v) := by
  unfold State.laxPreset
  exact h.setLax ..

theorem Keeps.commitNow (h : Keeps s u) (k : CommitKind) (p : Path) (alone : Bool) :
    Keeps s (u.commitNow k p alone) := by
  unfold State.commitNow
  extract_lets s1
  have h1 : Keeps s s1 := h.commitAct ..
  refine .ite h1 ?_
  split
  · exact ((h1.setCommitting ..).endCommit ..).answer ..
  · exact h1

theorem Keeps.trimAct (h : Keeps s u) (idx base sub : Nat) : Keeps s (u.trimAct idx base sub) := by
  unfold State.trimAct
  extract_lets s1
  have h1 : Keeps s s1 := h.recal ..
  exact h1.update (by rfl)

theorem Keeps.actLine (h : Keeps s u) (s0 : State) (p : Path) (alone : Bool) (i key n : Nat) (v : Int) :
    Keeps s (State.actLine s0 u p alone i key n v) := by
  unfold State.actLine
  extract_lets _ w _ s1 _ s2
  have h1 : Keeps s s1 := h.event _ _ _ _
  have h2 : Keeps s s2 := h1.update (by rfl)
  split
  · exact h.setLax ..
  · exact h.laxPreset ..
  · exact h.update (by rfl)
  · exact .ite (h.plsEnable ..) h
  · exact h.plsRescale ..
  · exact h.casAct ..
  · exact h.commitNow ..
  · exact h.commitNow ..
  · exact h.commitNow ..
  · exact .ite (h.update (by rfl)) (h.applyTime ..)
  · exact h.importAct
  · exact h.revokeAct
  · exact h.verifyAct
  · exact h.pinAct ..
  · exact .ite h (.ite (h2.addChange ..) h2)
  · exact h

theorem Keeps.actUnit (h : Keeps s u) (i key n : Nat) (v : Int) (b : Bytes) : Keeps s (u.actUnit i key n v b) := by
  unfold State.actUnit
  split
  · exact h.svcAct ..
  · exact h.measSvcAct ..
  · exact h.addChange ..
  · exact h.addChange ..
  · exact h.addChange ..
  · exact .ite (h.addChange ..) h
  · exact h.consumableStatus ..
  · exact h.consumableStatus ..
  · exact h.consumableStatus ..
  · exact h.addChange ..
  · exact h.recordPut ..
  · exact .ite (h.ledgerExport ..) (h.ledgerImport ..)
  · exact h.axPreset ..
  · exact h.setEnc ..
  · exact h.axAct ..
  · exact h.segWrite ..
  · exact h.loopModeWrite ..
  · exact h.loopApply ..
  · exact h

theorem Keeps.actHost (h : Keeps s u) (p : Path) (alone : Bool) (i key n : Nat) (b : Bytes) :
    Keeps s (u.actHost p alone i key n b) := by
  unfold State.actHost
  split
  · exact h.foldl _ _ fun _ _ g => g.setn ..
  · exact .ite (h.saveAct ..) (h.saveAct ..).saveEnd
  · exact h.restoreAct
  · exact h.dramWrite ..
  · exact h.modeRequest ..
  · exact .ite (h.resetAfterShutdown ..) h.beginRestart
  · exact h.shadowWrite ..
  · exact h.setn ..
  · exact h.lampCommit
  · exact h.startAct ..
  · exact h.clearFaults ..
  · exact .ite (h.setn ..) h
  · exact h.injectAct
  · exact h.doorbell ..
  · exact h.qBytesWrite ..
  · exact h.otpProgramAct
  · exact h.lifecycleAct
  · exact h.policyAct ..
  · exact h.revokeKeyAct ..
  · exact h.securityAct ..
  · exact h.updateAct
  · exact h.beginRestart
  · exact h

theorem Keeps.act (h : Keeps s u) (s0 : State) (p : Path) (alone : Bool) (idx base i sub : Nat) (v : Val)
    (b : Bytes) :
    Keeps s (State.act s0 u p alone idx base i sub v b) := by
  unfold State.act
  exact .ite (.ite ((h.talWrite ..).addChange ..) h) <| .ite (h.trimAct ..) <|
    .ite (h.actUnit ..) ((h.actLine ..).actHost ..)

theorem Keeps.refusedSide (h : Keeps s u) (w : State) (base i sub n : Nat) (r : Refuse) :
    Keeps s (u.refusedSide w base i sub n r) := by
  unfold State.refusedSide
  extract_lets commit
  have hcommit (x1 : CommitKind) : Keeps s (commit x1) := by
    unfold commit
    exact .ite (h.failCommit ..) (.ite (h.failCommit ..) h)
  split
  · exact .ite (Keeps.event (.ite (h.setn ..) h) ..) h
  · exact hcommit ..
  · exact hcommit ..
  · exact hcommit ..
  · exact .ite (h.setn ..) h
  · exact .ite (h.axRunRefused ..) h
  · exact .ite h.lampCommit h
  · split
    · exact h.setn ..
    · exact h
  · exact .ite (h.setn ..) h
  · exact .ite (h.setv ..) h
  · exact h

theorem Keeps.writeOne (h : Keeps s u) (p : Path) (alone : Bool) (idx sub : Nat) (b : Bytes) :
    Keeps s (u.writeOne p alone idx sub b).1 := by
  unfold State.writeOne
  split
  · exact h
  · extract_lets s1
    have h1 : Keeps s s1 := h.writeVal ..
    split
    · exact h.refusedSide ..
    · exact (h1.answer ..).act ..

theorem Keeps.groupWrite (h : Keeps s u) (p : Path) (ws : List (Nat × Nat × Bytes)) :
    Keeps s (u.groupWrite p ws).1 := by
  unfold State.groupWrite
  extract_lets parsed good s1 verdict
  have h1 : Keeps s s1 := h.foldl _ _ fun _ _ g => g.writeVal ..
  split
  · exact (h1.answer ..).foldl _ _ fun _ _ g => g.act ..
  · refine h.foldl _ _ fun v x g => ?_
    dsimp only
    split
    · exact g.refusedSide ..
    · exact g

theorem Keeps.dictWrite (h : Keeps s u) (p : Path) (idx sub : Nat) (b : Bytes) :
    Keeps s (u.dictWrite p idx sub b) := by
  unfold State.dictWrite
  split
  · exact h.answer ..
  · extract_lets
    refine .ite (h.answer ..) ?_
    refine .ite ((h.update (by rfl)).answer ..) ?_
    split
    · rename_i s1 _ e1
      have h1 : Keeps s s1 := (h.writeOne ..).fst e1
      exact h1.answer ..
    · rename_i s1 e1
      have h1 : Keeps s s1 := (h.writeOne ..).fst e1
      exact h1

theorem Keeps.dictReadOn (h : Keeps s u) (p : Path) (idx sub : Nat) (bad : Bool) :
    Keeps s (u.dictReadOn p idx sub bad) := by
  unfold State.dictReadOn
  refine .ite (h.answer ..) ?_
  refine .ite ((h.update (by rfl)).answer ..) ?_
  split
  · exact h.answer ..
  · exact .ite ((h.fault ..).answer ..) ((h.readSide ..).answer ..)

theorem Keeps.serveEntry (h : Keeps s u) (p : Path) (e : Bytes) : Keeps s (u.serveEntry p e).2 := by
  unfold State.serveEntry
  extract_lets idx sub fl len a refuse unusable d
  have hrefuse {v : State} (g : Keeps s v) (r : Refuse) : Keeps s (refuse v r).2 := g.answer _
  split
  · split
    · exact hrefuse h _
    · exact .ite_snd (hrefuse h _) (.ite_snd (.ite_snd (hrefuse h _) (((h.readSide ..).memWrite ..).answer _))
        ((h.readSide ..).answer _))
  · refine .ite_snd (hrefuse h _) (.ite_snd (hrefuse h _) ?_)
    have h1 := h.writeOne p false idx sub d
    split
    · exact hrefuse (h1.fst ‹_›) _
    · exact h1.fst ‹_›
  · exact hrefuse h _

theorem execDictionaryRequest_keeps (t : Time) (s : State) : KeepsNext s (execDictionaryRequest t s) := by
  unfold execDictionaryRequest
  extract_lets s1
  have h1 : Keeps s s1 := (Keeps.refl s).tick ..
  refine .ite h1.next ?_
  split
  · exact h1.next
  · extract_lets s2
    have h2 : Keeps s s2 := h1.update (by rfl)
    split
    · split
      rename_i s3 e1
      have h3 : Keeps s s3 := (h2.serveEntry ..).snd e1
      exact (h3.update (by rfl)).next
    · split
      rename_i s3 e1
      have h3 : Keeps s s3 := (h2.serveEntry ..).snd e1
      extract_lets d s4 s5
      have h4 : Keeps s s4 := h3.memWrite ..
      have h5 : Keeps s s5 := h4.setQ ..
      exact ((h5.popEntry ..).queueIrq ..).next

/-! ## The dictionary networks -/

theorem execUsdoRequest_keeps (t : Time) (i : Fin 2) (idx : BitVec 16) (sub : BitVec 8) (write : Option Bytes)
    (s : State) :
    KeepsNext s (execUsdoRequest t i idx sub write s) := by
  unfold execUsdoRequest
  extract_lets s1
  have h1 : Keeps s s1 := (Keeps.refl s).tick ..
  refine Keeps.next ?_
  split
  · exact h1.dictWrite ..
  · exact h1.dictReadOn ..

theorem Keeps.pdoRefused (h : Keeps s u) (i n : Nat) : Keeps s (u.pdoRefused i n) := by
  unfold State.pdoRefused
  extract_lets s1
  have h1 : Keeps s s1 := h.event _ _ _ _
  exact .ite h1 (((h1.setCan ..).pushError ..).emcyNode ..)

theorem Keeps.pdoApply (h : Keeps s u) (i : Fin 2) (n : Nat) (data : Bytes) : Keeps s (u.pdoApply i n data) := by
  unfold State.pdoApply
  split
  rename_i s1 _ e1
  have h1 : Keeps s s1 := (h.groupWrite ..).fst e1
  extract_lets x s2
  have h2 : Keeps s s2 := h1.setCan ..
  exact .ite (h2.update (by rfl)) (h1.pdoRefused ..)

theorem Keeps.rpdo (h : Keeps s u) (i : Fin 2) (n : Nat) (data : Bytes) : Keeps s (u.rpdo i n data) := by
  unfold State.rpdo
  refine .ite h ?_
  refine .ite (h.update (by rfl)) ?_
  refine .ite ?_ (h.pdoApply ..)
  split
  rename_i s1 _ e1
  have h1 : Keeps s s1 := (h.groupWrite ..).fst e1
  exact .ite (h.setCan ..) (h1.pdoRefused ..)

theorem execRpdoReceive_keeps (t : Time) (i : Fin 2) (n : Fin 16) (data : Bytes) (s : State) :
    KeepsNext s (execRpdoReceive t i n data s) := by
  unfold execRpdoReceive
  exact (((Keeps.refl s).tick ..).rpdo ..).next

theorem Keeps.tpdoSend (h : Keeps s u) (i n : Nat) : Keeps s (u.tpdoSend i n) := by
  unfold State.tpdoSend
  exact (h.setCan ..).send ..

theorem execTpdoTransmit_keeps (t : Time) (i : Fin 2) (n : Fin 16) (s : State) :
    KeepsNext s (execTpdoTransmit t i n s) := by
  unfold execTpdoTransmit
  extract_lets s1
  have h1 : Keeps s s1 := (Keeps.refl s).tick ..
  exact .ite h1.next (.ite (h1.setCan ..).next (.ite h1.next (h1.tpdoSend ..).next))

theorem Keeps.tpdoAtSync (h : Keeps s u) (i counter n : Nat) : Keeps s (u.tpdoAtSync i counter n) := by
  unfold State.tpdoAtSync
  extract_lets x ty k put
  have hput (x1 : Nat) : Keeps s (put x1) := h.setCan ..
  exact .ite h (.ite (.ite h (Keeps.tpdoSend (hput ..) ..)) (.ite h (.ite (Keeps.tpdoSend (hput ..) ..) (hput ..))))

theorem Keeps.syncOn (h : Keeps s u) (i : Fin 2) (counter : Nat) : Keeps s (u.syncOn i counter) := by
  unfold State.syncOn
  extract_lets s1
  have h1 : Keeps s s1 := h.foldl _ _ fun _ _ g => g.tpdoAtSync ..
  refine .ite h1 ?_
  refine (h1.setCan ..).foldl _ _ fun v x g => ?_
  split
  exact g.pdoApply ..

theorem execSyncReceive_keeps (t : Time) (i : Fin 2) (counter : Nat) (s : State) :
    KeepsNext s (execSyncReceive t i counter s) := by
  unfold execSyncReceive
  extract_lets s1
  have h1 : Keeps s s1 := (Keeps.refl s).tick ..
  exact .ite ((h1.setCan ..).syncOn ..).next h1.next

theorem execSyncProduce_keeps (t : Time) (i : Fin 2) (s : State) : KeepsNext s (execSyncProduce t i s) := by
  unfold execSyncProduce
  extract_lets s1
  have h1 : Keeps s s1 := (Keeps.refl s).tick ..
  exact .ite h1.next (((h1.setCan ..).send ..).syncOn ..).next

theorem Keeps.commReset (h : Keeps s u) (i : Nat) : Keeps s (u.commReset i) := by
  unfold State.commReset
  extract_lets saved keys s1
  have h1 : Keeps s s1 := h.foldl _ _ fun _ _ g => g.setv ..
  exact (h1.setCan ..).send ..

theorem Keeps.nmtIgnored (h : Keeps s u) (i : Nat) : Keeps s (u.nmtIgnored i) := by
  unfold State.nmtIgnored
  exact (h.setCan ..).event ..

theorem Keeps.nmtDo (h : Keeps s u) (i : Nat) (c : NmtCmd) : Keeps s (u.nmtDo i c) := by
  unfold State.nmtDo
  extract_lets s1
  have h1 : Keeps s s1 := h.commReset ..
  split
  · exact .ite (h.modeRequest ..) (h.nmtIgnored ..)
  · exact .ite (h.modeRequest ..) (.ite (h.foldl _ _ fun _ _ g => g.setCan ..) (h.nmtIgnored ..))
  · exact .ite (h.modeRequest ..) (h.nmtIgnored ..)
  · exact h.commReset ..
  · exact .ite h1.beginRestart h1

theorem Keeps.nmt (h : Keeps s u) (i : Nat) (c : NmtCmd) : Keeps s (u.nmt i c) := by
  unfold State.nmt
  exact .ite h (.ite (h.update (by rfl)) (h.nmtDo ..))

theorem execNmtStartRemoteNode_keeps (t : Time) (i : Fin 2) (s : State) :
    KeepsNext s (execNmtStartRemoteNode t i s) := by
  unfold execNmtStartRemoteNode
  exact (((Keeps.refl s).tick ..).nmt ..).next

theorem execNmtEnterPreoperational_keeps (t : Time) (i : Fin 2) (s : State) :
    KeepsNext s (execNmtEnterPreoperational t i s) := by
  unfold execNmtEnterPreoperational
  exact (((Keeps.refl s).tick ..).nmt ..).next

theorem execNmtStopRemoteNode_keeps (t : Time) (i : Fin 2) (s : State) :
    KeepsNext s (execNmtStopRemoteNode t i s) := by
  unfold execNmtStopRemoteNode
  exact (((Keeps.refl s).tick ..).nmt ..).next

theorem execNmtResetCommunication_keeps (t : Time) (i : Fin 2) (s : State) :
    KeepsNext s (execNmtResetCommunication t i s) := by
  unfold execNmtResetCommunication
  exact (((Keeps.refl s).tick ..).nmt ..).next

theorem execNmtResetNode_keeps (t : Time) (i : Fin 2) (s : State) : KeepsNext s (execNmtResetNode t i s) := by
  unfold execNmtResetNode
  exact (((Keeps.refl s).tick ..).nmt ..).next

theorem execHeartbeatTimeout_keeps (t : Time) (i : Fin 2) (slot : Fin 8) (s : State) :
    KeepsNext s (execHeartbeatTimeout t i slot s) := by
  unfold execHeartbeatTimeout
  extract_lets s1
  have h1 : Keeps s s1 := (Keeps.refl s).tick ..
  exact .ite h1.next (h1.event _ _ _ _).next

theorem execHeartbeatProduce_keeps (t : Time) (i : Fin 2) (s : State) : KeepsNext s (execHeartbeatProduce t i s) := by
  unfold execHeartbeatProduce
  extract_lets s1
  have h1 : Keeps s s1 := (Keeps.refl s).tick ..
  exact .ite h1.next ((h1.setCan ..).send ..).next

theorem Keeps.emcyNext (h : Keeps s u) (i : Nat) : Keeps s (u.emcyNext i) := by
  unfold State.emcyNext
  extract_lets
  split
  · exact .ite h ((h.setCan ..).send ..)
  · exact h

theorem execEmcyInhibitExpiry_keeps (t : Time) (i : Fin 2) (s : State) :
    KeepsNext s (execEmcyInhibitExpiry t i s) := by
  unfold execEmcyInhibitExpiry
  exact (((Keeps.refl s).tick ..).emcyNext ..).next

theorem Keeps.busState (h : Keeps s u) (i v cause : Nat) : Keeps s (u.busState i v cause) := by
  unfold State.busState
  exact (h.setn ..).errReg.event ..

theorem execBusOff_keeps (t : Time) (i : Fin 2) (s : State) : KeepsNext s (execBusOff t i s) := by
  unfold execBusOff
  extract_lets s1
  have h1 : Keeps s s1 := (Keeps.refl s).tick ..
  exact .ite h1.next (h1.busState ..).next

theorem execBusOffRecovery_keeps (t : Time) (i : Fin 2) (s : State) : KeepsNext s (execBusOffRecovery t i s) := by
  unfold execBusOffRecovery
  extract_lets s1
  have h1 : Keeps s s1 := (Keeps.refl s).tick ..
  exact .ite h1.next ((h1.setn ..).errReg.emcyNext ..).next

theorem execErrorPassive_keeps (t : Time) (i : Fin 2) (passive : Bool) (s : State) :
    KeepsNext s (execErrorPassive t i passive s) := by
  unfold execErrorPassive
  extract_lets s1
  have h1 : Keeps s s1 := (Keeps.refl s).tick ..
  exact .ite h1.next (h1.busState ..).next

theorem execEthernetLinkUp_keeps (t : Time) (m : Fin 2) (speed : Nat) (s : State) :
    KeepsNext s (execEthernetLinkUp t m speed s) := by
  unfold execEthernetLinkUp
  extract_lets s1
  have h1 : Keeps s s1 := (Keeps.refl s).tick ..
  exact .ite h1.next ((h1.setn ..).event _ _ _ _).next

theorem execEthernetLinkDown_keeps (t : Time) (m : Fin 2) (s : State) : KeepsNext s (execEthernetLinkDown t m s) := by
  unfold execEthernetLinkDown
  extract_lets s1
  have h1 : Keeps s s1 := (Keeps.refl s).tick ..
  exact .ite h1.next ((h1.setn ..).event ..).next

theorem execArpRequest_keeps (t : Time) (m : Fin 2) (target sender : BitVec 32) (senderMac : BitVec 48) (s : State) :
    KeepsNext s (execArpRequest t m target sender senderMac s) := by
  unfold execArpRequest
  extract_lets s1
  have h1 : Keeps s s1 := (Keeps.refl s).tick ..
  exact .ite h1.next (h1.send ..).next

theorem execIcmpEcho_keeps (t : Time) (m : Fin 2) (src dst : BitVec 32) (data : Bytes) (s : State) :
    KeepsNext s (execIcmpEcho t m src dst data s) := by
  unfold execIcmpEcho
  extract_lets s1
  have h1 : Keeps s s1 := (Keeps.refl s).tick ..
  exact .ite h1.next (h1.send ..).next

theorem Keeps.kdpServeOne (h : Keeps s u) (o : KOp) (perm : Bool) (room : Nat) :
    Keeps s (u.kdpServeOne o perm room).2 := by
  unfold State.kdpServeOne
  split
  · split
    · exact h
    · split
      · exact h
      · exact h.readSide ..
  · split
    · exact h
    · split
      · rename_i s1 _ e1
        have h1 : Keeps s s1 := (h.writeOne ..).fst e1
        exact h1
      · rename_i s1 e1
        have h1 : Keeps s s1 := (h.writeOne ..).fst e1
        exact h1
  · exact h

theorem Keeps.kdpServeEach (h : Keeps s u) (perm : Bool) (room : Nat) (ops : List KOp) :
    Keeps s (u.kdpServeEach perm room ops).2 := by
  induction ops generalizing u room with
  | nil => simpa only [State.kdpServeEach] using h
  | cons o r ih => exact ih (h.kdpServeOne ..) _

theorem Keeps.kdpAtomic (h : Keeps s u) (perm : Bool) (ops : List KOp) : Keeps s (u.kdpAtomic perm ops).2 := by
  unfold State.kdpAtomic
  split
  · exact h
  · split
    · exact h
    · split
      rename_i s1 _ e1
      have h1 : Keeps s s1 := (h.groupWrite ..).fst e1
      exact h1

theorem Keeps.kdpDrop (h : Keeps s u) (m : Nat) : Keeps s (u.kdpDrop m) := by
  unfold State.kdpDrop
  exact h.bump ..

theorem Keeps.kdpServe (h : Keeps s u) (m src port : Nat) (b : Bytes) : Keeps s (u.kdpServe m src port b) := by
  unfold State.kdpServe
  extract_lets count bad session seq keep
  split
  · exact (h.kdpDrop ..).event ..
  · split
    · exact h.kdpDrop ..
    · extract_lets fresh
      have hkeep {v : State} (g : Keeps s v) (resp : Bytes) : Keeps s (keep v resp) := g.update (by rfl)
      have hfresh : Keeps s (fresh ()) := by
        dsimp only [fresh]
        exact (hkeep (.ite_snd (h.kdpAtomic ..) (h.kdpServeEach ..)) _).send ..
      split
      · exact .ite (((hkeep h _).bump ..).send ..) (.ite (h.kdpDrop ..) hfresh)
      · exact hfresh

theorem Keeps.kdpRequest (h : Keeps s u) (m src port : Nat) (b : Bytes) : Keeps s (u.kdpRequest m src port b) := by
  unfold State.kdpRequest
  exact .ite h (.ite (h.kdpDrop ..) (.ite (.ite (h.kdpDrop ..) (h.update (by rfl))) (h.kdpServe ..)))

theorem execKdpRequest_keeps (t : Time) (m : Fin 2) (src : BitVec 32) (port : BitVec 16) (data : Bytes) (s : State) :
    KeepsNext s (execKdpRequest t m src port data s) := by
  unfold execKdpRequest
  exact (((Keeps.refl s).tick ..).kdpRequest ..).next

theorem Keeps.kdpEventTo (h : Keeps s u) (entries : List Bytes) (j : Nat) :
    Keeps s (State.kdpEventTo entries u j) := by
  unfold State.kdpEventTo
  exact .ite ((h.update (by rfl)).send ..) h

theorem execKdpEventSend_keeps (t : Time) (s : State) : KeepsNext s (execKdpEventSend t s) := by
  unfold execKdpEventSend
  extract_lets s1
  have h1 : Keeps s s1 := (Keeps.refl s).tick ..
  exact .ite h1.next (((h1.kdpEventTo ..).kdpEventTo ..).doorbell ..).next

theorem Keeps.ptpTo (h : Keeps s u) (v : Nat) : Keeps s (u.ptpTo v) := by
  unfold State.ptpTo
  exact h.setn ..

theorem Keeps.ptpMeasure (h : Keeps s u) (rx origin : Int) : Keeps s (u.ptpMeasure rx origin) := by
  unfold State.ptpMeasure
  exact ((h.setn ..).ptpTo ..).ptpOffset ..

theorem Keeps.ptpAnnounce (h : Keeps s u) (gm priority1 clockClass : Nat) (utcValid : Bool) (utc : Int) :
    Keeps s (u.ptpAnnounce gm priority1 clockClass utcValid utc) := by
  unfold State.ptpAnnounce
  extract_lets
  split
  rename_i s1 e1
  have h1 : Keeps s s1 := (h.free ..).snd e1
  extract_lets slave _ _ s2 s3
  have h2 : Keeps s s2 := h1.update (by rfl)
  have h3 : Keeps s s3 := h2.setn ..
  exact .ite (.ite h3 (h3.ptpTo ..)) (h1.ptpTo ..)

theorem Keeps.ptpTake (h : Keeps s u) (msg : PtpMsg) : Keeps s (u.ptpTake msg) := by
  unfold State.ptpTake
  extract_lets p _ put
  have hput (x1 : Ptp) : Keeps s (put x1) := h.update (by rfl)
  split
  · exact h.ptpAnnounce ..
  · extract_lets
    exact .ite h (.ite (hput ..) (Keeps.ptpMeasure (hput ..) ..))
  · exact .ite h (Keeps.ptpMeasure (hput ..) ..)
  · exact .ite (h.send ..) h
  · exact .ite h (h.setn ..)
  · exact .ite (h.send ..) h
  · exact .ite h (h.setn ..)
  · exact h

theorem execPtpMessage_keeps (t : Time) (m : Fin 2) (domain : Nat) (msg : PtpMsg) (s : State) :
    KeepsNext s (execPtpMessage t m domain msg s) := by
  unfold execPtpMessage
  extract_lets s1
  have h1 : Keeps s s1 := (Keeps.refl s).tick ..
  exact .ite (h1.ptpTake ..).next h1.next

theorem execPtpAnnounceTimeout_keeps (t : Time) (s : State) : KeepsNext s (execPtpAnnounceTimeout t s) := by
  unfold execPtpAnnounceTimeout
  extract_lets s1
  have h1 : Keeps s s1 := (Keeps.refl s).tick ..
  exact .ite h1.next (h1.ptpTo ..).next

theorem execPtpTransmit_keeps (t : Time) (msg : PtpSend) (s : State) : KeepsNext s (execPtpTransmit t msg s) := by
  unfold execPtpTransmit
  extract_lets s1
  have h1 : Keeps s s1 := (Keeps.refl s).tick ..
  refine .ite h1.next ?_
  split
  · exact .ite ((h1.update (by rfl)).send ..).next h1.next
  · exact .ite (h1.send ..).next h1.next

theorem Keeps.serveHeld (h : Keeps s u) (h' : Held) : Keeps s (u.serveHeld h') := by
  unfold State.serveHeld
  split
  · exact h.dictWrite ..
  · exact h.dictReadOn ..
  · exact h.kdpRequest ..
  · exact h.rpdo ..
  · exact h.nmt ..

theorem Keeps.serveAgain (h : Keeps s u) : Keeps s u.serveAgain := by
  unfold State.serveAgain
  extract_lets held s1
  have h1 : Keeps s s1 := h.restartServes
  exact (h1.update (by rfl)).foldl _ _ fun _ _ g => g.serveHeld ..

theorem execRestartEnd_keeps (t : Time) (s : State) : KeepsNext s (execRestartEnd t s) := by
  unfold execRestartEnd
  extract_lets s1 s2
  have h1 : Keeps s s1 := (Keeps.refl s).tick ..
  have h2 : Keeps s s2 := h1.selectImage
  exact .ite h1.next (.ite h2.serveAgain.next h2.next)

theorem Keeps.hostBootLen (h : Keeps s u) (len : Nat) : Keeps s (u.hostBootLen len) := by
  unfold State.hostBootLen
  refine .ite h ?_
  split
  · exact h.event ..
  · rename_i e
    have h1 := h.hostLoad e
    exact .ite h1.finishBoot h1.serveAgain

theorem execHostBootLoad_keeps (t : Time) (len : BitVec 32) (s : State) : KeepsNext s (execHostBootLoad t len s) := by
  unfold execHostBootLoad
  extract_lets s1
  have h1 : Keeps s s1 := (Keeps.refl s).tick ..
  exact .ite (h1.answer ..).next ((h1.hostBootLen ..).answer ..).next

/-! ## The BAR0 register map -/

theorem Keeps.msixWrite (h : Keeps s u) (e off v : Nat) : Keeps s (u.msixWrite e off v) := by
  unfold State.msixWrite
  extract_lets _ a on s1
  have h1 : Keeps s s1 := h.update (by rfl)
  split
  · exact h.update (by rfl)
  · exact h.update (by rfl)
  · exact h.update (by rfl)
  · exact .ite ((h1.update (by rfl)).send ..) h1

theorem Keeps.hostErrClear (h : Keeps s u) (v : Nat) : Keeps s (u.hostErrClear v) := by
  unfold State.hostErrClear
  exact h.update (by rfl)

theorem Keeps.fcfgWrite (h : Keeps s u) (b v : Nat) : KeepsOk s (u.fcfgWrite b v) := by
  unfold State.fcfgWrite
  exact .ite (.error _) (.ite (.error _) ((h.setn ..).setn ..).ok)

theorem Keeps.injWrite (h : Keeps s u) (v : Nat) : KeepsOk s (u.injWrite v) := by
  unfold State.injWrite
  extract_lets s1
  have h1 : Keeps s s1 := ((h.setn ..).setn ..).setn ..
  refine .ite (.error _) (.ite ?_ h1.ok)
  split
  · exact .error _
  · exact h1.injectAct.ok

theorem Keeps.laxStatusClear (h : Keeps s u) (k v : Nat) : Keeps s (u.laxStatusClear k v) := by
  unfold State.laxStatusClear
  exact h.setLax ..

theorem Keeps.encStatusClear (h : Keeps s u) (e v : Nat) : Keeps s (u.encStatusClear e v) := by
  unfold State.encStatusClear
  extract_lets x s1 s2
  have h1 : Keeps s s1 := h.setEnc ..
  have h2 : Keeps s s2 := .ite (h1.encFault ..) h1
  refine h2.foldl _ _ fun v x g => ?_
  refine .ite ?_ g
  split
  rename_i s3 e1
  have h3 : Keeps s s3 := (g.free ..).snd e1
  exact .ite (h3.encFault ..) h3

theorem Keeps.ginStuckClear (h : Keeps s u) (base v : Nat) : Keeps s (u.ginStuckClear base v) := by
  unfold State.ginStuckClear
  exact h.foldl _ _ fun _ _ g => g.setGin ..

theorem Keeps.otpCtrl (h : Keeps s u) (v : Nat) : Keeps s (u.otpCtrl v) := by
  unfold State.otpCtrl
  extract_lets s1
  have h1 : Keeps s s1 := .ite h.otpRead h
  exact .ite (h1.update (by rfl)) h1

theorem Keeps.routeWrite (h : Keeps s u) (e v : Nat) : KeepsOk s (u.routeWrite e v) := by
  unfold State.routeWrite
  exact .ite (.error _) (h.update (by rfl)).ok

theorem Keeps.mboxWrite (h : Keeps s u) (off v : Nat) : Keeps s (u.mboxWrite off v) := by
  unfold State.mboxWrite
  exact h.update (by rfl)

theorem Keeps.checked (h : Keeps s u) (r : Option Refuse) : KeepsOk s (checked r u) := by
  unfold Machine.checked
  split
  · exact .error _
  · exact h.ok

theorem Keeps.wordLow (h : Keeps s u) (off v : Nat) : KeepsOk s (u.wordLow off v) := by
  unfold State.wordLow
  exact .ite ((h.update (by rfl)).checked _) <| .ite (h.hostErrClear ..).ok <| .ite (h.routeWrite ..) <| .ite (h.msixWrite ..).ok <|
    .ite ((h.dmaRegWrite ..).checked _) <| .ite (h.clearFaults _).ok <| .ite (h.clearFaults _).ok <| .ite (h.injWrite _) <|
    .ite (h.setn ..).ok <| .ite (h.fcfgWrite ..) <| .ite (Keeps.ok (.ite h.timeSnapshot h)) <|
    .ite (Keeps.ok (.ite (h.update (by rfl)) h)) <| .ite (Keeps.ok (.ite h.laxSnapshot h)) <| .ite (h.laxStatusClear ..).ok <|
    .ite (h.ginStuckClear ..).ok <| .ite (h.ginStuckClear ..).ok <| .ite (h.encStatusClear ..).ok <| .ite (h.otpCtrl _).ok <|
    .ite ((h.update (by rfl)).checked _) <| .ite (h.hostBootLen _).ok h.ok

theorem Keeps.wordHigh (h : Keeps s u) (off v : Nat) : KeepsOk s (u.wordHigh off v) := by
  unfold State.wordHigh
  exact .ite ((h.qWrite ..).checked _) <| .ite (.ite ((h.doorbell ..).checked _) h.ok) <| .ite (h.mboxWrite ..).ok <|
    .ite (.ite (.error _) h.mboxSubmit.ok) h.ok

theorem Keeps.regWord (h : Keeps s u) (off v : Nat) : Keeps s (u.regWord off v) := by
  unfold State.regWord
  extract_lets r
  have hr : KeepsOk s r := .ite (h.wordLow ..) (.ite h.ok (h.wordHigh ..))
  clear_value r
  cases r with
  | error c => exact h.hostError ..
  | ok v => exact hr

theorem execRegisterWrite_keeps (t : Time) (off : Nat) (wide : Bool) (v : BitVec 64) (s : State) :
    KeepsNext s (execRegisterWrite t off wide v s) := by
  unfold execRegisterWrite
  extract_lets s1 s2
  have h1 : Keeps s s1 := (Keeps.refl s).tick ..
  have h2 : Keeps s s2 := (h1.answer ..).regWord ..
  exact .ite (h1.answer ..).next (.ite (h1.answer ..).next (Keeps.next (.ite (h2.regWord ..) h2)))

/-! ## The commands that are dictionary writes -/

theorem Keeps.dictNum (h : Keeps s u) (p : Path) (idx sub n : Nat) : Keeps s (u.dictNum p idx sub n) := by
  unfold State.dictNum
  exact h.dictWrite ..

theorem Keeps.dictSeq (h : Keeps s u) (p : Path) (l : List (Nat × Nat × Nat)) : Keeps s (u.dictSeq p l) := by
  induction l generalizing u with
  | nil => exact h
  | cons x r ih =>
    have h1 := h.dictNum p x.1 x.2.1 x.2.2
    unfold State.dictSeq
    dsimp only
    split
    · exact h1
    · exact ih h1

theorem execDictionaryWrite_keeps (t : Time) (p : Path) (idx : BitVec 16) (sub : BitVec 8) (v : Bytes) (s : State) :
    KeepsNext s (execDictionaryWrite t p idx sub v s) := by
  unfold execDictionaryWrite
  exact (((Keeps.refl s).tick ..).dictWrite ..).next

theorem execSegmentWrite_keeps (t : Time) (p : Path) (data : Bytes) (s : State) :
    KeepsNext s (execSegmentWrite t p data s) := by
  unfold execSegmentWrite
  exact (((Keeps.refl s).tick ..).dictWrite ..).next

theorem execDramDataWrite_keeps (t : Time) (p : Path) (data : Bytes) (s : State) :
    KeepsNext s (execDramDataWrite t p data s) := by
  unfold execDramDataWrite
  exact (((Keeps.refl s).tick ..).dictWrite ..).next

theorem execDramDataRead_keeps (t : Time) (p : Path) (bad : Bool) (s : State) :
    KeepsNext s (execDramDataRead t p bad s) := by
  unfold execDramDataRead
  exact (((Keeps.refl s).tick ..).dictReadOn ..).next

theorem execDoorbellWrite_keeps (t : Time) (p : Path) (q : Nat) (v : BitVec 32) (s : State) :
    KeepsNext s (execDoorbellWrite t p q v s) := by
  unfold execDoorbellWrite
  extract_lets s1
  have h1 : Keeps s s1 := (Keeps.refl s).tick ..
  split
  · exact .ite (h1.answer ..).next ((h1.answer ..).regWord ..).next
  · exact (h1.dictSeq ..).next

theorem execFaultClear_keeps (t : Time) (p : Path) (mask : BitVec 64) (s : State) :
    KeepsNext s (execFaultClear t p mask s) := by
  unfold execFaultClear
  extract_lets s1
  have h1 : Keeps s s1 := (Keeps.refl s).tick ..
  split
  · exact .ite (h1.answer ..).next ((h1.answer ..).clearFaults ..).next
  · exact (h1.dictNum ..).next

theorem execInjectionExecute_keeps (t : Time) (p : Path) (s : State) : KeepsNext s (execInjectionExecute t p s) := by
  unfold execInjectionExecute
  extract_lets s1
  have h1 : Keeps s s1 := (Keeps.refl s).tick ..
  split
  · exact .ite (h1.answer ..).next ((h1.answer ..).regWord ..).next
  · exact (h1.dictNum ..).next

theorem execSourceKindWrite_keeps (t : Time) (p : Path) (k : Fin 32) (v : Nat) (s : State) :
    KeepsNext s (execSourceKindWrite t p k v s) := by
  unfold execSourceKindWrite
  exact (((Keeps.refl s).tick ..).dictNum ..).next

theorem execPlsRatioWrite_keeps (t : Time) (p : Path) (n : Fin 8) (isM : Bool) (v : Nat) (s : State) :
    KeepsNext s (execPlsRatioWrite t p n isM v s) := by
  unfold execPlsRatioWrite
  exact (((Keeps.refl s).tick ..).dictNum ..).next

theorem execCasementArm_keeps (t : Time) (p : Path) (c : Fin 48) (s : State) :
    KeepsNext s (execCasementArm t p c s) := by
  unfold execCasementArm
  exact (((Keeps.refl s).tick ..).dictNum ..).next

theorem execCasementDisarm_keeps (t : Time) (p : Path) (c : Fin 48) (s : State) :
    KeepsNext s (execCasementDisarm t p c s) := by
  unfold execCasementDisarm
  exact (((Keeps.refl s).tick ..).dictNum ..).next

theorem execCasementEnterService_keeps (t : Time) (p : Path) (c : Fin 48) (s : State) :
    KeepsNext s (execCasementEnterService t p c s) := by
  unfold execCasementEnterService
  exact (((Keeps.refl s).tick ..).dictNum ..).next

theorem execCasementLeaveService_keeps (t : Time) (p : Path) (c : Fin 48) (s : State) :
    KeepsNext s (execCasementLeaveService t p c s) := by
  unfold execCasementLeaveService
  exact (((Keeps.refl s).tick ..).dictNum ..).next

theorem execCasementClearFault_keeps (t : Time) (p : Path) (c : Fin 48) (s : State) :
    KeepsNext s (execCasementClearFault t p c s) := by
  unfold execCasementClearFault
  exact (((Keeps.refl s).tick ..).dictNum ..).next

theorem execTemplateCommit_keeps (t : Time) (p : Path) (v : Nat) (s : State) :
    KeepsNext s (execTemplateCommit t p v s) := by
  unfold execTemplateCommit
  exact (((Keeps.refl s).tick ..).dictNum ..).next

theorem execGlyphSetCommit_keeps (t : Time) (p : Path) (v : Nat) (s : State) :
    KeepsNext s (execGlyphSetCommit t p v s) := by
  unfold execGlyphSetCommit
  exact (((Keeps.refl s).tick ..).dictNum ..).next

theorem execRotorTableCommit_keeps (t : Time) (p : Path) (v : Nat) (s : State) :
    KeepsNext s (execRotorTableCommit t p v s) := by
  unfold execRotorTableCommit
  exact (((Keeps.refl s).tick ..).dictNum ..).next

theorem execGlyphSetPin_keeps (t : Time) (p : Path) (s0 : Fin 64) (v : Nat) (s : State) :
    KeepsNext s (execGlyphSetPin t p s0 v s) := by
  unfold execGlyphSetPin
  exact (((Keeps.refl s).tick ..).dictNum ..).next

theorem execTemplateQuery_keeps (t : Time) (p : Path) (v : Nat) (s : State) :
    KeepsNext s (execTemplateQuery t p v s) := by
  unfold execTemplateQuery
  exact (((Keeps.refl s).tick ..).dictNum ..).next

theorem execTimeWriteStaged_keeps (t : Time) (p : Path) (s : State) : KeepsNext s (execTimeWriteStaged t p s) := by
  unfold execTimeWriteStaged
  exact (((Keeps.refl s).tick ..).dictNum ..).next

theorem execTimeWriteImmediate_keeps (t : Time) (p : Path) (s : State) :
    KeepsNext s (execTimeWriteImmediate t p s) := by
  unfold execTimeWriteImmediate
  exact (((Keeps.refl s).tick ..).dictNum ..).next

theorem execTallyWrite_keeps (t : Time) (p : Path) (n : Fin 256) (v : Nat) (s : State) :
    KeepsNext s (execTallyWrite t p n v s) := by
  unfold execTallyWrite
  exact (((Keeps.refl s).tick ..).dictNum ..).next

theorem execKeyImport_keeps (t : Time) (p : Path) (v : Nat) (s : State) : KeepsNext s (execKeyImport t p v s) := by
  unfold execKeyImport
  exact (((Keeps.refl s).tick ..).dictNum ..).next

theorem execKeyRevoke_keeps (t : Time) (p : Path) (v : Nat) (s : State) : KeepsNext s (execKeyRevoke t p v s) := by
  unfold execKeyRevoke
  exact (((Keeps.refl s).tick ..).dictNum ..).next

theorem execVerifyExecute_keeps (t : Time) (p : Path) (v : Nat) (s : State) :
    KeepsNext s (execVerifyExecute t p v s) := by
  unfold execVerifyExecute
  exact (((Keeps.refl s).tick ..).dictNum ..).next

theorem execServiceRead_keeps (t : Time) (p : Path) (c : Fin 48) (s : State) :
    KeepsNext s (execServiceRead t p c s) := by
  unfold execServiceRead
  exact (((Keeps.refl s).tick ..).dictNum ..).next

theorem execServiceWrite_keeps (t : Time) (p : Path) (c : Fin 48) (s : State) :
    KeepsNext s (execServiceWrite t p c s) := by
  unfold execServiceWrite
  exact (((Keeps.refl s).tick ..).dictNum ..).next

theorem execServiceFullPass_keeps (t : Time) (p : Path) (c : Fin 48) (s : State) :
    KeepsNext s (execServiceFullPass t p c s) := by
  unfold execServiceFullPass
  exact (((Keeps.refl s).tick ..).dictNum ..).next

theorem execServiceOneElement_keeps (t : Time) (p : Path) (c : Fin 48) (s : State) :
    KeepsNext s (execServiceOneElement t p c s) := by
  unfold execServiceOneElement
  exact (((Keeps.refl s).tick ..).dictNum ..).next

theorem execDefectDeclare_keeps (t : Time) (p : Path) (c : Fin 48) (e : Nat) (s : State) :
    KeepsNext s (execDefectDeclare t p c e s) := by
  unfold execDefectDeclare
  exact (((Keeps.refl s).tick ..).dictNum ..).next

theorem execDefectClear_keeps (t : Time) (p : Path) (c : Fin 48) (e : Nat) (s : State) :
    KeepsNext s (execDefectClear t p c e s) := by
  unfold execDefectClear
  exact (((Keeps.refl s).tick ..).dictNum ..).next

theorem execConsumeAdjust_keeps (t : Time) (p : Path) (c : Fin 48) (v : Nat) (s : State) :
    KeepsNext s (execConsumeAdjust t p c v s) := by
  unfold execConsumeAdjust
  exact (((Keeps.refl s).tick ..).dictNum ..).next

theorem execHostSensorWrite_keeps (t : Time) (p : Path) (c : Fin 48) (v : Nat) (s : State) :
    KeepsNext s (execHostSensorWrite t p c v s) := by
  unfold execHostSensorWrite
  exact (((Keeps.refl s).tick ..).dictNum ..).next

theorem execNewSupply_keeps (t : Time) (p : Path) (c : Fin 48) (v : Nat) (s : State) :
    KeepsNext s (execNewSupply t p c v s) := by
  unfold execNewSupply
  exact (((Keeps.refl s).tick ..).dictNum ..).next

theorem execRecordWrite_keeps (t : Time) (p : Path) (c : Fin 48) (v : Nat) (s : State) :
    KeepsNext s (execRecordWrite t p c v s) := by
  unfold execRecordWrite
  exact (((Keeps.refl s).tick ..).dictNum ..).next

theorem execLedgerExport_keeps (t : Time) (p : Path) (c : Fin 48) (s : State) :
    KeepsNext s (execLedgerExport t p c s) := by
  unfold execLedgerExport
  exact (((Keeps.refl s).tick ..).dictNum ..).next

theorem execLedgerImport_keeps (t : Time) (p : Path) (c : Fin 48) (s : State) :
    KeepsNext s (execLedgerImport t p c s) := by
  unfold execLedgerImport
  exact (((Keeps.refl s).tick ..).dictNum ..).next

theorem execAxisEnable_keeps (t : Time) (p : Path) (a : Fin 48) (s : State) :
    KeepsNext s (execAxisEnable t p a s) := by
  unfold execAxisEnable
  exact (((Keeps.refl s).tick ..).dictNum ..).next

theorem execAxisDisable_keeps (t : Time) (p : Path) (a : Fin 48) (s : State) :
    KeepsNext s (execAxisDisable t p a s) := by
  unfold execAxisDisable
  exact (((Keeps.refl s).tick ..).dictNum ..).next

theorem execAxisMove_keeps (t : Time) (p : Path) (a : Fin 48) (s : State) : KeepsNext s (execAxisMove t p a s) := by
  unfold execAxisMove
  exact (((Keeps.refl s).tick ..).dictNum ..).next

theorem execAxisVelocity_keeps (t : Time) (p : Path) (a : Fin 48) (s : State) :
    KeepsNext s (execAxisVelocity t p a s) := by
  unfold execAxisVelocity
  exact (((Keeps.refl s).tick ..).dictNum ..).next

theorem execAxisRun_keeps (t : Time) (p : Path) (a : Fin 48) (s : State) : KeepsNext s (execAxisRun t p a s) := by
  unfold execAxisRun
  exact (((Keeps.refl s).tick ..).dictNum ..).next

theorem execAxisStop_keeps (t : Time) (p : Path) (a : Fin 48) (s : State) : KeepsNext s (execAxisStop t p a s) := by
  unfold execAxisStop
  exact (((Keeps.refl s).tick ..).dictNum ..).next

theorem execAxisAlign_keeps (t : Time) (p : Path) (a : Fin 48) (s : State) : KeepsNext s (execAxisAlign t p a s) := by
  unfold execAxisAlign
  exact (((Keeps.refl s).tick ..).dictNum ..).next

theorem execAxisBrake_keeps (t : Time) (p : Path) (a : Fin 48) (s : State) : KeepsNext s (execAxisBrake t p a s) := by
  unfold execAxisBrake
  exact (((Keeps.refl s).tick ..).dictNum ..).next

theorem execAxisClearFault_keeps (t : Time) (p : Path) (a : Fin 48) (s : State) :
    KeepsNext s (execAxisClearFault t p a s) := by
  unfold execAxisClearFault
  exact (((Keeps.refl s).tick ..).dictNum ..).next

theorem execCoefficientApply_keeps (t : Time) (p : Path) (n : Fin 64) (v : Nat) (s : State) :
    KeepsNext s (execCoefficientApply t p n v s) := by
  unfold execCoefficientApply
  exact (((Keeps.refl s).tick ..).dictNum ..).next

theorem execLoopOverrunClear_keeps (t : Time) (p : Path) (v : Nat) (s : State) :
    KeepsNext s (execLoopOverrunClear t p v s) := by
  unfold execLoopOverrunClear
  exact (((Keeps.refl s).tick ..).dictNum ..).next

theorem execStoreSave_keeps (t : Time) (p : Path) (v : Nat) (s : State) : KeepsNext s (execStoreSave t p v s) := by
  unfold execStoreSave
  exact (((Keeps.refl s).tick ..).dictNum ..).next

theorem execStoreRestore_keeps (t : Time) (p : Path) (v : Nat) (s : State) :
    KeepsNext s (execStoreRestore t p v s) := by
  unfold execStoreRestore
  exact (((Keeps.refl s).tick ..).dictNum ..).next

theorem execProgramStart_keeps (t : Time) (p : Path) (v : Nat) (s : State) :
    KeepsNext s (execProgramStart t p v s) := by
  unfold execProgramStart
  exact (((Keeps.refl s).tick ..).dictNum ..).next

theorem execStoreCommit_keeps (t : Time) (p : Path) (v : Nat) (s : State) :
    KeepsNext s (execStoreCommit t p v s) := by
  unfold execStoreCommit
  exact (((Keeps.refl s).tick ..).dictNum ..).next

theorem execOtpProgram_keeps (t : Time) (p : Path) (v : Nat) (s : State) : KeepsNext s (execOtpProgram t p v s) := by
  unfold execOtpProgram
  exact (((Keeps.refl s).tick ..).dictNum ..).next

theorem execLifecycleAdvance_keeps (t : Time) (p : Path) (v : Nat) (s : State) :
    KeepsNext s (execLifecycleAdvance t p v s) := by
  unfold execLifecycleAdvance
  exact (((Keeps.refl s).tick ..).dictNum ..).next

theorem execSetRestrict_keeps (t : Time) (p : Path) (s : State) : KeepsNext s (execSetRestrict t p s) := by
  unfold execSetRestrict
  exact (((Keeps.refl s).tick ..).dictNum ..).next

theorem execSetDebugLock_keeps (t : Time) (p : Path) (s : State) : KeepsNext s (execSetDebugLock t p s) := by
  unfold execSetDebugLock
  exact (((Keeps.refl s).tick ..).dictNum ..).next

theorem execRevokeFirmwareKey_keeps (t : Time) (p : Path) (v : Nat) (s : State) :
    KeepsNext s (execRevokeFirmwareKey t p v s) := by
  unfold execRevokeFirmwareKey
  exact (((Keeps.refl s).tick ..).dictNum ..).next

theorem execAdvanceSecurityCounter_keeps (t : Time) (p : Path) (v : Nat) (s : State) :
    KeepsNext s (execAdvanceSecurityCounter t p v s) := by
  unfold execAdvanceSecurityCounter
  exact (((Keeps.refl s).tick ..).dictNum ..).next

theorem execUpdateExecute_keeps (t : Time) (p : Path) (v : Nat) (s : State) :
    KeepsNext s (execUpdateExecute t p v s) := by
  unfold execUpdateExecute
  exact (((Keeps.refl s).tick ..).dictNum ..).next

theorem execActivate_keeps (t : Time) (p : Path) (v : Nat) (s : State) : KeepsNext s (execActivate t p v s) := by
  unfold execActivate
  exact (((Keeps.refl s).tick ..).dictNum ..).next

theorem execRequestConfigure_keeps (t : Time) (p : Path) (s : State) : KeepsNext s (execRequestConfigure t p s) := by
  unfold execRequestConfigure
  exact (((Keeps.refl s).tick ..).dictNum ..).next

theorem execRequestStandby_keeps (t : Time) (p : Path) (s : State) : KeepsNext s (execRequestStandby t p s) := by
  unfold execRequestStandby
  exact (((Keeps.refl s).tick ..).dictNum ..).next

theorem execRequestReady_keeps (t : Time) (p : Path) (s : State) : KeepsNext s (execRequestReady t p s) := by
  unfold execRequestReady
  exact (((Keeps.refl s).tick ..).dictNum ..).next

theorem execRequestMarking_keeps (t : Time) (p : Path) (s : State) : KeepsNext s (execRequestMarking t p s) := by
  unfold execRequestMarking
  exact (((Keeps.refl s).tick ..).dictNum ..).next

theorem execRequestService_keeps (t : Time) (p : Path) (s : State) : KeepsNext s (execRequestService t p s) := by
  unfold execRequestService
  exact (((Keeps.refl s).tick ..).dictNum ..).next

theorem execRequestSafe_keeps (t : Time) (p : Path) (s : State) : KeepsNext s (execRequestSafe t p s) := by
  unfold execRequestSafe
  exact (((Keeps.refl s).tick ..).dictNum ..).next

theorem execDeviceResetCommand_keeps (t : Time) (p : Path) (s : State) :
    KeepsNext s (execDeviceResetCommand t p s) := by
  unfold execDeviceResetCommand
  exact (((Keeps.refl s).tick ..).dictNum ..).next

theorem execFirmwareRestartCommand_keeps (t : Time) (p : Path) (s : State) :
    KeepsNext s (execFirmwareRestartCommand t p s) := by
  unfold execFirmwareRestartCommand
  exact (((Keeps.refl s).tick ..).dictNum ..).next

end Operations

/-! ## Every command, and the invariant -/

/-- Every command answers a next state that keeps what `Keeps` says. -/
theorem exec_keeps (k : Instr) (s : State) : KeepsNext s (exec k s) := by
  unfold exec
  cases k with
  | registerWrite => exact execRegisterWrite_keeps ..
  | dictionaryWrite => exact execDictionaryWrite_keeps ..
  | encoderEdge => exact execEncoderEdge_keeps ..
  | sincosSample => exact execSincosSample_keeps ..
  | index => exact execIndex_keeps ..
  | wireCheckExpiry => exact execWireCheckExpiry_keeps ..
  | autoTrackUpdate => exact execAutoTrackUpdate_keeps ..
  | encStatusClear => exact execEncStatusClear_keeps ..
  | lineAxisUpdate => exact execLineAxisUpdate_keeps ..
  | sourceKindWrite => exact execSourceKindWrite_keeps ..
  | sourceSwitch => exact execSourceSwitch_keeps ..
  | lineAxisSourceFault => exact execLineAxisSourceFault_keeps ..
  | deadReckonExpiry => exact execDeadReckonExpiry_keeps ..
  | zeroSpeedTimeout => exact execZeroSpeedTimeout_keeps ..
  | ginEdge => exact execGinEdge_keeps ..
  | ginPulseRejected => exact execGinPulseRejected_keeps ..
  | ginStuckTimeout => exact execGinStuckTimeout_keeps ..
  | plsStepOut => exact execPlsStepOut_keeps ..
  | plsRatioWrite => exact execPlsRatioWrite_keeps ..
  | laxSnap => exact execLaxSnap_keeps ..
  | decisionPoint => exact execDecisionPoint_keeps ..
  | compositionStart => exact execCompositionStart_keeps ..
  | changeApply => exact execChangeApply_keeps ..
  | markClose => exact execMarkClose_keeps ..
  | goDeadline => exact execGoDeadline_keeps ..
  | reportMarginReached => exact execReportMarginReached_keeps ..
  | rejectPosition => exact execRejectPosition_keeps ..
  | rejectPulseEnd => exact execRejectPulseEnd_keeps ..
  | casementArm => exact execCasementArm_keeps ..
  | casementDisarm => exact execCasementDisarm_keeps ..
  | casementEnterService => exact execCasementEnterService_keeps ..
  | casementLeaveService => exact execCasementLeaveService_keeps ..
  | casementClearFault => exact execCasementClearFault_keeps ..
  | armingComplete => exact execArmingComplete_keeps ..
  | armingTimeout => exact execArmingTimeout_keeps ..
  | headPoll => exact execHeadPoll_keeps ..
  | templateCommit => exact execTemplateCommit_keeps ..
  | glyphSetCommit => exact execGlyphSetCommit_keeps ..
  | rotorTableCommit => exact execRotorTableCommit_keeps ..
  | commitValidationDone => exact execCommitValidationDone_keeps ..
  | glyphSetPin => exact execGlyphSetPin_keeps ..
  | templateQuery => exact execTemplateQuery_keeps ..
  | typeCaseFillDone => exact execTypeCaseFillDone_keeps ..
  | compositionUnitDispatch => exact execCompositionUnitDispatch_keeps ..
  | galleyRefillDone => exact execGalleyRefillDone_keeps ..
  | timeWriteStaged => exact execTimeWriteStaged_keeps ..
  | timeWriteImmediate => exact execTimeWriteImmediate_keeps ..
  | stagedTimeApply => exact execStagedTimeApply_keeps ..
  | ptpOffset => exact execPtpOffset_keeps ..
  | ptpHoldoverTimeout => exact execPtpHoldoverTimeout_keeps ..
  | holdoverExpiry => exact execHoldoverExpiry_keeps ..
  | calendarRealign => exact execCalendarRealign_keeps ..
  | calendarTrimStep => exact execCalendarTrimStep_keeps ..
  | timeSnap => exact execTimeSnap_keeps ..
  | leapSecondApply => exact execLeapSecondApply_keeps ..
  | daylightChange => exact execDaylightChange_keeps ..
  | shiftChange => exact execShiftChange_keeps ..
  | tallyWrite => exact execTallyWrite_keeps ..
  | tallyLoRead => exact execTallyLoRead_keeps ..
  | persistMarkConfirmed => exact execPersistMarkConfirmed_keeps ..
  | notaryDispatch => exact execNotaryDispatch_keeps ..
  | notaryOperationDone => exact execNotaryOperationDone_keeps ..
  | keyImport => exact execKeyImport_keeps ..
  | keyRevoke => exact execKeyRevoke_keeps ..
  | verifyExecute => exact execVerifyExecute_keeps ..
  | trainingEnd => exact execTrainingEnd_keeps ..
  | strobeLimit => exact execStrobeLimit_keeps ..
  | sillTransactionStart => exact execSillTransactionStart_keeps ..
  | sillTransactionDone => exact execSillTransactionDone_keeps ..
  | sillRetry => exact execSillRetry_keeps ..
  | adcConversion => exact execAdcConversion_keeps ..
  | vddaReferenceConversion => exact execVddaReferenceConversion_keeps ..
  | serviceRead => exact execServiceRead_keeps ..
  | serviceWrite => exact execServiceWrite_keeps ..
  | lineLoad => exact execLineLoad_keeps ..
  | loadDeadline => exact execLoadDeadline_keeps ..
  | lineFreeze => exact execLineFreeze_keeps ..
  | lineTrigger => exact execLineTrigger_keeps ..
  | lineFired => exact execLineFired_keeps ..
  | minPeriodRefresh => exact execMinPeriodRefresh_keeps ..
  | measureCycle => exact execMeasureCycle_keeps ..
  | measurePassStart => exact execMeasurePassStart_keeps ..
  | serviceFullPass => exact execServiceFullPass_keeps ..
  | serviceOneElement => exact execServiceOneElement_keeps ..
  | defectDeclare => exact execDefectDeclare_keeps ..
  | defectClear => exact execDefectClear_keeps ..
  | scrubStep => exact execScrubStep_keeps ..
  | consumeAdjust => exact execConsumeAdjust_keeps ..
  | spoolSpan => exact execSpoolSpan_keeps ..
  | inkSensorPoll => exact execInkSensorPoll_keeps ..
  | hostSensorWrite => exact execHostSensorWrite_keeps ..
  | newSupply => exact execNewSupply_keeps ..
  | usageLinesFlush => exact execUsageLinesFlush_keeps ..
  | usageHour => exact execUsageHour_keeps ..
  | recordWrite => exact execRecordWrite_keeps ..
  | ledgerExport => exact execLedgerExport_keeps ..
  | ledgerImport => exact execLedgerImport_keeps ..
  | axisEnable => exact execAxisEnable_keeps ..
  | axisDisable => exact execAxisDisable_keeps ..
  | axisMove => exact execAxisMove_keeps ..
  | axisVelocity => exact execAxisVelocity_keeps ..
  | axisRun => exact execAxisRun_keeps ..
  | axisStop => exact execAxisStop_keeps ..
  | axisAlign => exact execAxisAlign_keeps ..
  | axisBrake => exact execAxisBrake_keeps ..
  | axisClearFault => exact execAxisClearFault_keeps ..
  | axisTick => exact execAxisTick_keeps ..
  | runCheckDone => exact execRunCheckDone_keeps ..
  | runTrigger => exact execRunTrigger_keeps ..
  | limitInput => exact execLimitInput_keeps ..
  | followingError => exact execFollowingError_keeps ..
  | holdCurrentTimeout => exact execHoldCurrentTimeout_keeps ..
  | chopOff => exact execChopOff_keeps ..
  | chopCycleEnd => exact execChopCycleEnd_keeps ..
  | overcurrent => exact execOvercurrent_keeps ..
  | observerUpdate => exact execObserverUpdate_keeps ..
  | observerDisagreement => exact execObserverDisagreement_keeps ..
  | startTimeout => exact execStartTimeout_keeps ..
  | catchDone => exact execCatchDone_keeps ..
  | segmentWrite => exact execSegmentWrite_keeps ..
  | loopTick => exact execLoopTick_keeps ..
  | coefficientApply => exact execCoefficientApply_keeps ..
  | loopOverrunClear => exact execLoopOverrunClear_keeps ..
  | plannedPassRefresh => exact execPlannedPassRefresh_keeps ..
  | bar2Access => exact execBar2Access_keeps ..
  | queueEnable => exact execQueueEnable_keeps ..
  | queueDisable => exact execQueueDisable_keeps ..
  | doorbellWrite => exact execDoorbellWrite_keeps ..
  | porterGrant => exact execPorterGrant_keeps ..
  | agingPromotion => exact execAgingPromotion_keeps ..
  | markRequestAccept => exact execMarkRequestAccept_keeps ..
  | recordAccept => exact execRecordAccept_keeps ..
  | dictionaryRequest => exact execDictionaryRequest_keeps ..
  | mailboxSubmit => exact execMailboxSubmit_keeps ..
  | completionDrain => exact execCompletionDrain_keeps ..
  | eventWrite => exact execEventWrite_keeps ..
  | irqModerationTimeout => exact execIrqModerationTimeout_keeps ..
  | dmaStart => exact execDmaStart_keeps ..
  | dmaAbort => exact execDmaAbort_keeps ..
  | dmaBurst => exact execDmaBurst_keeps ..
  | hostReset => exact execHostReset_keeps ..
  | storeSave => exact execStoreSave_keeps ..
  | storeRestore => exact execStoreRestore_keeps ..
  | storeSaveDone => exact execStoreSaveDone_keeps ..
  | autoSave => exact execAutoSave_keeps ..
  | dramDataWrite => exact execDramDataWrite_keeps ..
  | dramDataRead => exact execDramDataRead_keeps ..
  | usdoRequest => exact execUsdoRequest_keeps ..
  | rpdoReceive => exact execRpdoReceive_keeps ..
  | tpdoTransmit => exact execTpdoTransmit_keeps ..
  | syncReceive => exact execSyncReceive_keeps ..
  | nmtStartRemoteNode => exact execNmtStartRemoteNode_keeps ..
  | nmtEnterPreoperational => exact execNmtEnterPreoperational_keeps ..
  | nmtStopRemoteNode => exact execNmtStopRemoteNode_keeps ..
  | nmtResetCommunication => exact execNmtResetCommunication_keeps ..
  | nmtResetNode => exact execNmtResetNode_keeps ..
  | heartbeatTimeout => exact execHeartbeatTimeout_keeps ..
  | emcyInhibitExpiry => exact execEmcyInhibitExpiry_keeps ..
  | busOff => exact execBusOff_keeps ..
  | busOffRecovery => exact execBusOffRecovery_keeps ..
  | kdpRequest => exact execKdpRequest_keeps ..
  | kdpEventSend => exact execKdpEventSend_keeps ..
  | arpRequest => exact execArpRequest_keeps ..
  | icmpEcho => exact execIcmpEcho_keeps ..
  | ptpMessage => exact execPtpMessage_keeps ..
  | ptpAnnounceTimeout => exact execPtpAnnounceTimeout_keeps ..
  | portUp => exact execPortUp_keeps ..
  | portDown => exact execPortDown_keeps ..
  | positionSend => exact execPositionSend_keeps ..
  | position => exact execPosition_keeps ..
  | positionLossTimeout => exact execPositionLossTimeout_keeps ..
  | timeSyncSend => exact execTimeSyncSend_keeps ..
  | timeSync => exact execTimeSync_keeps ..
  | helloSend => exact execHelloSend_keeps ..
  | hello => exact execHello_keeps ..
  | topology => exact execTopology_keeps ..
  | viewStable => exact execViewStable_keeps ..
  | tree => exact execTree_keeps ..
  | treeApply => exact execTreeApply_keeps ..
  | failover => exact execFailover_keeps ..
  | rediscoveryStart => exact execRediscoveryStart_keeps ..
  | ack => exact execAck_keeps ..
  | nak => exact execNak_keeps ..
  | replayTimeout => exact execReplayTimeout_keeps ..
  | anchor => exact execAnchor_keeps ..
  | voteReceive => exact execVoteReceive_keeps ..
  | voteCutoff => exact execVoteCutoff_keeps ..
  | go => exact execGo_keeps ..
  | abort => exact execAbort_keeps ..
  | report => exact execReport_keeps ..
  | pgChange => exact execPgChange_keeps ..
  | pgTimeout => exact execPgTimeout_keeps ..
  | retryDelayExpiry => exact execRetryDelayExpiry_keeps ..
  | retryCountReset => exact execRetryCountReset_keeps ..
  | programStart => exact execProgramStart_keeps ..
  | end_ => exact execEnd_keeps ..
  | enable => exact execEnable_keeps ..
  | disable => exact execDisable_keeps ..
  | wait => exact execWait_keeps ..
  | waitPg => exact execWaitPg_keeps ..
  | checkJump => exact execCheckJump_keeps ..
  | syncStep => exact execSyncStep_keeps ..
  | lsyncQualify => exact execLsyncQualify_keeps ..
  | lsyncRedrive => exact execLsyncRedrive_keeps ..
  | syncTimeout => exact execSyncTimeout_keeps ..
  | contention => exact execContention_keeps ..
  | programTimeLimit => exact execProgramTimeLimit_keeps ..
  | shutdownTimeLimit => exact execShutdownTimeLimit_keeps ..
  | storeCommit => exact execStoreCommit_keeps ..
  | pressed => exact execPressed_keeps ..
  | short => exact execShort_keeps ..
  | forceOff => exact execForceOff_keeps ..
  | manualReset => exact execManualReset_keeps ..
  | otpRead => exact execOtpRead_keeps ..
  | otpMarginRead => exact execOtpMarginRead_keeps ..
  | otpProgram => exact execOtpProgram_keeps ..
  | otpProgramDone => exact execOtpProgramDone_keeps ..
  | lifecycleAdvance => exact execLifecycleAdvance_keeps ..
  | setRestrict => exact execSetRestrict_keeps ..
  | setDebugLock => exact execSetDebugLock_keeps ..
  | revokeFirmwareKey => exact execRevokeFirmwareKey_keeps ..
  | advanceSecurityCounter => exact execAdvanceSecurityCounter_keeps ..
  | updateExecute => exact execUpdateExecute_keeps ..
  | updateDone => exact execUpdateDone_keeps ..
  | activate => exact execActivate_keeps ..
  | confirmed => exact execConfirmed_keeps ..
  | hostBootLoad => exact execHostBootLoad_keeps ..
  | requestConfigure => exact execRequestConfigure_keeps ..
  | requestStandby => exact execRequestStandby_keeps ..
  | requestReady => exact execRequestReady_keeps ..
  | requestMarking => exact execRequestMarking_keeps ..
  | requestService => exact execRequestService_keeps ..
  | requestSafe => exact execRequestSafe_keeps ..
  | modeTransitionComplete => exact execModeTransitionComplete_keeps ..
  | porstLow => exact execPorstLow_keeps ..
  | porstRelease => exact execPorstRelease_keeps ..
  | startupStandbyRequest => exact execStartupStandbyRequest_keeps ..
  | deviceResetCommand => exact execDeviceResetCommand_keeps ..
  | firmwareRestartCommand => exact execFirmwareRestartCommand_keeps ..
  | resetHoldEnd => exact execResetHoldEnd_keeps ..
  | restartEnd => exact execRestartEnd_keeps ..
  | faultOccurrence => exact execFaultOccurrence_keeps ..
  | faultClear => exact execFaultClear_keeps ..
  | fswLoRead => exact execFswLoRead_keeps ..
  | watchdog => exact execWatchdog_keeps ..
  | watchdogRestartStart => exact execWatchdogRestartStart_keeps ..
  | lockstepMismatch => exact execLockstepMismatch_keeps ..
  | dieTemperatureMeasure => exact execDieTemperatureMeasure_keeps ..
  | referenceLost => exact execReferenceLost_keeps ..
  | injectionExecute => exact execInjectionExecute_keeps ..
  | injectionRewrite => exact execInjectionRewrite_keeps ..
  | safeHeartbeat => exact execSafeHeartbeat_keeps ..
  | inputInactive => exact execInputInactive_keeps ..
  | alignTimeExpiry => exact execAlignTimeExpiry_keeps ..
  | catchBrakeExpiry => exact execCatchBrakeExpiry_keeps ..
  | pcieLinkUp => exact execPcieLinkUp_keeps ..
  | ethernetLinkUp => exact execEthernetLinkUp_keeps ..
  | ethernetLinkDown => exact execEthernetLinkDown_keeps ..
  | errorPassive => exact execErrorPassive_keeps ..
  | heartbeatProduce => exact execHeartbeatProduce_keeps ..
  | syncProduce => exact execSyncProduce_keeps ..
  | ptpTransmit => exact execPtpTransmit_keeps ..

theorem Keeps.inv {s u : State} (h : Keeps s u) (hs : s.Inv) : u.Inv := ⟨h.mem hs.1, h.fsw hs.2⟩

theorem step_keeps_inv {s u : State} (hs : s.Inv) (h : step s = .next u) : u.Inv := by
  unfold step at h
  split at h
  case h_1 =>
    obtain rfl := Host.Outcome.next.inj h
    exact hs
  case h_2 k rest e =>
    obtain ⟨v, hv, hkeep⟩ := exec_keeps k { s with pending := rest }
    obtain rfl := Host.Outcome.next.inj (hv.symm.trans h)
    exact hkeep.inv hs

/-- Settles O47: memory is empty and no fault is set at reset. -/
theorem resetInvariant : Obligations.ResetInvariant := by
  unfold Obligations.ResetInvariant
  exact ⟨(Mem.wf_iff _).mpr ⟨rfl, rfl, rfl⟩, rfl⟩

/-- Settles O48, from what each command keeps. -/
theorem stepKeepsInvariant : Obligations.StepKeepsInvariant := by
  unfold Obligations.StepKeepsInvariant
  exact fun _ _ => step_keeps_inv

end Sys2Proof.Machine

namespace Sys2Proof.Machine

/-! # Accesses over a path that serves the dictionary (R6, R331) -/

/-- A path that serves the dictionary is not BAR0, the firmware runs and answers, and a USDO node takes part. -/
theorem State.serves_iff (s : State) (p : Path) :
    s.serves p = true ↔
      p ≠ .bar0 ∧ 2 ≤ s.modeN ∧ s.deaf = false ∧ ∀ i, p = .usdo i → s.usdoServed i = true := by
  cases p <;> simp [State.serves, and_assoc]

/-- A write that the checks of its row refuse changes nothing but its answer. -/
theorem State.dictWrite_refused {s : State} {p : Path} {idx sub : Nat} {b : Bytes} {r : Refuse} (hp : s.serves p = true)
    (hr : s.writeParse idx sub b = .error r) : s.dictWrite p idx sub b = s.answer (.refused r) := by
  obtain ⟨hbar, hmode, hdeaf, husdo⟩ := (s.serves_iff p).mp hp
  have hone : s.writeOne p true idx sub b = (s, some r) := by rw [State.writeOne, hr]
  have hmode' : ¬ s.modeN ≤ 1 := by omega
  cases p with
  | bar0 => exact absurd rfl hbar
  | usdo i => simp [State.dictWrite, hmode', hdeaf, husdo i rfl, hone]
  | _ => simp [State.dictWrite, hmode', hdeaf, hone]

theorem State.dictReadOn_served {s : State} {p : Path} {idx sub : Nat} {d : Bytes} (hp : s.serves p = true)
    (hd : s.dictRead idx sub = .ok d) : s.dictReadOn p idx sub false = (s.readSide idx sub).answer (.data d) := by
  obtain ⟨hbar, hmode, hdeaf, husdo⟩ := (s.serves_iff p).mp hp
  have hmode' : ¬ s.modeN ≤ 1 := by omega
  cases p with
  | bar0 => exact absurd rfl hbar
  | usdo i => simp [State.dictReadOn, hmode', hdeaf, husdo i rfl, hd]
  | _ => simp [State.dictReadOn, hmode', hdeaf, hd]

/-- A mode that the row does not list: the write is refused for it, or, where the row lists none, as one of a read-only object. -/
theorem State.writeParse_unlisted {s : State} {idx sub : Nat} {x : Nat × Nat × Row} (b : Bytes)
    (hx : findRow idx sub = some x) (hmode : modeTakes s.modeN x.2.2.acc = false) :
    ∃ r, s.writeParse idx sub b = .error r ∧ (r = .mode ∨ r = .readOnly) := by
  by_cases hro : s.modeN ≠ 7 ∧ x.2.2.acc = 0
  · exact ⟨.readOnly, by rw [State.writeParse, hx]; exact if_pos hro, .inr rfl⟩
  · refine ⟨.mode, ?_, .inl rfl⟩
    rw [State.writeParse, hx]
    simp only [if_neg hro, hmode, Bool.not_false, if_true]

theorem State.dictRead_row {s : State} {idx sub : Nat} {x : Nat × Nat × Row} (hx : findRow idx sub = some x)
    (hdram : idx = 0x2070 → sub = 2 → s.dramAccess (s.nat (ky 0x2070 3)) = true) :
    s.dictRead idx sub = .ok (encodeVal x.2.2.ty (s.readVal idx sub x.1 x.2.1 x.2.2)) := by
  have hwindow : ¬ (idx = 0x2070 ∧ sub = 2 ∧ (!s.dramAccess (s.nat (ky 0x2070 3))) = true) := by
    rintro ⟨hidx, hsub, hbad⟩
    simp [hdram hidx hsub] at hbad
  rw [State.dictRead, hx]
  exact if_neg hwindow

/-- Settles O50: a write in an unlisted mode fails the checks of its row, and a read looks at no mode. -/
theorem writeOutsideTheListedModes : Obligations.WriteOutsideTheListedModes := by
  unfold Obligations.WriteOutsideTheListedModes
  refine ⟨fun t s0 p idx sub b x hp hx hmode => ?_, fun s p idx sub x hp hx hdram => ?_, fun t s0 i idx sub => rfl⟩
  · obtain ⟨r, hr, hwhy⟩ := State.writeParse_unlisted b hx hmode
    exact ⟨r, congrArg Host.Outcome.next (State.dictWrite_refused hp hr), hwhy⟩
  · exact State.dictReadOn_served hp (State.dictRead_row hx hdram)

end Sys2Proof.Machine

namespace Sys2Proof.Machine

/-! # Events of a casement complete (R14, R59, R65, R66, R81, R182, R241) -/

/-- The oldest undecided anchor, once it has reached its decision point, is decided behind what R14 takes ahead of it. -/
theorem execDecisionPoint_reached {t : Time} {c : Fin 48} {s0 : State} {m : Mark}
    (hm : ((((s0.tick t).applyChanges t).closesFirst c t).casOf c).pend.find? (fun m => m.vote.isNone) = some m)
    (hr : (((s0.tick t).applyChanges t).closesFirst c t).reached c m = true) :
    exec (.decisionPoint t c) s0 =
      .next (((((s0.tick t).applyChanges t).closesFirst c t).decide_ c m).takeCommand c) := by
  change execDecisionPoint t c s0 = _
  simp only [execDecisionPoint, hm, hr, if_true]

/-- A galley buffer is free: the oldest mark that waits starts composing. -/
theorem State.startComposition_free {s : State} {c : Nat} {m : Mark}
    (hm : (s.casOf c).pend.find? (fun m => m.comp.isNone && (!m.needReq || m.req.isSome)) = some m)
    (hfree : (s.casOf c).opened.length + ((s.casOf c).pend.filter (fun m => m.comp.isSome)).length < 2) :
    s.startComposition c =
      ({ s with comp := { s.comp with order := s.comp.order + 1 } }).beginMark c
        { m with comp := some (s.comp.order + 1), compT := s.now } false := by
  simp only [State.startComposition, hm, hfree, if_true]
  rfl

/-- Settles O9, command by command: each hypothesis is the condition under which its command acts. -/
theorem casementEvents : Obligations.CasementEvents := by
  unfold Obligations.CasementEvents
  refine ⟨?arming, ?timeout, ?usage, ?hour, fun _ _ => rfl, ?composition, ?decision⟩
  case arming =>
    intro t s0 c s x hst hafter hbusy htr htrain hhead
    exact if_pos ⟨hst, hafter, by rw [hbusy]; rfl, htr, htrain, hhead⟩
  case timeout =>
    intro t s0 c s ht hst hafter
    change execArmingTimeout t c s0 = _
    rw [execArmingTimeout, if_pos ht, State.armFail, if_pos ⟨hst, hafter⟩]
  case usage =>
    intro t s0 c s hst
    exact if_pos hst
  case hour =>
    intro t s0 c h s x hh hst ht
    change execUsageHour t c s0 = _
    rw [execUsageHour, show (State.casOf (s0.tick t) c).hourT = some h from hh]
    exact if_pos ⟨hst, ht⟩
  case composition =>
    intro t s0 c m s u x hm hfree
    exact congrArg Host.Outcome.next (State.startComposition_free hm hfree)
  case decision =>
    intro t s0 c m s u hm hr
    exact execDecisionPoint_reached hm hr

end Sys2Proof.Machine

namespace Sys2Proof.Machine

/-! # What leaves the open marks of every casement alone (R9, R68)

Between `s` and `u` no open mark changes, casement `c` stays in its state, and no other casement is touched. Each operation of a refusal
has its lemma in the form that chains, as those of `Keeps`. -/

/-- Casements other than `c`, the open marks and the state of `c`, and what the Compositor holds are those of `s`. -/
structure KeepsOpen (c : Nat) (s u : State) : Prop where
  others : ∀ k, k ≠ c → u.casOf k = s.casOf k
  opened : (u.casOf c).opened = (s.casOf c).opened
  state : u.casState c = s.casState c
  comp : u.comp = s.comp

namespace KeepsOpen

variable {c : Nat} {s u v : State}

theorem refl (c : Nat) (s : State) : KeepsOpen c s s := ⟨fun _ _ => rfl, rfl, rfl, rfl⟩

/-- A change of neither the casements, nor the objects, nor the Compositor. -/
theorem same (h : KeepsOpen c s u) (hcas : v.cas = u.cas) (hobj : v.obj = u.obj) (hcomp : v.comp = u.comp) : KeepsOpen c s v where
  others k hk := by rw [State.casOf, hcas]; exact h.others k hk
  opened := by rw [State.casOf, hcas]; exact h.opened
  state := by rw [State.casState, State.nat, State.num, State.val, hobj]; exact h.state
  comp := hcomp.trans h.comp

theorem ite {p : Prop} [Decidable p] (h : KeepsOpen c s u) (g : KeepsOpen c s v) : KeepsOpen c s (if p then u else v) := by
  split
  · exact h
  · exact g

/-- A fold whose every step keeps, over the part of the accumulator that holds the state. -/
theorem foldl_proj {α β : Type} (π : β → State) (l : List α) (f : β → α → β)
    (hf : ∀ a x, x ∈ l → KeepsOpen c s (π a) → KeepsOpen c s (π (f a x))) {a : β} (h : KeepsOpen c s (π a)) :
    KeepsOpen c s (π (l.foldl f a)) := by
  induction l generalizing a with
  | nil => exact h
  | cons x l ih => exact ih (fun a y hy => hf a y (.tail x hy)) (hf a x (.head l) h)

theorem foldl {α : Type} (h : KeepsOpen c s u) (l : List α) (f : State → α → State)
    (hf : ∀ v x, KeepsOpen c s v → KeepsOpen c s (f v x)) : KeepsOpen c s (l.foldl f u) :=
  foldl_proj id l f (fun v x _ => hf v x) h

/-! ## Named updates -/

/-- Another object than the casement's state takes a value. -/
theorem setnKey (h : KeepsOpen c s u) {k : Nat} (n : Int) (hk : oCas c 2 1 ≠ k) : KeepsOpen c s (u.setn k n) where
  others := h.others
  opened := h.opened
  state := (State.nat_setn_ne u n hk).trans h.state
  comp := h.comp

/-- No object of another sub-index is the state of a casement. -/
theorem setn (h : KeepsOpen c s u) (idx sub : Nat) (n : Int) (hs : sub % 256 ≠ 1 := by decide) :
    KeepsOpen c s (u.setn (ky idx sub) n) :=
  h.setnKey n (by unfold oCas ky; omega)

theorem bumpBy (h : KeepsOpen c s u) (idx sub n : Nat) (hs : sub % 256 ≠ 1 := by decide) : KeepsOpen c s (u.bumpBy (ky idx sub) n) :=
  h.setn idx sub _ hs

theorem bump (h : KeepsOpen c s u) (idx sub : Nat) (hs : sub % 256 ≠ 1 := by decide) : KeepsOpen c s (u.bump (ky idx sub)) :=
  h.bumpBy idx sub 1 hs

theorem setbit (h : KeepsOpen c s u) (idx sub i : Nat) (b : Bool) (hs : sub % 256 ≠ 1 := by decide) :
    KeepsOpen c s (u.setbit (ky idx sub) i b) :=
  h.setn idx sub _ hs

theorem event (h : KeepsOpen c s u) (src cause inst : Nat) (data : Bytes := []) : KeepsOpen c s (u.event src cause inst data) := by
  obtain ⟨host, e⟩ := u.event_host_only src cause inst data
  rw [e]
  exact h.same rfl rfl rfl

theorem send (h : KeepsOpen c s u) (o : Out) : KeepsOpen c s (u.send o) := h.same rfl rfl rfl
theorem setQ (h : KeepsOpen c s u) (q : Nat) (d : Queue) : KeepsOpen c s (u.setQ q d) := h.same rfl rfl rfl
theorem setTal (h : KeepsOpen c s u) (n : Nat) (x : Tal) : KeepsOpen c s (u.setTal n x) := h.same rfl rfl rfl
theorem setRej (h : KeepsOpen c s u) (n : Nat) (x : Rej) : KeepsOpen c s (u.setRej n x) := h.same rfl rfl rfl
theorem setEx (h : KeepsOpen c s u) (n : Nat) (x : Exec) : KeepsOpen c s (u.setEx n x) := h.same rfl rfl rfl

/-- Casement `c` is changed in something else than its open marks. -/
theorem setCasement (h : KeepsOpen c s u) {x : Cas} (hx : x.opened = (u.casOf c).opened) : KeepsOpen c s (u.setCasement c x) where
  others k hk := by rw [State.casOf_setCasement, if_neg hk]; exact h.others k hk
  opened := by rw [State.casOf_setCasement_self, hx]; exact h.opened
  state := h.state
  comp := h.comp

/-! ## The Shutter's operations on marks that are not open -/

theorem setPend (h : KeepsOpen c s u) (m : Mark) : KeepsOpen c s (u.setPend c m) := h.setCasement rfl

theorem dropPend (h : KeepsOpen c s u) (m : Mark) : KeepsOpen c s (u.dropPend c m) := by
  unfold State.dropPend
  extract_lets x p
  have h1 : KeepsOpen c s (u.setCasement c { x with pend := p }) := h.setCasement rfl
  exact h1.setn ..

theorem withdraw (h : KeepsOpen c s u) (order : Nat) (field : Option Nat) : KeepsOpen c s (u.withdraw order field) := by
  unfold State.withdraw
  extract_lets hit n gone q s1 s2
  have h1 : KeepsOpen c s s1 := h.same rfl rfl rfl
  have h2 : KeepsOpen c s s2 := (h1.bumpBy ..).setnKey _ (by unfold oCas ky; omega)
  split
  · exact .ite ((h2.same (by rfl) (by rfl) (by rfl)).bump ..) h2
  · exact h2

theorem shortage (h : KeepsOpen c s u) (fails : Nat) : KeepsOpen c s (u.shortage c fails) := by
  unfold State.shortage
  exact .ite ((h.setbit ..).event ..) (h.setbit ..)

theorem fieldError (h : KeepsOpen c s u) (m : Mark) (code : Nat) : KeepsOpen c s (u.fieldError c m code) := by
  unfold State.fieldError
  exact (((h.bump ..).setn ..).withdraw _ _ |>.event ..).setPend _

theorem countOverride (h : KeepsOpen c s u) (t : Template) (m : Mark) : KeepsOpen c s (u.countOverride c t m) := by
  unfold State.countOverride
  split
  · exact .ite h (h.bump ..)
  · exact h

/-- The objects of the tallies lie below those of the casements (R135). -/
theorem oTal_ne_casState {n : Nat} (hn : n < 256) (c : Nat) {sub : Nat} (hs : sub ≤ 8) : oCas c 2 1 ≠ oTal n sub := by
  unfold oCas oTal ky
  split <;> omega

theorem talAfter (h : KeepsOpen c s u) {n : Nat} (hn : n < 256) : KeepsOpen c s (u.talAfter n) := by
  have hmark : KeepsOpen c s (u.talMark n) := by
    unfold State.talMark
    exact .ite (h.same rfl rfl rfl) h
  unfold State.talAfter
  exact .ite ((hmark.setnKey _ (oTal_ne_casState hn c (by decide))).event ..) hmark

theorem talDraw (h : KeepsOpen c s u) {n : Nat} (hn : n < 256) : KeepsOpen c s (u.talDraw n).2.2 := by
  have hvalue (x : Int) : KeepsOpen c s (u.setn (oTal n 0) x) := h.setnKey x (oTal_ne_casState hn c (by decide))
  unfold State.talDraw
  extract_lets
  split
  · exact h
  · split
    · exact h
    · split
      · exact (hvalue _).talAfter hn
      · split
        · exact (h.setTal ..).event ..
        · exact ((hvalue _).event ..).talAfter hn
        · exact (hvalue _).talAfter hn

theorem talCount (h : KeepsOpen c s u) (kind inst : Nat) : KeepsOpen c s (u.talCount kind inst) :=
  foldl_proj id _ _ (fun _ _ hn g => .ite (g.talDraw (List.mem_range.mp hn)) g) h

/-- A mark's template draws from tallies that the device has (R90, R129). -/
theorem drawTallies (h : KeepsOpen c s u) (m : Mark) (htal : ∀ t, m.tpl = some t → ∀ n ∈ t.sources 4, n < 256) :
    KeepsOpen c s (u.drawTallies c m).1 := by
  unfold State.drawTallies
  split
  · exact h
  next t ht =>
    split
    · exact h
    · refine foldl_proj Prod.fst _ _ (fun a n hn g => ?_) h
      dsimp only
      split
      · exact g
      · exact g.talDraw (htal t ht n hn)

theorem drawRecords (h : KeepsOpen c s u) (m : Mark) : KeepsOpen c s (u.drawRecords c m).1 := by
  unfold State.drawRecords
  split
  · exact h
  · split
    · exact h
    · refine foldl_proj Prod.fst _ _ (fun a q _ g => ?_) h
      dsimp only
      split
      · exact g
      · split
        · exact g
        · exact g.setQ ..

/-- A state reached without a change of the Compositor still holds templates that draw from tallies of the device. -/
theorem beginMark (h : KeepsOpen c s u) (m : Mark) (again : Bool) (htal : ∀ t ∈ s.comp.templates, ∀ n ∈ t.sources 4, n < 256) :
    KeepsOpen c s (u.beginMark c m again) := by
  unfold State.beginMark
  extract_lets s1
  have h1 : KeepsOpen c s s1 := h.withdraw ..
  split
  · exact (h1.setPend ..).fieldError ..
  next t ht =>
    have hmem : t ∈ s.comp.templates := h1.comp ▸ List.mem_of_find?_eq_some ht
    extract_lets s2
    have h2 : KeepsOpen c s s2 := .ite h1 (h1.countOverride ..)
    split
    extract_lets m2
    refine .ite ((h2.setPend ..).fieldError ..) (.ite ((h2.setPend ..).fieldError ..) ?_)
    have h3 : KeepsOpen c s (s2.drawTallies c m2).1 := h2.drawTallies m2 fun t' ht' => Option.some.inj ht' ▸ htal t hmem
    exact (h3.drawRecords ..).setPend _

theorem pair (h : KeepsOpen c s u) : KeepsOpen c s (u.pair c) := by
  unfold State.pair
  extract_lets x
  split
  · exact (h.setCasement (by rfl)).setPend _
  · exact h

theorem rePair (h : KeepsOpen c s u) (r : ReqEntry) (htal : ∀ t ∈ s.comp.templates, ∀ n ∈ t.sources 4, n < 256) :
    KeepsOpen c s (u.rePair c r) := by
  unfold State.rePair
  extract_lets x waits had s1 s2
  have h1 : KeepsOpen c s s1 := h.setCasement rfl
  have h2 : KeepsOpen c s s2 := h1.foldl _ _ fun _ _ g => g.pair
  refine h2.foldl _ _ fun v x g => ?_
  split
  · exact g.beginMark _ _ htal
  · exact g

/-! ## Tag, completion and refusal -/

theorem rejectTag (h : KeepsOpen c s u) (d : Nat) (key : TagKey) (a : Int) (atMargin : Bool) :
    KeepsOpen c s (u.rejectTag d key a atMargin).2 := by
  unfold State.rejectTag
  extract_lets n x rp p s1 s2
  have h1 : KeepsOpen c s s1 := h.setRej ..
  have h2 : KeepsOpen c s s2 := h.setRej ..
  split
  · exact h
  · split
    · exact h
    · split
      · exact (h.bump ..).event ..
      · split
        · exact ((h1.setn ..).bump ..).event ..
        · exact h2.setn ..

theorem complete (h : KeepsOpen c s u) (d : Nat) (m : Mark) (td tfin : Nat) : KeepsOpen c s (u.complete d m td tfin) := by
  unfold State.complete
  extract_lets s1 q d es n s2 _ s3 s4
  have h1 : KeepsOpen c s s1 := h.bump ..
  have h2 : KeepsOpen c s s2 := h1.setQ ..
  have h3 : KeepsOpen c s s3 := h2.same rfl rfl rfl
  have h4 : KeepsOpen c s s4 := h3.setnKey _ (by unfold oCas ky; omega)
  exact .ite (h1.bump ..) (.ite ((((h1.setQ ..).bump ..).bump ..).event _ _ _ _) (.ite (h4.setn ..) h4))

/-- A mark that is no part of a stitched group is refused (R10, R68, R69). -/
theorem refuse (h : KeepsOpen c s u) {m : Mark} (fails : Nat) (hm : m.stitch = none)
    (htal : ∀ t ∈ s.comp.templates, ∀ n ∈ t.sources 4, n < 256) : KeepsOpen c s (u.refuse c m fails) := by
  unfold State.refuse
  extract_lets tD vT good void s1 s2 s3 s4 m1
  have h1 : KeepsOpen c s s1 := h.foldl _ _ fun _ _ g => g.setQ ..
  have h3 : KeepsOpen c s s3 := (h1.withdraw ..).dropPend ..
  have h4 : KeepsOpen c s s4 := by
    unfold s4
    split
    · exact .ite (h3.rePair _ htal) h3
    · exact h3
  have hm1 : m1.stitch = none := by
    unfold m1
    split <;> exact hm
  have h5 : KeepsOpen c s (s4.rejectTag c m1.key m1.a).2 := h4.rejectTag ..
  simp only [hm1, State.report, Option.isSome_none, Bool.false_eq_true, false_and, if_false]
  exact ((h5.bump ..).setn ..).complete ..

/-! ## A command of R81 that waited for the decision -/

theorem sillAsk (h : KeepsOpen c s u) (k : SillKind) : KeepsOpen c s (u.sillAsk c k) := h.setCasement rfl

theorem usageFlush (h : KeepsOpen c s u) : KeepsOpen c s (u.usageFlush c) := by
  unfold State.usageFlush
  extract_lets x k s1 s2
  have h1 : KeepsOpen c s s1 := h.setCasement rfl
  have h2 : KeepsOpen c s s2 := h1.foldl _ _ fun _ _ g => g.sillAsk _
  exact .ite h2 (h2.sillAsk _)

theorem lsyncHold (h : KeepsOpen c s u) (x : Nat) : KeepsOpen c s (u.lsyncHold x) := by
  unfold State.lsyncHold
  exact .ite ((h.same (by rfl) (by rfl) (by rfl)).setn ..) h

/-- The objects of an executor are none of its casement's. -/
theorem exKey_ne_casState (c : Nat) {sub : Nat} (hs : sub < 256) : oCas c 2 1 ≠ exKey c sub := by
  unfold exKey oCas ky
  split <;> omega

theorem startProgram (h : KeepsOpen c s u) (e : Nat) : KeepsOpen c s (u.startProgram c e) := by
  unfold State.startProgram
  extract_lets lim s1 s2 lamp s3
  have h2 : KeepsOpen c s s2 := (h.lsyncHold c).setEx ..
  have h3 : KeepsOpen c s s3 := .ite (h2.same rfl rfl rfl) h2
  exact (h3.setnKey _ (exKey_ne_casState c (by decide))).setnKey _ (exKey_ne_casState c (by decide))

theorem beginPowerDown (h : KeepsOpen c s u) (target : Nat) : KeepsOpen c s (u.beginPowerDown c target) := by
  unfold State.beginPowerDown
  extract_lets s1 x running s2
  have h1 : KeepsOpen c s s1 := h.usageFlush
  have h2 : KeepsOpen c s s2 := h1.setCasement rfl
  exact .ite h2 (h2.startProgram _)

theorem takeCommand (h : KeepsOpen c s u) : KeepsOpen c s (u.takeCommand c) := by
  unfold State.takeCommand
  extract_lets x due yes target
  refine .ite h ?_
  clear_value target
  split
  · exact .ite h (h.beginPowerDown _)
  · exact h

/-! ## A measurement that a commitment ends (R228) -/

theorem measPulse (h : KeepsOpen c s u) (d : Nat) (m : Meas) : KeepsOpen c s (u.measPulse d m) := by
  unfold State.measPulse
  exact .ite h (.ite ((h.send ..).send ..) (h.send ..))

theorem sendSashes (h : KeepsOpen c s u) (kind n : Nat) (data : Nat → Bytes) : KeepsOpen c s (u.sendSashes c kind n data) := by
  unfold State.sendSashes
  extract_lets b x t s1
  have h1 : KeepsOpen c s s1 := h.setCasement rfl
  refine .ite h (h1.foldl _ _ fun v j g => ?_)
  exact .ite (g.send ..) ((g.send ..).bump ..)

theorem sendCancel (h : KeepsOpen c s u) (seq : Nat) : KeepsOpen c s (u.sendCancel c seq) := by
  unfold State.sendCancel
  exact .ite ((h.sendSashes ..).bump ..) h

theorem abandonMeasure (h : KeepsOpen c s u) : KeepsOpen c s (u.abandonMeasure c) := by
  unfold State.abandonMeasure
  extract_lets x s1 s2
  have h1 : KeepsOpen c s s1 := h.setCasement rfl
  have h2 : KeepsOpen c s s2 := .ite (h1.bump ..) h1
  split
  · extract_lets s3
    have h3 : KeepsOpen c s s3 := .ite (h2.measPulse ..) h2
    exact .ite (.ite (KeepsOpen.sendCancel (.ite (h3.send ..) h3) _) h3) h
  · exact h

end KeepsOpen

/-! # The decision of an unstitched mark (R9, R62, R68, R70) -/

/-- A commitment appends the mark to the open ones and touches no other casement (R60, R71). -/
theorem State.commitMark_opens (s : State) (c : Nat) (m : Mark) :
    (∀ k, k ≠ c → (s.commitMark c m).casOf k = s.casOf k) ∧
      ∃ w : Mark, ((s.commitMark c m).casOf c).opened = (s.casOf c).opened ++ [w] ∧ w.order = m.order ∧ w.reserve = m.reserve := by
  unfold State.commitMark
  extract_lets s1 s2 w x s3 s4 s5 s6
  have h2 : KeepsOpen c s s2 := (KeepsOpen.refl c s).abandonMeasure.dropPend m
  have h5 : KeepsOpen c s3 s5 := (((KeepsOpen.refl c s3).setn ..).bump ..).setn ..
  have hstate (k : Nat) : s6.casOf k = s5.casOf k := by
    unfold s6
    split
    · exact State.setn_casOf ..
    · rfl
  have h7 : KeepsOpen c s6 (s6.talCount 2 c) := (KeepsOpen.refl c s6).talCount ..
  refine ⟨fun k hk => ?_, w, ?_, rfl, rfl⟩
  · rw [h7.others k hk, hstate, h5.others k hk, State.casOf_setCasement, if_neg hk, h2.others k hk]
  · rw [h7.opened, hstate, h5.opened, State.casOf_setCasement_self, h2.opened]

/-- While a mark is open no command that waited is taken (R65, R81). -/
theorem State.takeCommand_opened {s : State} {c : Nat} (h : (s.casOf c).opened ≠ []) : s.takeCommand c = s := by
  unfold State.takeCommand
  exact if_pos (.inr (.inl h))

/-- A mark with its settings and its demand, as its decision in `s` finds it. -/
def State.atDecision (s : State) (c : Nat) (m : Mark) : Mark :=
  let m1 := { m with cfg := s.snapshot c s.now, tD := s.now, tdDev := s.dev }
  { m1 with reserve := s.demand c m1 }

theorem State.atDecision_stitch (s : State) (c : Nat) (m : Mark) : (s.atDecision c m).stitch = m.stitch := rfl

theorem State.decide_unstitched {s : State} {c : Nat} {m : Mark} (hm : m.stitch = none) :
    s.decide_ c m =
      if s.items c (s.atDecision c m) s.now = 0 then (s.shortage c (s.items c (s.atDecision c m) s.now)).commitMark c (s.atDecision c m)
      else (s.shortage c (s.items c (s.atDecision c m) s.now)).refuse c (s.atDecision c m) (s.items c (s.atDecision c m) s.now) := by
  unfold State.decide_
  extract_lets tD m1 m2 fails s1
  split
  next id hid => exact absurd (hm.symm.trans hid) (by simp)
  next => rfl

/-- Every item passes: the mark is opened with its demand reserved. -/
theorem State.decide_admits {s : State} {c : Nat} {m : Mark} (hm : m.stitch = none)
    (hpass : s.items c (s.atDecision c m) s.now = 0) :
    (∀ k, k ≠ c → ((s.decide_ c m).takeCommand c).casOf k = s.casOf k) ∧
      ∃ w : Mark, (((s.decide_ c m).takeCommand c).casOf c).opened = (s.casOf c).opened ++ [w] ∧ w.order = m.order ∧
        w.reserve = (s.atDecision c m).reserve := by
  have h0 := (KeepsOpen.refl c s).shortage 0
  obtain ⟨hothers, w, hopened, horder, hreserve⟩ := (s.shortage c 0).commitMark_opens c (s.atDecision c m)
  have hstay : ((s.shortage c 0).commitMark c (s.atDecision c m)).takeCommand c =
      (s.shortage c 0).commitMark c (s.atDecision c m) := State.takeCommand_opened (by rw [hopened]; simp)
  rw [State.decide_unstitched hm, hpass, if_pos rfl, hstay]
  exact ⟨fun k hk => (hothers k hk).trans (h0.others k hk), w, by rw [hopened, h0.opened], horder, hreserve⟩

/-- An item fails: no open mark changes, and with templates that draw from tallies of the device the casement keeps its state. -/
theorem State.decide_refuses {s : State} {c : Nat} {m : Mark} (hm : m.stitch = none)
    (hfail : s.items c (s.atDecision c m) s.now ≠ 0) (htal : ∀ t ∈ s.comp.templates, ∀ n ∈ t.sources 4, n < 256) :
    KeepsOpen c s ((s.decide_ c m).takeCommand c) := by
  rw [State.decide_unstitched hm, if_neg hfail]
  exact (((KeepsOpen.refl c s).shortage _).refuse _ ((s.atDecision_stitch c m).trans hm) htal).takeCommand

end Sys2Proof.Machine

namespace Sys2Proof.Machine

/-! # Admission is all or nothing: where it holds, and the state that refutes O60 -/

theorem fieldOk_tally {f : Field} {off len : Nat} {reserved : Bytes} {dataLen : Nat} {active : Nat → Bool}
    (h : fieldOk f off len reserved dataLen active = true) (hkind : f.kind = 4) : f.source < 256 := by
  simp [fieldOk, hkind] at h
  omega

/-- Validation lets in no template that draws from a tally the device does not have (R86, R90). -/
theorem readTemplate_tallies {img : Bytes} {number length : Nat} {sets : List GlyphSet} {active : Nat → Bool} {t : Template}
    (h : readTemplate img number length sets active = (0, some t)) : ∀ n ∈ t.sources 4, n < 256 := by
  unfold readTemplate at h
  extract_lets g n width fo dof dl no cached raw fs names at h
  split_ifs at h with _ _ _ hfields
  all_goals cases h
  intro k hk
  simp only [Template.sources, List.mem_eraseDups, List.mem_map, List.mem_filter, decide_eq_true_eq] at hk
  obtain ⟨f, ⟨hf, hkind⟩, rfl⟩ := hk
  obtain ⟨r, hr, rfl⟩ := List.mem_map.mp hf
  obtain ⟨hall, -⟩ := not_or.mp hfields
  rw [Bool.not_eq_true, Bool.not_eq_false', List.all_eq_true] at hall
  exact fieldOk_tally (hall r hr) hkind

/-- O60's claim wherever the templates in force draw from tallies that the device has, as every validated template does: a mark whose items
all pass is opened, one that fails an item changes no open mark and no casement's state. -/
theorem decisionPoint_allOrNothing (t : Time) (s0 : State) (c : Fin 48) (m : Mark) :
    let s := ((s0.tick t).applyChanges t).closesFirst c t
    let m2 := s.atDecision c m
    (∀ tpl ∈ s.comp.templates, ∀ n ∈ tpl.sources 4, n < 256) →
    (s.casOf c).pend.find? (fun m => m.vote.isNone) = some m → s.reached c m = true → m.stitch = none →
    ∃ u, exec (.decisionPoint t c) s0 = .next u ∧ (∀ k : Nat, k ≠ c.val → u.casOf k = s.casOf k) ∧
      (s.items c m2 s.now = 0 → ∃ w : Mark, (u.casOf c).opened = (s.casOf c).opened ++ [w] ∧ w.order = m.order ∧ w.reserve = m2.reserve) ∧
      (s.items c m2 s.now ≠ 0 → (u.casOf c).opened = (s.casOf c).opened ∧ u.casState c = s.casState c) := by
  intro s m2 htal hm hr hstitch
  refine ⟨_, execDecisionPoint_reached hm hr, ?_⟩
  by_cases hpass : s.items c m2 s.now = 0
  · obtain ⟨hothers, hopen⟩ := State.decide_admits hstitch hpass
    exact ⟨hothers, fun _ => hopen, fun hfail => absurd hpass hfail⟩
  · have hkeep := State.decide_refuses hstitch hpass htal
    exact ⟨hkeep.others, fun h => absurd h hpass, fun _ => ⟨hkeep.opened, hkeep.state⟩⟩

theorem decisionPoint_refused_witness : ∃ (t : Time) (s0 : State) (c : Fin 48) (m : Mark),
    let s := ((s0.tick t).applyChanges t).closesFirst c t
    (∀ tpl ∈ s.comp.templates, ∀ n ∈ tpl.sources 4, n < 256) ∧
    (s.casOf c).pend.find? (fun m => m.vote.isNone) = some m ∧ s.reached c m = true ∧ m.stitch = none ∧
    s.items c (s.atDecision c m) s.now ≠ 0 :=
  ⟨0, { State.reset with cas := [(0, { Cas.init with pend := [Mark.init] })] }, 0, Mark.init, by decide⟩

/-- A composed mark of one line. -/
def composedMark : Mark := { Mark.init with tpl := some ⟨0, 0, 0, 1, 1, 0, [], []⟩, prepared := true, lines := [[]] }

/-- Casement 0 in ARMED in MARKING with its head in order, on a valid line axis, with a composed mark at its decision point. -/
def admittingState : State :=
  { State.reset with
    obj := [(ky 0x2100 2, .num 5), (oCas 0 2 1, .num 3), (oCas 0 5 2, .num 1)]
    lax := [(0, { Lax.init with kind := 4 })]
    cas := [(0, { Cas.init with recOk := true, cthT := some 0, cvsT := some 0, pend := [composedMark] })] }

theorem decisionPoint_admitted_witness : ∃ (t : Time) (s0 : State) (c : Fin 48) (m : Mark),
    let s := ((s0.tick t).applyChanges t).closesFirst c t
    (∀ tpl ∈ s.comp.templates, ∀ n ∈ tpl.sources 4, n < 256) ∧
    (s.casOf c).pend.find? (fun m => m.vote.isNone) = some m ∧ s.reached c m = true ∧ m.stitch = none ∧
    s.items c (s.atDecision c m) s.now = 0 :=
  ⟨0, admittingState, 0, composedMark, by decide +kernel⟩

/-- A template, loaded though R90 has no tally beyond 255, whose one field draws from tally 6404. -/
def strayTemplate : Template := ⟨0, 0, 0, 1, 1, 0, [⟨4, 0, 0, 1, 0, 0, 1, 1, 6404, [], 0, 0⟩], []⟩

/-- The value of tally 6404 would stand in the object that holds the state of casement 0. -/
theorem oTal_stray : oTal 6404 0 = oCas 0 2 1 := rfl

/-- Entry `n` of a marking-request queue, for template 0. -/
def requestEntry (n : Nat) : ReqEntry := ⟨16, n, some 0, n, 0, 0, none, 0⟩

/-- An anchor with entry `n` paired to it; `comp` is its composition order. -/
def requestMark (n : Nat) (comp : Option Nat) : Mark :=
  { Mark.init with order := n, needReq := true, req := some (requestEntry n), comp := comp }

/-- Casement 0 in ARMED with two paired anchors, the first at its decision point less than 2 us after its entry, the second composing. -/
def strayState : State :=
  { State.reset with
    obj := [(oCas 0 0 1, .num 1), (oCas 0 2 1, .num 3)]
    force := [(oCas 0 3 1, .num 1)]
    cas := [(0, { Cas.init with pend := [requestMark 1 none, requestMark 2 (some 1)] })]
    comp := { State.reset.comp with templates := [strayTemplate], sets := [⟨0, 0, 0, 0, 0, 0, 0, 0, 0, 0, 0, [], []⟩] } }

/-- What R14 takes ahead of the decision leaves casement 0 armed, its first anchor to be decided. -/
def strayDecision : State := ((strayState.tick 0).applyChanges 0).closesFirst (0 : Fin 48) 0

theorem strayDecision_oldest :
    (strayDecision.casOf (0 : Fin 48)).pend.find? (fun m => m.vote.isNone) = some (requestMark 1 none) := by decide

theorem strayDecision_reached : strayDecision.reached (0 : Fin 48) (requestMark 1 none) = true := by decide

theorem strayDecision_fails :
    strayDecision.items (0 : Fin 48) (strayDecision.atDecision (0 : Fin 48) (requestMark 1 none)) strayDecision.now ≠ 0 := by decide

theorem strayDecision_armed : strayDecision.casState (0 : Fin 48) = 3 := by decide

theorem strayDecision_decided :
    ((strayDecision.decide_ (0 : Fin 48) (requestMark 1 none)).takeCommand (0 : Fin 48)).casState (0 : Fin 48) = 0 := by decide

/-- Refutes O60: the statement lets a template in force name a tally that does not exist. In `strayState` the first anchor fails for its late
entry, which passes to the second (R54); that mark begins again and draws from tally 6404, and the draw takes casement 0 from ARMED to
ABSENT. `decisionPoint_allOrNothing` is the claim without such templates, and `readTemplate_tallies` says that validation lets none in. -/
theorem not_admissionAllOrNothing : ¬ Obligations.AdmissionAllOrNothing := by
  unfold Obligations.AdmissionAllOrNothing
  intro h
  obtain ⟨u, hu, _, _, hrefused⟩ := h 0 strayState 0 (requestMark 1 none) strayDecision_oldest strayDecision_reached rfl
  obtain ⟨_, hstays⟩ := hrefused strayDecision_fails
  obtain rfl := Host.Outcome.next.inj ((execDecisionPoint_reached strayDecision_oldest strayDecision_reached).symm.trans hu)
  have harmed := hstays.trans strayDecision_armed
  exact absurd (strayDecision_decided.symm.trans harmed) (by decide)

end Sys2Proof.Machine

namespace Sys2Proof.Machine

/-! # Why a dictionary write is refused or waits (R18, R329 to R332) -/

/-- A mode takes no write of an object whose row lists no mode. -/
theorem modeTakes_acc_ne_zero {mode acc : Nat} (h : modeTakes mode acc = true) : acc ≠ 0 := by
  rintro rfl
  simp [modeTakes, bit] at h

/-- In a mode that its row lists, a write is not refused as one of a read-only object. -/
theorem State.not_readOnly_of_modeTakes {s : State} {acc : Nat} (hmode : modeTakes s.modeN acc = true) :
    ¬ (s.modeN ≠ 7 ∧ acc = 0) := fun h => modeTakes_acc_ne_zero hmode h.2

theorem State.writeParse_length {s : State} {idx sub : Nat} {b : Bytes} {x : Nat × Nat × Row} (hx : findRow idx sub = some x)
    (hmode : modeTakes s.modeN x.2.2.acc = true) (hv : decodeVal x.2.2.ty b = none) :
    s.writeParse idx sub b = .error .length := by
  rw [State.writeParse, hx]
  simp only [if_neg (State.not_readOnly_of_modeTakes hmode), hmode, hv, Bool.not_true, Bool.false_eq_true, if_false]

/-- Past the checks of access, mode and length, a write is judged by its value. -/
theorem State.writeParse_decoded {s : State} {idx sub : Nat} {b : Bytes} {x : Nat × Nat × Row} {v : Val}
    (hx : findRow idx sub = some x) (hmode : modeTakes s.modeN x.2.2.acc = true) (hv : decodeVal x.2.2.ty b = some v) :
    s.writeParse idx sub b =
      if namesQueue (ky idx sub) ∧ 0 ≤ v.int ∧ v.int < 16 ∧ !rowRange x.2.2 v then .error .reservedQueue
      else if !rowRange x.2.2 v then .error .range
      else .ok (x.1, x.2.1, x.2.2, v) := by
  rw [State.writeParse, hx]
  simp only [if_neg (State.not_readOnly_of_modeTakes hmode), hmode, hv, Bool.not_true, Bool.false_eq_true, if_false]

theorem State.writeParse_unknown {s : State} {idx sub : Nat} (b : Bytes) (hx : findRow idx sub = none) :
    s.writeParse idx sub b = .error (if hasIndex idx then .absentSub else .absent) := by
  rw [State.writeParse, hx]

theorem State.writeParse_readOnly {s : State} {idx sub : Nat} {x : Nat × Nat × Row} (b : Bytes)
    (hx : findRow idx sub = some x) (hsafe : s.modeN ≠ 7) (hacc : x.2.2.acc = 0) :
    s.writeParse idx sub b = .error .readOnly := by
  rw [State.writeParse, hx]
  exact if_pos ⟨hsafe, hacc⟩

/-- In OFF and BOOT the dictionary is not served (R332). -/
theorem State.dictWrite_unserved {s : State} {p : Path} (idx sub : Nat) (b : Bytes) (hmode : s.modeN ≤ 1) (hp : p ≠ .bar0) :
    s.dictWrite p idx sub b = s.answer .none := by
  cases p with
  | bar0 => exact absurd rfl hp
  | _ => exact if_pos (.inl hmode)

/-- Over a firmware restart a write joins those that wait (R332). -/
theorem State.dictWrite_held {s : State} {p : Path} (idx sub : Nat) (b : Bytes) (hmode : 2 ≤ s.modeN) (hdeaf : s.deaf = true)
    (hp : p ≠ .bar0) (husdo : ∀ i, p = .usdo i → s.usdoServed i = true) :
    s.dictWrite p idx sub b =
      { s with net := { s.net with held := s.net.held ++ [Held.write p idx sub b] } }.answer .waits := by
  have hmode' : ¬ s.modeN ≤ 1 := by omega
  cases p with
  | bar0 => exact absurd rfl hp
  | usdo i => simp [State.dictWrite, hmode', hdeaf, husdo i rfl]
  | _ => simp [State.dictWrite, hmode', hdeaf]

/-- Settles O51: the checks of the row one after the other, then the paths and times at which no check is made. -/
theorem writeRefusals : Obligations.WriteRefusals := by
  unfold Obligations.WriteRefusals
  refine ⟨?refused, ?unknown, ?readOnly, ?length, ?queue, ?range, ?unserved, fun _ _ _ _ _ => rfl, ?held⟩
  case refused =>
    intro t s0 p idx sub b r s hp hr
    exact congrArg Host.Outcome.next (State.dictWrite_refused hp hr)
  case unknown => exact fun s idx sub b hx => State.writeParse_unknown b hx
  case readOnly => exact fun s idx sub b x hx hsafe hacc => State.writeParse_readOnly b hx hsafe hacc
  case length => exact fun s idx sub b x hx hmode hv => State.writeParse_length hx hmode hv
  case queue =>
    intro s idx sub b x v hx hmode hv hq hlo hhi hrange
    rw [State.writeParse_decoded hx hmode hv]
    exact if_pos ⟨hq, hlo, hhi, by rw [hrange]; rfl⟩
  case range =>
    intro s idx sub b x v hx hmode hv hq hrange
    rw [State.writeParse_decoded hx hmode hv, if_neg (fun ⟨hname, hlo, hhi, _⟩ => hq ⟨hname, hlo, hhi⟩)]
    exact if_pos (by rw [hrange]; rfl)
  case unserved =>
    intro t s0 p idx sub b s hmode hp
    exact congrArg Host.Outcome.next (State.dictWrite_unserved _ _ b hmode hp)
  case held =>
    intro t s0 p idx sub b s hmode hdeaf hp husdo
    exact congrArg Host.Outcome.next (State.dictWrite_held _ _ b hmode hdeaf hp husdo)

end Sys2Proof.Machine

namespace Sys2Proof.Machine

/-! # Bits of a status word, and two writes at one key -/

theorem bit_eq_testBit (x i : Nat) : bit x i = x.testBit i := by
  rw [bit, Nat.testBit_eq_decide_div_mod_eq, Nat.shiftRight_eq_div_pow]
  exact beq_eq_decide _ _

/-- Taking `2 ^ i` from a number whose bit `i` is set clears that bit and no other. -/
theorem testBit_sub_two_pow {x i : Nat} (h : x.testBit i = true) (j : Nat) :
    (x - 2 ^ i).testBit j = if j = i then false else x.testBit j := by
  obtain ⟨m, hm⟩ : ∃ m, x / 2 ^ i = 2 * m + 1 := by
    rw [Nat.testBit_eq_decide_div_mod_eq, decide_eq_true_iff] at h
    exact ⟨x / 2 ^ i / 2, by omega⟩
  have hlow : x % 2 ^ i < 2 ^ i := Nat.mod_lt _ (Nat.two_pow_pos i)
  have hx : x = 2 ^ i * (2 * m + 1) + x % 2 ^ i := by rw [← hm]; exact (Nat.div_add_mod x _).symm
  have hsub : x - 2 ^ i = 2 ^ i * (2 * m) + x % 2 ^ i := by rw [Nat.mul_add] at hx; omega
  rw [hsub, Nat.testBit_two_pow_mul_add _ hlow]
  conv_rhs => rw [hx, Nat.testBit_two_pow_mul_add _ hlow]
  rcases lt_trichotomy j i with hlt | rfl | hgt
  · simp [hlt, hlt.ne]
  · simp
  · obtain ⟨n, hn⟩ : ∃ n, j - i = n + 1 := ⟨j - i - 1, by omega⟩
    rw [if_neg (by omega), if_neg (by omega), if_neg (by omega), hn, Nat.testBit_succ, Nat.testBit_succ]
    congr 1
    omega

/-- `putBit` sets or clears its own bit and leaves the others. -/
theorem bit_putBit (x i j : Nat) (b : Bool) : bit (putBit x i b) j = if j = i then b else bit x j := by
  simp only [bit_eq_testBit, putBit]
  cases b with
  | true =>
    rw [if_pos rfl, Nat.testBit_or, Nat.testBit_two_pow]
    by_cases hj : j = i
    · simp [hj]
    · simp [hj, Ne.symm hj]
  | false =>
    by_cases hi : x.testBit i
    · simpa [hi] using testBit_sub_two_pow hi j
    · by_cases hj : j = i
      · simp [hj, hi]
      · simp [hj, hi]

theorem tdel_tinsert {α : Type} (m : Tbl α) (k : Nat) (v : α) : tdel (tinsert m k v) k = tdel m k := by
  induction m with
  | nil => simp [tinsert, tdel]
  | cons p m ih =>
    by_cases hk : k < p.1
    · simp [tinsert, hk, tdel]
    · have hcons : tinsert (p :: m) k v = p :: tinsert m k v := by simp [tinsert, hk]
      rw [hcons]
      simp only [tdel, List.filter_cons] at ih ⊢
      rw [ih]

theorem tdel_tset {α : Type} [DecidableEq α] (d : Nat → α) (m : Tbl α) (k : Nat) (v : α) : tdel (tset d m k v) k = tdel m k := by
  have hdel : tdel (tdel m k) k = tdel m k := by simp [tdel]
  unfold tset
  split
  · exact hdel
  · rw [tdel_tinsert, hdel]

/-- Of two writes at one key the second stays. -/
theorem tset_tset {α : Type} [DecidableEq α] (d : Nat → α) (m : Tbl α) (k : Nat) (v w : α) :
    tset d (tset d m k v) k w = tset d m k w := by
  rw [tset, tdel_tset]
  rfl

theorem State.setGin_setGin (s : State) (n : Nat) (x y : Gin) : (s.setGin n x).setGin n y = s.setGin n y :=
  congrArg (fun g => { s with gin := g }) (tset_tset ..)

end Sys2Proof.Machine

namespace Sys2Proof.Machine

/-! # A fault leaves the encoders alone (R436, R437)

Between the latching of an occurrence and the reactions of its class no operation touches the table of encoders. -/

@[simp] theorem State.emcyNode_enc (s : State) (i code : Nat) (data : Bytes) : (s.emcyNode i code data).enc = s.enc := by
  unfold State.emcyNode
  extract_lets n
  split_ifs <;> rfl

@[simp] theorem State.pushError_enc (s : State) (code : Nat) : (s.pushError code).enc = s.enc :=
  List.foldrRecOn (motive := fun u : State => u.enc = s.enc) _ _ rfl fun _ hu _ _ => hu

@[simp] theorem State.emcy_enc (s : State) (code : Nat) (data : Bytes) : (s.emcy code data).enc = s.enc := by
  simp [State.emcy]

@[simp] theorem State.dropSafe_enc (s : State) : s.dropSafe.enc = s.enc := by
  unfold State.dropSafe
  split
  · rw [State.event_enc]
  · rfl

@[simp] theorem State.firstFault_enc (s : State) (b : Nat) : (s.firstFault b).enc = s.enc := by
  unfold State.firstFault
  split_ifs <;> rfl

@[simp] theorem State.noteFault_enc (s : State) (b syn : Nat) (was : Bool) : (s.noteFault b syn was).enc = s.enc := by
  unfold State.noteFault
  extract_lets dev lower s1 s2
  have h1 : s1.enc = s.enc := by unfold s1; split <;> rfl
  have h2 : s2.enc = s1.enc := by unfold s2; split <;> rfl
  exact h2.trans h1

@[simp] theorem State.latchFault_enc (s : State) (b cause inst detail : Nat) (inj : Bool) (cls : Nat) :
    (s.latchFault b cause inst detail inj cls).enc = s.enc := by
  unfold State.latchFault
  extract_lets syn was s1 s2 s3
  have h1 : s1.enc = s.enc := (State.noteFault_enc ..).trans (s.firstFault_enc b)
  have h2 : s2.enc = s.enc := by
    unfold s2
    split
    · rw [State.event_enc, h1]
    · exact h1
  split
  · exact h2
  · rw [State.emcy_enc]
    exact h2

@[simp] theorem State.stopPulses_enc (s : State) (c : Nat) : (s.stopPulses c).enc = s.enc := by
  unfold State.stopPulses
  extract_lets x hit s1
  split <;> rfl

@[simp] theorem State.casFault_enc (s : State) (c cause : Nat) : (s.casFault c cause).enc = s.enc := by
  unfold State.casFault
  split
  · rfl
  · rw [State.setn_enc, State.setCas, State.setn_enc, State.stopPulses_enc]

@[simp] theorem State.casStop_enc (s : State) (b c : Nat) : (s.casStop b c).enc = s.enc := by
  unfold State.casStop
  extract_lets s1
  have h1 : s1.enc = s.enc := s.casFault_enc c 1
  split <;> exact h1

@[simp] theorem State.putAx_enc (s : State) (a : Nat) (x : Axis) : (s.putAx a x).enc = s.enc := by
  unfold State.putAx
  split <;> rfl

@[simp] theorem State.rampFaulted_enc (s : State) (a : Nat) : (s.rampFaulted a).enc = s.enc := by
  simp [State.rampFaulted, State.setAxState]

@[simp] theorem State.axStop_enc (s : State) (a why : Nat) : (s.axStop a why).enc = s.enc := by
  unfold State.axStop
  extract_lets x
  split
  · rfl
  · split <;> rfl
  · split
    · exact s.rampFaulted_enc a
    · rfl
  · rfl

@[simp] theorem State.lsyncHold_enc (s : State) (x : Nat) : (s.lsyncHold x).enc = s.enc := by
  unfold State.lsyncHold
  split <;> rfl

@[simp] theorem State.startProgram_enc (s : State) (x e : Nat) : (s.startProgram x e).enc = s.enc := by
  unfold State.startProgram
  extract_lets lim s1 s2 lamp s3
  have h3 : s3.enc = s2.enc := by unfold s3; split <;> rfl
  exact h3.trans (s.lsyncHold_enc x)

@[simp] theorem State.hwShutdown_enc (s : State) : s.hwShutdown.enc = s.enc := by
  unfold State.hwShutdown
  split
  · rfl
  · exact s.startProgram_enc ..

@[simp] theorem State.enterMode_enc (s : State) (m : Nat) : (s.enterMode m).enc = s.enc := by
  unfold State.enterMode
  rw [State.event_enc]
  rfl

@[simp] theorem State.enterSafe_enc (s : State) : s.enterSafe.enc = s.enc := by
  unfold State.enterSafe
  split
  · refine List.foldlRecOn (motive := fun u : State => u.enc = s.enc) _ _ ?start fun u hu a _ => ?stop
    case start => rw [State.hwShutdown_enc, State.enterMode_enc]
    case stop =>
      split
      · exact (u.axStop_enc a 3).trans hu
      · exact hu
  · rfl

@[simp] theorem State.fault_enc (s : State) (b cause inst detail : Nat) : (s.fault b cause inst detail).enc = s.enc := by
  unfold State.fault
  split
  · rfl
  split
  extract_lets inj f1 s1 f2 s2 s3 s4
  have h2 : s2.enc = s.enc := by unfold s2; split <;> rfl
  have h3 : s3.enc = s.enc := (s2.latchFault_enc ..).trans h2
  have h4 : s4.enc = s.enc := by
    unfold s4
    split
    · exact s3.dropSafe_enc.trans h3
    · exact h3
  clear_value s4
  split
  · exact (s4.casStop_enc ..).trans h4
  · exact (s4.axStop_enc ..).trans h4
  · exact s4.enterSafe_enc.trans h4
  · exact h4

end Sys2Proof.Machine

namespace Sys2Proof.Machine

/-! # Encoder counts (R21, R22, R29, R31, R45)

A count moves the position of its encoder and its record; what follows it, divided pulses and line axes, touches neither. -/

/-- The encoders' records and the position of encoder `e` are those of `s`. -/
structure KeepsCount (e : Nat) (s u : State) : Prop where
  enc : u.enc = s.enc
  pos : u.num (oEnc e 0x0A) = s.num (oEnc e 0x0A)

namespace KeepsCount

variable {e : Nat} {s u : State}

theorem refl (e : Nat) (s : State) : KeepsCount e s s := ⟨rfl, rfl⟩

/-- A change of neither the encoders nor the objects. -/
theorem same {v : State} (h : KeepsCount e s u) (henc : v.enc = u.enc) (hobj : v.obj = u.obj) : KeepsCount e s v where
  enc := henc.trans h.enc
  pos := by rw [State.num, State.val, hobj]; exact h.pos

theorem eventAt (h : KeepsCount e s u) (d : Int) (src cause inst : Nat) : KeepsCount e s (u.eventAt d src cause inst) := by
  obtain ⟨host, hu⟩ := u.eventAt_host_only d src cause inst []
  rw [hu]
  exact h.same rfl rfl

theorem setPls (h : KeepsCount e s u) (n : Nat) (x : Pls) : KeepsCount e s (u.setPls n x) := h.same rfl rfl

/-- The count of pulses that an output lost is no position. -/
theorem bumpPls (h : KeepsCount e s u) (n : Nat) : KeepsCount e s (u.bump (oPls n 5)) where
  enc := h.enc
  pos := (State.num_setn_ne u _ (by unfold oEnc oPls ky; omega)).trans h.pos

theorem plsCount (h : KeepsCount e s u) (n : Nat) (fwd : Bool) : KeepsCount e s (u.plsCount n fwd) := by
  unfold State.plsCount
  extract_lets x N M a full drop s1 s2
  have hdrop {v : State} (g : KeepsCount e s v) : KeepsCount e s (drop v) := (g.bumpPls n).eventAt ..
  have h1 : KeepsCount e s s1 := h.setPls ..
  have h2 : KeepsCount e s s2 := h.setPls ..
  split_ifs
  · exact hdrop h1
  · exact h1
  · exact hdrop h2
  · exact h2
  · exact h.setPls ..

theorem ginTimers (h : KeepsCount e s u) (k : Nat) (t : Time) : KeepsCount e s (u.ginTimers k t) := by
  unfold State.ginTimers
  refine List.foldlRecOn _ _ h fun v hv n _ => ?_
  extract_lets g
  by_cases hg : g.active = true ∧ v.nat (oGin n 3) = k
  · rw [if_pos hg]
    exact hv.same rfl rfl
  · rw [if_neg hg]
    exact hv

theorem laxInc (h : KeepsCount e s u) (k : Nat) (d : Int) (ts : Time) : KeepsCount e s (u.laxInc k d ts) := by
  unfold State.laxInc
  extract_lets s1
  have h1 : KeepsCount e s s1 := by
    unfold s1
    split
    · exact h.ginTimers ..
    · exact h
  exact h1.same rfl rfl

theorem laxIncs (h : KeepsCount e s u) (kind inst : Nat) (d : Int) (ts : Time) : KeepsCount e s (u.laxIncs kind inst d ts) := by
  unfold State.laxIncs
  refine List.foldlRecOn _ _ h fun v hv k _ => ?_
  split
  · exact hv.laxInc ..
  · exact hv

end KeepsCount

/-- A count moves the position by its increment, and of the status it gives DIR anew. -/
theorem State.encCount_counts (s : State) (e : Nat) (d : Int) (ts : Time) :
    (s.encCount e d ts).num (oEnc e 0x0A) = wrapS 64 (s.num (oEnc e 0x0A) + d) ∧
      ∃ dir, ((s.encCount e d ts).encOf e).st = putBit (s.encOf e).st 1 dir := by
  unfold State.encCount
  extract_lets x pos s1
  split
  next dir ext ch _ =>
  extract_lets s2 s3 s4
  have h3 : KeepsCount e s2 s3 := by
    unfold s3
    split
    · exact (KeepsCount.refl e s2).eventAt ..
    · exact .refl e s2
  have h4 : KeepsCount e s2 s4 := by
    refine List.foldlRecOn _ _ h3 fun v hv n _ => ?_
    split
    · exact List.foldlRecOn _ _ hv fun w hw _ _ => hw.plsCount n _
    · exact hv
  have hkeep : KeepsCount e s2 (s4.laxIncs 1 e d ts) := h4.laxIncs 1 e d ts
  have hpos : s2.num (oEnc e 0x0A) = pos := s.num_setn_self ..
  have hst : (s2.encOf e).st = putBit x.st 1 dir := congrArg Enc.st (s1.encOf_setEnc_self ..)
  refine ⟨hkeep.pos.trans hpos, dir, ?_⟩
  rw [State.encOf, hkeep.enc]
  exact hst

/-- OVERSPEED stands after its fault, whether it was set before or the fault has set it. -/
theorem State.encFault_overspeed (s : State) (e : Nat) : bit ((s.encFault e 7).encOf e).st 7 = true := by
  unfold State.encFault
  extract_lets x c s1 s2
  split
  · assumption
  · have henc : s2.enc = (s.setEnc e { x with st := putBit x.st 7 true }).enc := (s1.fault_enc ..).trans (State.event_enc ..)
    rw [if_pos rfl, State.encOf, henc]
    change bit ((s.setEnc e { x with st := putBit x.st 7 true }).encOf e).st 7 = true
    rw [State.encOf_setEnc_self, bit_putBit, if_pos rfl]

/-! # An edge in incremental mode (R21, R22) -/

/-- An edge at `ts` comes less than 16 ns after the one before. -/
def Enc.close (x : Enc) (ts : Time) : Bool :=
  match x.last with
  | some l => decide (ts < l + nsT 16)
  | none => false

theorem Enc.close_eq_true {x : Enc} {ts l : Time} (hl : x.last = some l) (h : ts < l + nsT 16) : x.close ts = true := by
  rw [Enc.close, hl]
  exact decide_eq_true h

theorem Enc.close_eq_false {x : Enc} {ts : Time} (h : ∀ l, x.last = some l → l + nsT 16 ≤ ts) : x.close ts = false := by
  rw [Enc.close]
  split
  next l hl => exact decide_eq_false (Nat.not_lt.mpr (h l hl))
  next => rfl

/-- The state with the levels and the time of an edge, after OVERSPEED where it is close. -/
def State.edgeTaken (s : State) (e : Nat) (a b : Bool) (ts : Time) : State :=
  let x := s.encOf e
  let s' := s.setEnc e { x with a := a, b := b, last := some ts }
  if x.close ts then s'.encFault e 7 else s'

/-- What an accepted edge does: a step of the Gray code counts by one in its direction, two steps at once are an illegal transition. -/
theorem exec_encoderEdge {t : Time} {s0 : State} {e : Fin 16} {a b : Bool} (hkind : (s0.tick t).nat (oEnc e 1) = 1)
    (hmove : ¬(((s0.tick t).encOf e).a = a ∧ ((s0.tick t).encOf e).b = b)) :
    exec (.encoderEdge t e a b) s0 =
      (let u := (s0.tick t).edgeTaken e a b (edgeTime t)
       let d := (quad a b + 4 - quad ((s0.tick t).encOf e).a ((s0.tick t).encOf e).b) % 4
       let sg : Int := if d = 1 then 1 else -1
       if d = 2 then .next (u.encFault e 6)
       else .next (u.encCount e (if u.nat (oEnc e 2) = 1 then -sg else sg) (edgeTime t))) := by
  have hacts : ¬((s0.tick t).nat (oEnc e 1) ≠ 1 ∨ (((s0.tick t).encOf e).a = a ∧ ((s0.tick t).encOf e).b = b)) :=
    not_or.mpr ⟨not_not.mpr hkind, hmove⟩
  exact if_neg hacts

theorem State.edgeTaken_apart {s : State} {e : Nat} (a b : Bool) {ts : Time}
    (h : ∀ l, (s.encOf e).last = some l → l + nsT 16 ≤ ts) :
    s.edgeTaken e a b ts = s.setEnc e { s.encOf e with a := a, b := b, last := some ts } := by
  rw [State.edgeTaken, Enc.close_eq_false h]
  rfl

theorem State.edgeTaken_close {s : State} {e : Nat} (a b : Bool) {ts l : Time} (hl : (s.encOf e).last = some l)
    (h : ts < l + nsT 16) :
    s.edgeTaken e a b ts = (s.setEnc e { s.encOf e with a := a, b := b, last := some ts }).encFault e 7 := by
  rw [State.edgeTaken, Enc.close_eq_true hl h]
  rfl

/-- Settles O59: the edge is counted behind OVERSPEED, which a fault leaves set, and a count touches DIR alone of the status. -/
theorem closeEdges : Obligations.CloseEdges := by
  unfold Obligations.CloseEdges
  refine ⟨?edge, fun s e => s.encFault_overspeed e, fun s e d ts => ?count⟩
  case edge =>
    intro t s0 e a b l s x d u sg hkind hmove hl hclose hd
    rw [exec_encoderEdge hkind hmove, State.edgeTaken_close a b hl hclose]
    exact if_neg hd
  case count =>
    obtain ⟨hpos, dir, hst⟩ := s.encCount_counts e d ts
    exact ⟨hpos, by rw [hst, bit_putBit]; rfl⟩

end Sys2Proof.Machine

namespace Sys2Proof.Machine

/-! # Encoder commands (R21 to R28, R48) -/

/-- A sample in sine/cosine mode without auto-tracking: the change of angle is counted behind OVERSPEED and AMPLITUDE. -/
theorem exec_sincosSample {t : Time} {s0 : State} {e : Fin 16} {sn cs : Int} (hkind : (s0.tick t).nat (oEnc e 1) = 2)
    (hauto : (s0.tick t).nat (oEnc e 9) = 0) (hknown : ((s0.tick t).encOf e).angKnown = true) :
    exec (.sincosSample t e sn cs) s0 = .next (
      let s := s0.tick t
      let x := s.encOf e
      let s1 := s.encCal e 0x32 * (sn - s.encCal e 0x30)
      let c1 := s.encCal e 0x33 * (cs - s.encCal e 0x31)
      let c2 := quadratureFix s1 c1 (s.encCal e 0x34)
      let ang := encAngle s1 c2
      let d := (ang - x.ang + 2048) % 4096 - 2048
      let mag2 := s1 * s1 + c2 * c2
      let low := decide (100 * mag2 < 201326592 * 201326592 ∨ 1006632960 * 1006632960 < 100 * mag2)
      let u := s.setEnc e { x with ang := ang, angKnown := true, periods := (s.num (oEnc e 0x0A) + d - ang) / 4096, low := low }
      let u := if d > 512 ∨ d < -512 then u.encFault e 7 else u
      let u := if low then u.encFault e 5 else u
      if d = 0 then u else u.encCount e d t) := by
  change execSincosSample t e sn cs s0 = _
  rw [execSincosSample, if_neg (not_not.mpr hkind)]
  simp only [hauto, hknown, if_true, if_neg (show ¬ (0 : Nat) = 1 by decide), zero_mul, add_zero, sub_zero, true_and]
  rfl

/-- The zero offset of no axis is to be set at a Z edge: the edge captures the position and its time (R26). -/
theorem exec_index {t : Time} {s0 : State} {e : Fin 16} (hkind : (s0.tick t).nat (oEnc e 1) = 2)
    (haxes : ∀ a : Nat, a < 16 → (s0.tick t).frcN (oAx a 6 5) ≠ 1) :
    exec (.index t e) s0 = .next (
      let s := s0.tick t
      ((s.setn (oEnc e 0x0B) (s.num (oEnc e 0x0A))).setn (oEnc e 0x0C) (s.devOf t)).setEnc e
        { s.encOf e with st := putBit (s.encOf e).st 8 true }) := by
  change execIndex t e s0 = _
  have hacts : ¬((s0.tick t).nat (oEnc e 1) = 0 ∨ ((s0.tick t).nat (oEnc e 1) = 1 ∧ (s0.tick t).nat (oEnc e 8) = 1 ∧
      !(((s0.tick t).encOf e).a && ((s0.tick t).encOf e).b))) := by
    rw [hkind]
    simp
  rw [execIndex, if_neg hacts]
  refine congrArg Host.Outcome.next (List.foldlRecOn (motive := fun u : State => u = _) _ _ rfl fun u hu a ha => ?_)
  subst hu
  exact if_neg fun ⟨_, _, hset⟩ => haxes a (List.mem_range.mp ha) hset

theorem exec_wireCheckExpiry {t : Time} {s0 : State} {e : Fin 16} {pair : WirePair} (hkind : (s0.tick t).nat (oEnc e 1) ≠ 0) :
    exec (.wireCheckExpiry t e pair) s0 = .next ((s0.tick t).encFault e (match pair with
      | .a => 2
      | .b => 3
      | .z => 4)) := by
  cases pair <;> exact if_neg hkind

/-- With no condition still present the clear raises nothing again (R28). -/
theorem exec_encStatusClear (t : Time) (s0 : State) (e : Fin 16) (v : BitVec 32) :
    exec (.encStatusClear t e v 0) s0 = .next (
      let s := s0.tick t
      s.setEnc e { s.encOf e with
        st := [2, 3, 4, 5, 6, 7, 8].foldl (fun st i => if v.getLsbD i then putBit st i false else st) (s.encOf e).st }) := by
  change execEncStatusClear t e v 0 s0 = _
  rw [execEncStatusClear]
  refine congrArg Host.Outcome.next (List.foldl_fixed' (fun i => ?_) _)
  exact if_neg (by simp)

/-- Settles O1, command by command: each hypothesis is the condition under which its command acts. -/
theorem encoderCommands : Obligations.EncoderCommands := by
  unfold Obligations.EncoderCommands
  refine ⟨?counts, ?illegal, ?sample, ?index, ?wire, ?track, fun t s0 e v => exec_encStatusClear t s0 e v⟩
  case counts =>
    intro t s0 e a b s x d sg hkind hmove hapart hd
    rw [exec_encoderEdge hkind hmove, State.edgeTaken_apart a b hapart]
    exact if_neg hd
  case illegal =>
    intro t s0 e a b s x hkind hmove hapart hd
    rw [exec_encoderEdge hkind hmove, State.edgeTaken_apart a b hapart]
    exact if_pos hd
  case sample =>
    intro t s0 e sn cs s x s1 c1 c2 ang d mag2 low hkind hauto hknown
    exact exec_sincosSample hkind hauto hknown
  case index =>
    intro t s0 e s x pos hkind haxes
    exact exec_index hkind haxes
  case wire =>
    intro t s0 e pair s hkind
    exact exec_wireCheckExpiry hkind
  case track =>
    intro t s0 e smin smax cmin cmax freq s x hkind hauto hlow hhigh
    exact if_neg (by rw [not_or, not_or, not_or]; exact ⟨not_not.mpr hkind, not_not.mpr hauto, not_lt.mpr hlow, not_lt.mpr hhigh⟩)

end Sys2Proof.Machine

namespace Sys2Proof.Machine

/-! # Line-axis commands (R30 to R36, R46, R48, R74) -/

theorem execLineAxisUpdate_due {t : Time} {s0 : State} {k : Fin 32} (hmode : 1 < (s0.tick t).modeN)
    (hup : ((s0.tick t).laxOf k).upT + usT 1 ≤ t) :
    exec (.lineAxisUpdate t k) s0 = .next (
      let u := (s0.tick t).laxUpdate k t
      (u.fab.stitches.foldl (fun v x => if v.casAxis x.id.casement = k.val then v.stitchTest x.id else v) u).takeCommands) := by
  have hacts : ¬((s0.tick t).modeN ≤ 1 ∨ t < ((s0.tick t).laxOf k).upT + usT 1) :=
    not_or.mpr ⟨not_le.mpr hmode, not_lt.mpr hup⟩
  change execLineAxisUpdate t k s0 = _
  rw [execLineAxisUpdate, if_neg hacts]

/-- The status of a line axis that has switched to a source of this kind, its virtual velocity `virt` (R32, R33). -/
def switchedStatus (st kind : Nat) (virt : Int) : Nat :=
  let st := putBit (putBit (putBit (putBit st 7 false) 6 false) 5 false) 2 true
  if kind = 0 then putBit st 4 true else if kind = 4 then putBit st 4 (decide (virt = 0)) else st

/-- Of the bits that a switch does not clear or set for every source it touches ZERO_SPEED alone. -/
theorem bit_switchedStatus (st kind : Nat) (virt : Int) {i : Nat} (hi : i ≠ 4) :
    bit (switchedStatus st kind virt) i = bit (putBit (putBit (putBit (putBit st 7 false) 6 false) 5 false) 2 true) i := by
  unfold switchedStatus
  extract_lets u
  by_cases h0 : kind = 0
  · rw [if_pos h0, bit_putBit, if_neg hi]
  · by_cases h4 : kind = 4
    · rw [if_neg h0, if_pos h4, bit_putBit, if_neg hi]
    · rw [if_neg h0, if_neg h4]

/-- What is in force on a line axis that follows a source of its own. -/
structure Lax.Follows (x : Lax) (kind inst : Nat) (vf : Int) (st : Nat) : Prop where
  kind : x.kind = kind
  inst : x.inst = inst
  pend : x.pend = none
  follow : x.follow = none
  dr : x.dr = none
  vf : x.vf = vf
  st : x.st = st

theorem State.onSource_follows (s : State) (k kind inst : Nat) (t : Time) :
    (s.onSource k kind inst t).Follows kind inst (s.sourceVel k kind inst t).1
      (switchedStatus (s.laxOf k).st kind (s.laxOf k).virt) := by
  unfold State.onSource
  extract_lets p x _ _ st recs N D
  split
  next v tk hest =>
  rw [hest]
  extract_lets back y yPlaced yFabric
  have hy : yFabric.Follows kind inst v (switchedStatus (s.laxOf k).st kind (s.laxOf k).virt) := by
    unfold yFabric
    split <;> exact ⟨rfl, rfl, rfl, rfl, rfl, rfl, rfl⟩
  have hsame (z : Lax) (hz : { z with incs := yFabric.incs, iv := yFabric.iv } = yFabric) :
      z.Follows kind inst v (switchedStatus (s.laxOf k).st kind (s.laxOf k).virt) := by
    rw [← hz] at hy
    exact ⟨hy.kind, hy.inst, hy.pend, hy.follow, hy.dr, hy.vf, hy.st⟩
  clear_value yFabric recs
  match kind, recs with
  | 1, _ :: _ => exact hsame _ rfl
  | 1, [] => exact hsame _ rfl
  | 2, _ => exact hsame _ rfl
  | 0, _ => exact hsame _ rfl
  | _ + 3, _ => exact hsame _ rfl

theorem State.applySource_lax (s : State) (k kind inst : Nat) (t : Time) :
    (s.applySource k kind inst t).laxOf k = (s.ginTimers k t).onSource k kind inst t := by
  unfold State.applySource
  rw [State.laxOf, State.event_lax]
  exact State.laxOf_setLax_self ..

theorem execSourceSwitch_pending {t : Time} {s0 : State} {k : Fin 32} {kind inst : Nat}
    (hpend : ((s0.tick t).laxOf k).pend = some (kind, inst)) :
    exec (.sourceSwitch t k) s0 = .next ((s0.tick t).applySource k kind inst t) := by
  change execSourceSwitch t k s0 = _
  rw [execSourceSwitch, hpend]

/-- A source of the axis's own is at fault: an encoder with a latched fault (R28), or another source, which reports its own (R33). -/
theorem State.sourceFaulty_own {s : State} {k : Nat} (hkind : (s.laxOf k).kind ≠ 0) (hdr : (s.laxOf k).dr = none)
    (hlost : bit (s.laxOf k).st 7 = false) (hfollow : (s.laxOf k).follow = none)
    (hfault : (s.laxOf k).kind ≠ 1 ∨ (s.encOf (s.laxOf k).inst).st &&& 0xFC ≠ 0) : s.sourceFaulty k = true := by
  unfold State.sourceFaulty
  extract_lets x
  rw [decide_eq_true hkind, hdr, hlost, hfollow]
  by_cases henc : (s.laxOf k).kind = 1
  · simpa [x, henc] using hfault
  · simp [x, henc]

theorem execDeadReckonExpiry_run {t : Time} {s0 : State} {k : Fin 32} {t1 : Time} (hdr : ((s0.tick t).laxOf k).dr = some t1)
    (hrun : t1 + usT ((s0.tick t).laxOf k).drLim ≤ t) :
    exec (.deadReckonExpiry t k) s0 = .next (((List.range 48).foldl (fun s c => if s.casAxis c = k.val then s.passLines c t else s)
      ((s0.tick t).laxLost k t)).decideLost k) := by
  change execDeadReckonExpiry t k s0 = _
  rw [execDeadReckonExpiry, hdr]
  exact if_pos hrun

theorem execPlsStepOut_spaced {t : Time} {s0 : State} {n : Fin 8} {f : Bool} {r : List Bool}
    (hq : ((s0.tick t).plsOf n).q = f :: r)
    (hlast : ∀ l : Time, ((s0.tick t).plsOf n).last = some l → l + (s0.tick t).nat (oPls n 4) * nsT 25 / 2 ≤ t)
    (hon : (s0.tick t).nat (oPls n 1) ≤ 15) (hmode : 1 < (s0.tick t).modeN) :
    exec (.plsStepOut t n) s0 = .next (
      let s := s0.tick t
      let x := s.plsOf n
      let ab := plsNext x.a x.b f
      (s.setPls n { x with q := r, a := ab.1, b := ab.2, last := some t }).send (.pls n ab.1 ab.2)) := by
  change execPlsStepOut t n s0 = _
  unfold execPlsStepOut
  extract_lets s x spaced
  have hspaced : spaced = true := by
    unfold spaced
    split
    next l hl => exact decide_eq_true (hlast l hl)
    next => rfl
  rw [show x.q = f :: r from hq]
  exact if_pos ⟨hon, hspaced, hmode⟩

/-- Settles O2, command by command: each hypothesis is the condition under which its command acts; what is in force after a switch is
`State.onSource_follows`. -/
theorem lineAxisCommands : Obligations.LineAxisCommands := by
  unfold Obligations.LineAxisCommands
  refine ⟨?update, ?switch, ?fault, ?lost, ?zero, ?pulse, ?snapshot⟩
  case update =>
    intro t s0 k
    exact execLineAxisUpdate_due
  case switch =>
    intro t s0 k kind inst s hpend
    refine ⟨execSourceSwitch_pending hpend, ?_⟩
    rw [State.applySource_lax]
    obtain ⟨hkind, hinst, hnone, hfollow, hdr, hvf, hst⟩ := (s.ginTimers k t).onSource_follows k kind inst t
    refine ⟨hkind, hinst, hnone, hfollow, hdr, hvf, ?_⟩
    rw [hst]
    simp [bit_switchedStatus, bit_putBit]
  case fault =>
    intro t s0 k s x hkind hdr hlost hfollow hfault
    exact if_pos (State.sourceFaulty_own hkind hdr hlost hfollow hfault)
  case lost =>
    intro t s0 k t1 s hdr hrun
    exact execDeadReckonExpiry_run hdr hrun
  case zero =>
    intro t s0 k s x hkind hfollow hdr hrun hmoving
    exact if_pos ⟨hkind, hfollow, hdr, hrun, by rw [hmoving]; rfl⟩
  case pulse =>
    intro t s0 n f r s x ab hq hlast hon hmode
    exact execPlsStepOut_spaced hq hlast hon hmode
  case snapshot =>
    intro t s0 s hmode
    exact if_neg hmode

end Sys2Proof.Machine

namespace Sys2Proof.Machine

/-! # General inputs (R39 to R42, R52, R130) -/

theorem State.running_of_mode {s : State} (hmode : 1 < s.modeN) : s.running = true := decide_eq_true hmode

/-- No timer runs over on an input that is not active (R42). -/
theorem State.ginOver_of_inactive {s : State} {n : Nat} (t : Time) (hinactive : (s.ginOf n).active = false) :
    s.ginOver n t = false := by
  simp [State.ginOver, hinactive]

theorem State.ginOver_of_run {s : State} {n : Nat} {t : Time} (hactive : (s.ginOf n).active = true)
    (hheeded : (s.ginOf n).ignored = false) (hlim : (s.ginOf n).lim ≠ 0) (hrun : msT (s.ginOf n).lim < s.ginRun n t) :
    s.ginOver n t = true := by
  rw [State.ginOver, hactive, hheeded, bne_iff_ne.mpr hlim, decide_eq_true hrun]
  rfl

/-- Input `n` has captured an edge at `t`: the input is active and re-arms a distance away, position and time stand in its objects, and the
edge is counted (R40, R41, R130). -/
def State.ginCaptured (s : State) (n : Nat) (t : Time) : State :=
  let pa := s.laxAt (s.nat (oGin n 3)) t
  let d := s.num (oGin n 4)
  let u := s.setGin n { s.ginOf n with active := true, run := 0, runT := t, lim := s.nat (oGin n 5),
                                       rearm := if d = 0 then none else some (wrapS 64 (pa + d)) }
  (((u.bump (oGin n 6)).setn (oGin n 8) pa).setn (oGin n 9) (wrapU 64 (s.devOf t))).talCount 1 n

/-- Each casement that takes its anchors from input `n` has one for the edge at `t` (R52). -/
def State.ginAnchors (s : State) (n : Nat) (t : Time) : State :=
  (List.range 48).foldl (fun s c =>
    if s.takesGin c n then (s.anchorsFirst c t).leadAnchor c (.input n (s.nat (oGin n 6))) (s.laxAt (s.casAxis c) t) t none
    else s) s

/-- An active edge on an input that is inactive and has reached its re-arm position is captured. -/
theorem execGinEdge_accepted {t : Time} {s0 : State} {n : Fin 64} (hmode : 1 < (s0.tick t).modeN)
    (hinactive : ((s0.tick t).ginOf n).active = false) (hheeded : ((s0.tick t).ginOf n).ignored = false)
    (hrearm : ∀ r : Int, ((s0.tick t).ginOf n).rearm = some r →
      0 ≤ sdiff ((s0.tick t).laxAt ((s0.tick t).nat (oGin n 3)) t) r) :
    exec (.ginEdge t n) s0 = .next (
      let u := (s0.tick t).ginCaptured n t
      if u.captures then u.ginAnchors n t else u) := by
  change execGinEdge t n s0 = _
  unfold execGinEdge
  generalize s0.tick t = s at *
  extract_lets _ x same k pa held s1 d g s2 s3 s4
  have hx : x.active = false ∧ x.ignored = false := ⟨hinactive, hheeded⟩
  have hsame : same = false := by
    unfold same
    rw [State.ginOver_of_inactive t hinactive, hx.2]
    rfl
  have hruns : ¬(!s.running || (x.active && !same)) = true := by
    rw [State.running_of_mode hmode, hx.1]
    exact Bool.false_ne_true
  have hcounts : ¬(x.ignored && !same) = true := by
    rw [hx.2]
    exact Bool.false_ne_true
  have hheld : ¬held = true := by
    unfold held
    split
    next r hr => simpa using hrearm r hr
    next => exact Bool.false_ne_true
  have hs1 : s1 = s.setGin n { x with active := true, run := 0, runT := t, lim := s.nat (oGin n 5) } :=
    if_neg (by rw [hsame]; exact Bool.false_ne_true)
  have hs4 : s4 = s.ginCaptured n t := by
    unfold s4 s3 s2 g d
    rw [hs1, State.setGin_setGin, State.ginOf_setGin_self]
    rfl
  rw [if_neg hruns, if_neg hcounts, if_neg hheld, hs4]
  exact (apply_ite Host.Outcome.next ..).symm

/-- Settles O3, command by command: each hypothesis is the condition under which its command acts. -/
theorem inputCommands : Obligations.InputCommands := by
  unfold Obligations.InputCommands
  refine ⟨?edge, ?rejected, ?inactive, ?stuck⟩
  case edge =>
    intro t s0 n s x pa d hmode hinactive hheeded hrearm
    exact execGinEdge_accepted hmode hinactive hheeded hrearm
  case rejected =>
    intro t s0 n s hmode hinactive
    exact if_neg (by rw [State.running_of_mode hmode, hinactive]; exact Bool.false_ne_true)
  case inactive =>
    intro t s0 n s hmode
    exact if_neg (by rw [State.running_of_mode hmode]; exact Bool.false_ne_true)
  case stuck =>
    intro t s0 n s x hmode hactive hheeded hlim hrun
    exact if_pos (by rw [State.running_of_mode hmode, State.ginOver_of_run hactive hheeded hlim hrun]; rfl)

end Sys2Proof.Machine

namespace Sys2Proof.Machine

/-! # Dictionary writes that act at once (R329 to R331) -/

theorem leBytes_length (n x : Nat) : (leBytes n x).length = n := by
  induction n generalizing x with
  | zero => rfl
  | succ n ih => rw [leBytes, List.length_cons, ih]

theorem leNat_leBytes {n x : Nat} (hx : x < 2 ^ (8 * n)) : leNat (leBytes n x) = x := by
  induction n generalizing x with
  | zero => rw [Nat.lt_one_iff.mp hx]; rfl
  | succ n ih =>
    have hq : x / 256 < 2 ^ (8 * n) := by
      rw [Nat.mul_succ, Nat.pow_add] at hx
      omega
    rw [leBytes, leNat, ih hq, BitVec.toNat_ofNat]
    exact Nat.mod_add_div x 256

theorem widthOf_row {idx sub base i : Nat} {row : Row} {w : Nat} (hsub : sub < 256) (hrow : findRow idx sub = some (base, i, row))
    (hty : row.ty = .uns w) : widthOf (ky idx sub) = w := by
  have hidx : ky idx sub / 256 = idx := by unfold ky; omega
  have hsub' : ky idx sub % 256 = sub := by unfold ky; omega
  rw [widthOf, hidx, hsub', hrow]
  simp only [hty]

theorem rowRange_any {r : Row} {w n : Nat} (hty : r.ty = .uns w) (hrng : r.rng = .any) (hn : n < 2 ^ (8 * w)) :
    rowRange r (.num n) = true := by
  have hfits : (n : Int) < 2 ^ (8 * w) := by exact_mod_cast hn
  simp [rowRange, hty, hrng, hfits]

theorem rowRange_between {r : Row} {w n : Nat} {lo hi : Int} (hty : r.ty = .uns w) (hrng : r.rng = .rng lo hi)
    (hn : n < 2 ^ (8 * w)) (h : lo ≤ n ∧ n ≤ hi) : rowRange r (.num n) = true := by
  have hfits : (n : Int) < 2 ^ (8 * w) := by exact_mod_cast hn
  simp [rowRange, hty, hrng, hfits, h]

/-- A number in the range of its row passes the row's checks in a mode that the row lists. -/
theorem State.writeParse_number {s : State} {idx sub base i n : Nat} {row : Row} {w : Nat} (hsub : sub < 256)
    (hrow : findRow idx sub = some (base, i, row)) (hty : row.ty = .uns w) (hmode : modeTakes s.modeN row.acc = true)
    (hn : n < 2 ^ (8 * w)) (hrange : rowRange row (.num n) = true) :
    s.writeParse idx sub (numBytes (ky idx sub) n) = .ok (base, i, row, .num n) := by
  have hbytes : numBytes (ky idx sub) n = leBytes w n := by
    rw [numBytes, widthOf_row hsub hrow hty]
    exact congrArg (leBytes · n) (if_pos hn)
  have hv : decodeVal row.ty (leBytes w n) = some (.num n) := by
    rw [hty, decodeVal, if_pos (leBytes_length w n), leNat_leBytes hn]
  rw [hbytes, State.writeParse_decoded hrow hmode hv, hrange]
  simp

/-- A write that every check accepts is answered and acts. -/
theorem State.dictWrite_accepted {s : State} {p : Path} {idx sub base i : Nat} {b : Bytes} {row : Row} {v : Val}
    (hp : s.serves p = true) (hparse : s.writeParse idx sub b = .ok (base, i, row, v))
    (hrel : (s.writeVal (ky idx sub) row v).relCheck base i sub v b = none) :
    s.dictWrite p idx sub b = State.act s ((s.writeVal (ky idx sub) row v).answer .ok) p true idx base i sub v b := by
  obtain ⟨hbar, hmode, hdeaf, husdo⟩ := (s.serves_iff p).mp hp
  have hone : s.writeOne p true idx sub b =
      (State.act s ((s.writeVal (ky idx sub) row v).answer .ok) p true idx base i sub v b, none) := by
    simp only [State.writeOne, hparse, hrel]
  have hmode' : ¬ s.modeN ≤ 1 := by omega
  cases p with
  | bar0 => exact absurd rfl hbar
  | usdo i => simp [State.dictWrite, hmode', hdeaf, husdo i rfl, hone]
  | _ => simp [State.dictWrite, hmode', hdeaf, hone]

/-- A number within its row's range that no relation refuses is answered and acts. -/
theorem State.dictNum_accepted {s : State} {p : Path} {idx sub base i n : Nat} {row : Row} {w : Nat} (hp : s.serves p = true)
    (hsub : sub < 256) (hrow : findRow idx sub = some (base, i, row)) (hty : row.ty = .uns w)
    (hmode : modeTakes s.modeN row.acc = true) (hn : n < 2 ^ (8 * w)) (hrange : rowRange row (.num n) = true)
    (hrel : ∀ b, (s.writeVal (ky idx sub) row (.num n)).relCheck base i sub (.num n) b = none) :
    ∃ b, s.dictNum p idx sub n =
      State.act s ((s.writeVal (ky idx sub) row (.num n)).answer .ok) p true idx base i sub (.num n) b :=
  ⟨_, State.dictWrite_accepted hp (State.writeParse_number hsub hrow hty hmode hn hrange) (hrel _)⟩

/-- A value that its object holds, and that governs from its write on, is put into the object. -/
theorem State.writeVal_held {s : State} {k : Nat} {r : Row} (v : Val) (hwo : r.wo = false) (hheld : notHeld k = false)
    (hte : r.te = .imm) : s.writeVal k r v = s.setv k v := by
  rw [State.writeVal, hwo, hheld, hte]
  rfl

/-- An accepted number of such an object stands in it when the write acts. -/
theorem State.dictNum_held {s : State} {p : Path} {idx sub base i n : Nat} {row : Row} {w : Nat} (hp : s.serves p = true)
    (hsub : sub < 256) (hrow : findRow idx sub = some (base, i, row)) (hty : row.ty = .uns w)
    (hmode : modeTakes s.modeN row.acc = true) (hn : n < 2 ^ (8 * w)) (hrange : rowRange row (.num n) = true)
    (hwo : row.wo = false) (hheld : notHeld (ky idx sub) = false) (hte : row.te = .imm)
    (hrel : ∀ b, (s.setn (ky idx sub) n).relCheck base i sub (.num n) b = none) :
    ∃ b, s.dictNum p idx sub n = State.act s ((s.setn (ky idx sub) n).answer .ok) p true idx base i sub (.num n) b := by
  have hput : s.writeVal (ky idx sub) row (.num n) = s.setn (ky idx sub) n := State.writeVal_held _ hwo hheld hte
  obtain ⟨b, hb⟩ := State.dictNum_accepted hp hsub hrow hty hmode hn hrange (by rw [hput]; exact hrel)
  exact ⟨b, by rw [hb, hput]⟩

/-- All modes but SAFE take a write of these rows (access letters CSYMV). -/
theorem modeTakes_notSafe {m : Nat} (hlow : 2 ≤ m) (hhigh : m ≤ 6) : modeTakes m 31 = true := by
  interval_cases m <;> rfl

/-- All modes but SERVICE and SAFE take a write of these rows (access letters CSYM). -/
theorem modeTakes_notService {m : Nat} (hlow : 2 ≤ m) (hhigh : m ≤ 5) : modeTakes m 15 = true := by
  interval_cases m <;> rfl

theorem State.modeN_of_serves {s : State} {p : Path} (hp : s.serves p = true) : 2 ≤ s.modeN := ((s.serves_iff p).mp hp).2.1

/-! ## The rows of the settings of R30, R45, R123 and R131 -/

theorem findRow_sourceKind (k : Fin 32) : findRow (0x2700 + k) 1 = some (0x2700, k.val, ⟨1, 1, .uns 1, 31, false, 0, .rng 0 4, .imm⟩) := by
  revert k
  decide +kernel

theorem findRow_plsRatio (n : Fin 8) (isM : Bool) :
    findRow (0x27A0 + n) (if isM then 3 else 2) =
      some (0x27A0, n.val, ⟨if isM then 3 else 2, 1, .uns 2, 15, false, 1, .rng 1 65535, .imm⟩) := by
  revert n isM
  decide +kernel

theorem findRow_timeWrite : findRow 0x2301 2 = some (0x2301, 0, ⟨2, 1, .uns 1, 31, true, 0, .set [1, 2], .imm⟩) := by decide

theorem findRow_tally (n : Fin 256) :
    findRow (0x2380 + n.val / 2) (if n.val % 2 = 1 then 0x41 else 0x01) =
      some (0x2380, n.val / 2, ⟨if n.val % 2 = 1 then 0x41 else 0x01, 1, .uns 8, 31, false, 0, .any, .imm⟩) := by
  revert n
  decide +kernel

theorem notHeld_sourceKind (k : Fin 32) : notHeld (oLax k 1) = false := by
  revert k
  decide +kernel

theorem notHeld_plsRatio (n : Fin 8) (isM : Bool) : notHeld (oPls n (if isM then 3 else 2)) = false := by
  revert n isM
  decide +kernel

theorem notHeld_tally (n : Fin 256) : notHeld (oTal n 0) = false := by
  revert n
  decide +kernel

/-! ## The relations that these settings meet, and what they start -/

/-- An object of the line, the Compositor, time or the host interface, outside the tallies and the units with pages of their own. -/
theorem State.relCheck_line {s : State} {base i sub : Nat} {v : Val} (b : Bytes) (hlow : base < 0x3000) (htal : base ≠ 0x2380)
    (hseg : base ≠ 0x2040) (hline : s.relLine i (ky base sub) v.int.toNat v.int = none)
    (hhost : s.relHost i (ky base sub) v.int.toNat b = none) : s.relCheck base i sub v b = none := by
  unfold State.relCheck
  extract_lets key n
  rw [if_neg htal, if_neg (by omega), if_neg (by omega), show s.relLine i key n v.int = none from hline]
  exact hhost

theorem State.act_line {s0 s : State} {p : Path} {alone : Bool} {idx base i sub : Nat} {v : Val} (b : Bytes)
    (hlow : base < 0x3000) (htal : base ≠ 0x2380) (hseg : base ≠ 0x2040) (htrim : hasTrim base = false) :
    State.act s0 s p alone idx base i sub v b =
      (State.actLine s0 s p alone i (ky base sub) v.int.toNat v.int).actHost p alone i (ky base sub) v.int.toNat b := by
  unfold State.act
  extract_lets key n t
  rw [if_neg htal, htrim, if_neg Bool.false_ne_true, if_neg (by omega)]

theorem blt_eq_false_of_le {a b : Nat} (h : b ≤ a) : Nat.blt a b = false := by
  rw [← Bool.not_eq_true, Nat.blt_eq]
  exact not_lt.mpr h

theorem State.relCheck_sourceKind {s : State} {k v : Nat} (b : Bytes) (hfits : sourceFits v (s.nat (oLax k 2)) = true) :
    s.relCheck 0x2700 k 1 (.num v) b = none := by
  refine State.relCheck_line b (by decide) (by decide) (by decide) ?_ rfl
  change badIf (!sourceFits v (s.nat (oLax k 2))) = none
  rw [hfits]
  rfl

/-- The ratio N / M is at most 1 (R45), whichever of the two is written. -/
theorem State.relCheck_plsRatio {s : State} {n v : Nat} (b : Bytes) (isM : Bool) (hratio : s.nat (oPls n 2) ≤ s.nat (oPls n 3)) :
    s.relCheck 0x27A0 n (if isM then 3 else 2) (.num v) b = none := by
  have hbad : badIf (Nat.blt (s.nat (oPls n 3)) (s.nat (oPls n 2))) = none := by
    rw [blt_eq_false_of_le hratio]
    rfl
  cases isM with
  | false => exact State.relCheck_line b (by decide) (by decide) (by decide) hbad rfl
  | true => exact State.relCheck_line b (by decide) (by decide) (by decide) hbad rfl

theorem State.relCheck_timeWrite {s : State} (v : Nat) (b : Bytes) (hcheck : s.timeWriteCheck = none) :
    s.relCheck 0x2301 0 2 (.num v) b = none :=
  State.relCheck_line b (by decide) (by decide) (by decide) hcheck rfl

/-- Two tallies share an index, the odd one 64 sub-indices on (R135). -/
theorem tallyValue_place (n : Nat) :
    2 * (n / 2) + (if n % 2 = 1 then 0x41 else 0x01) / 64 = n ∧ (if n % 2 = 1 then 0x41 else 0x01) % 64 = 1 := by
  split <;> omega

theorem State.relCheck_tally {s : State} {n v : Nat} (b : Bytes) (hlimit : v ≤ s.talLimit n) :
    s.relCheck 0x2380 (n / 2) (if n % 2 = 1 then 0x41 else 0x01) (.num v) b = none := by
  obtain ⟨htally, hsub⟩ := tallyValue_place n
  unfold State.relCheck
  extract_lets key w
  rw [if_pos rfl, htally, hsub]
  change badIf (Nat.blt (s.talLimit n) v) = none
  rw [blt_eq_false_of_le hlimit]
  rfl

theorem State.act_sourceKind (s0 s : State) (p : Path) (idx k v : Nat) (b : Bytes) :
    State.act s0 s p true idx 0x2700 k 1 (.num v) b = s.setLax k { s.laxOf k with pend := some (v, s.nat (oLax k 2)) } :=
  State.act_line b (by decide) (by decide) (by decide) rfl

theorem State.act_plsRatio (s0 s : State) (p : Path) (idx n v : Nat) (isM : Bool) (b : Bytes) :
    State.act s0 s p true idx 0x27A0 n (if isM then 3 else 2) (.num v) b =
      if isM then s.plsRescale n (s0.nat (oPls n 3)) v else s := by
  cases isM with
  | false => exact State.act_line b (by decide) (by decide) (by decide) rfl
  | true => exact State.act_line b (by decide) (by decide) (by decide) rfl

theorem State.act_tally (s0 s : State) (p : Path) (idx n v : Nat) (b : Bytes) :
    State.act s0 s p true idx 0x2380 (n / 2) (if n % 2 = 1 then 0x41 else 0x01) (.num v) b =
      (s.talWrite n v).addChange (.tally n) := by
  obtain ⟨htally, hsub⟩ := tallyValue_place n
  unfold State.act
  extract_lets key w tally
  have htally' : tally = n := htally
  rw [if_pos rfl, if_pos hsub, htally']
  rfl

/-! ## The commands -/

/-- A source kind that fits the number written beside it waits for its switch (R32). -/
theorem execSourceKindWrite_accepted {t : Time} {s0 : State} {p : Path} {k : Fin 32} {v : Nat} (hp : (s0.tick t).serves p = true)
    (hmode : (s0.tick t).modeN ≤ 6) (hv : v ≤ 4) (hfits : sourceFits v ((s0.tick t).nat (oLax k 2)) = true) :
    exec (.sourceKindWrite t p k v) s0 = .next (
      let u := ((s0.tick t).setn (oLax k 1) v).answer .ok
      u.setLax k { u.laxOf k with pend := some (v, (s0.tick t).nat (oLax k 2)) }) := by
  refine congrArg Host.Outcome.next ?_
  generalize s0.tick t = s at *
  have hinst : (s.setn (oLax k 1) v).nat (oLax k 2) = s.nat (oLax k 2) := State.nat_setn_ne s _ (by unfold oLax ky; omega)
  rw [← hinst] at hfits ⊢
  obtain ⟨b, hact⟩ := State.dictNum_held (w := 1) (n := v) hp (by decide) (findRow_sourceKind k) rfl
    (modeTakes_notSafe (State.modeN_of_serves hp) hmode) (by omega) (rowRange_between rfl rfl (by omega) ⟨by omega, by omega⟩) rfl (notHeld_sourceKind k) rfl
    fun b => State.relCheck_sourceKind b hfits
  exact hact.trans (State.act_sourceKind ..)

theorem State.plsRatio_setN (s : State) (n : Nat) {v : Nat} (h : v ≤ s.nat (oPls n 3)) :
    (s.setn (oPls n 2) v).nat (oPls n 2) ≤ (s.setn (oPls n 2) v).nat (oPls n 3) := by
  rw [State.nat_setn_self, State.nat_setn_ne s _ (show oPls n 3 ≠ oPls n 2 by unfold oPls ky; omega)]
  exact h

theorem State.plsRatio_setM (s : State) (n : Nat) {v : Nat} (h : s.nat (oPls n 2) ≤ v) :
    (s.setn (oPls n 3) v).nat (oPls n 2) ≤ (s.setn (oPls n 3) v).nat (oPls n 3) := by
  rw [State.nat_setn_self, State.nat_setn_ne s _ (show oPls n 2 ≠ oPls n 3 by unfold oPls ky; omega)]
  exact h

/-- A ratio of at most 1 comes into force, and a new M rescales the phase (R45, R47). -/
theorem execPlsRatioWrite_accepted {t : Time} {s0 : State} {p : Path} {n : Fin 8} {isM : Bool} {v : Nat}
    (hp : (s0.tick t).serves p = true) (hmode : (s0.tick t).modeN ≤ 5) (hpos : 1 ≤ v) (hmax : v ≤ 65535)
    (hratio : ((s0.tick t).setn (oPls n (if isM then 3 else 2)) v).nat (oPls n 2) ≤
      ((s0.tick t).setn (oPls n (if isM then 3 else 2)) v).nat (oPls n 3)) :
    exec (.plsRatioWrite t p n isM v) s0 = .next (
      let u := ((s0.tick t).setn (oPls n (if isM then 3 else 2)) v).answer .ok
      if isM then u.plsRescale n ((s0.tick t).nat (oPls n 3)) v else u) := by
  refine congrArg Host.Outcome.next ?_
  generalize s0.tick t = s at *
  obtain ⟨b, hact⟩ := State.dictNum_held (w := 2) (n := v) hp (by split <;> decide) (findRow_plsRatio n isM) rfl
    (modeTakes_notService (State.modeN_of_serves hp) hmode) (by omega) (rowRange_between rfl rfl (by omega) ⟨by omega, by omega⟩) rfl (notHeld_plsRatio n isM) rfl
    fun b => State.relCheck_plsRatio b isM hratio
  exact hact.trans (State.act_plsRatio ..)

/-- An accepted time write acts on the value that stands in its object (R123). -/
theorem State.dictNum_timeWrite {s : State} {p : Path} {v : Nat} (hp : s.serves p = true) (hmode : s.modeN ≤ 6)
    (hcheck : s.timeWriteCheck = none) (hv : v = 1 ∨ v = 2) :
    s.dictNum p 0x2301 2 v =
      if v = 1 then { s.answer .ok with clk := { s.clk with staged := some (s.nat (ky 0x2301 1), s.now) } }
      else (s.answer .ok).applyTime (s.nat (ky 0x2301 1)) := by
  obtain ⟨b, hact⟩ := State.dictNum_accepted (w := 1) (n := v) hp (by decide) findRow_timeWrite rfl
    (modeTakes_notSafe (State.modeN_of_serves hp) hmode) (by omega) (by rcases hv with rfl | rfl <;> rfl)
    fun b => State.relCheck_timeWrite v b hcheck
  rw [hact, State.act_line b (by decide) (by decide) (by decide) rfl]
  rcases hv with rfl | rfl <;> rfl

theorem State.talLimit_setn_value (s : State) (n : Nat) (v : Int) : (s.setn (oTal n 0) v).talLimit n = s.talLimit n := by
  have h1 : oTal n 1 ≠ oTal n 0 := by unfold oTal ky; omega
  have h3 : oTal n 3 ≠ oTal n 0 := by unfold oTal ky; omega
  rw [State.talLimit, State.nat_setn_ne s v h1, State.nat_setn_ne s v h3]
  rfl

/-- A value within the limit is set, lifts the hold and is a change for the marks that follow (R65, R129, R131). -/
theorem execTallyWrite_accepted {t : Time} {s0 : State} {p : Path} {n : Fin 256} {v : Nat} (hp : (s0.tick t).serves p = true)
    (hmode : (s0.tick t).modeN ≤ 6) (hlimit : v ≤ (s0.tick t).talLimit n) (hv : v < 2 ^ 64) :
    exec (.tallyWrite t p n v) s0 =
      .next (((((s0.tick t).setn (oTal n 0) v).answer .ok).talWrite n v).addChange (.tally n)) := by
  refine congrArg Host.Outcome.next ?_
  generalize s0.tick t = s at *
  rw [← s.talLimit_setn_value n v] at hlimit
  obtain ⟨b, hact⟩ := State.dictNum_held (w := 8) (n := v) hp (by split <;> decide) (findRow_tally n) rfl
    (modeTakes_notSafe (State.modeN_of_serves hp) hmode) hv (rowRange_any rfl rfl hv) rfl (notHeld_tally n) rfl
    fun b => State.relCheck_tally b hlimit
  exact hact.trans (State.act_tally ..)

/-- Settles O34, command by command: each hypothesis is one check that the write passes. -/
theorem settingCommands : Obligations.SettingCommands := by
  unfold Obligations.SettingCommands
  refine ⟨?source, ?ratioN, ?ratioM, ?staged, ?immediate, ?tally⟩
  case source =>
    intro t s0 p k v s u hp hmode hv hfits
    exact execSourceKindWrite_accepted hp hmode hv hfits
  case ratioN =>
    intro t s0 p n v s hp hmode hpos hratio hmax
    exact execPlsRatioWrite_accepted (isM := false) hp hmode hpos hmax (s.plsRatio_setN n hratio)
  case ratioM =>
    intro t s0 p n v s hp hmode hpos hratio hmax
    exact execPlsRatioWrite_accepted (isM := true) hp hmode hpos hmax (s.plsRatio_setM n hratio)
  case staged =>
    intro t s0 p s hp hmode hcheck
    exact congrArg Host.Outcome.next (State.dictNum_timeWrite hp hmode hcheck (.inl rfl))
  case immediate =>
    intro t s0 p s hp hmode hcheck
    exact congrArg Host.Outcome.next (State.dictNum_timeWrite hp hmode hcheck (.inr rfl))
  case tally =>
    intro t s0 p n v s hp hmode hlimit hv
    exact execTallyWrite_accepted hp hmode hlimit hv

end Sys2Proof.Machine

namespace Sys2Proof.Machine

/-! # Commands of a casement (R81, R83, R331) -/

theorem findRow_casCommand (c : Fin 48) :
    findRow (0x3000 + 0x20 * c + 2) 2 = some (0x3002, c.val, ⟨2, 1, .uns 1, 28, true, 0, .set [1, 2, 3, 4, 5], .imm⟩) := by
  revert c
  decide +kernel

/-- READY, MARKING and SERVICE take a write of this row (access letters YMV). -/
theorem modeTakes_fromReady {m : Nat} (hlow : 4 ≤ m) (hhigh : m ≤ 6) : modeTakes m 28 = true := by
  interval_cases m <;> rfl

theorem rowRange_casCommand {cmd : Nat} (hlow : 1 ≤ cmd) (hhigh : cmd ≤ 5) :
    rowRange ⟨2, 1, .uns 1, 28, true, 0, .set [1, 2, 3, 4, 5], .imm⟩ (.num cmd) = true := by
  interval_cases cmd <;> rfl

theorem State.relCheck_casCommand {s : State} {c cmd : Nat} (b : Bytes) (hcheck : s.casCheck c cmd = none) :
    s.relCheck 0x3002 c 2 (.num cmd) b = none := by
  have hline : s.relLine c 0x300202 cmd cmd = none := congrArg (Option.map Prod.fst) hcheck
  unfold State.relCheck
  extract_lets key n
  rw [if_neg (by decide), if_neg (by decide), if_neg (by decide), show s.relLine c key n (Val.num cmd).int = none from hline]
  rfl

theorem State.act_casCommand (s0 s : State) (p : Path) (idx c cmd : Nat) (b : Bytes) :
    State.act s0 s p true idx 0x3002 c 2 (.num cmd) b = s.casAct c cmd := by
  unfold State.act
  extract_lets key n t
  rw [if_neg (by decide), if_neg (by decide), if_neg (by decide)]
  rfl

/-- A command that the casement's state accepts is answered and acts. -/
theorem State.next_casCommand {s u : State} {p : Path} {c : Fin 48} {cmd : Nat} (hp : s.serves p = true) (hready : 4 ≤ s.modeN)
    (hmode : s.modeN ≤ 6) (hcheck : s.casCheck c cmd = none) (hact : (s.answer .ok).casAct c cmd = u)
    (hcmd : 1 ≤ cmd ∧ cmd ≤ 5 := by decide) :
    (.next (s.dictNum p (0x3000 + 0x20 * c + 2) 2 cmd) : Step) = .next u := by
  obtain ⟨hlow, hhigh⟩ := hcmd
  obtain ⟨b, hwrite⟩ := State.dictNum_accepted (w := 1) (n := cmd) hp (by decide) (findRow_casCommand c) rfl
    (modeTakes_fromReady hready hmode) (by omega) (rowRange_casCommand hlow hhigh) fun b => State.relCheck_casCommand b hcheck
  exact congrArg Host.Outcome.next (hwrite.trans ((State.act_casCommand ..).trans hact))

/-! ## The states that accept a command -/

/-- ARM is accepted in READY and MARKING alone. -/
theorem State.modeN_of_casCheck_arm {s : State} {c : Nat} (h : s.casCheck c 1 = none) : 4 ≤ s.modeN ∧ s.modeN ≤ 5 := by
  change s.armCheck c = none at h
  unfold State.armCheck at h
  extract_lets x at h
  split_ifs at h with hrefused
  have hmode : s.modeN = 4 ∨ s.modeN = 5 := by
    by_contra hother
    exact hrefused (.inr (.inl (by simpa using hother)))
  omega

theorem State.casCheck_disarm {s : State} {c : Nat} (h : s.casState c = 2 ∨ s.casState c = 3 ∨ s.casState c = 4) :
    s.casCheck c 2 = none := by
  rcases h with h | h | h <;> simp [State.casCheck, h]

theorem State.casCheck_enterService {s : State} {c : Nat} (h : s.casState c = 1 ∨ s.casState c = 3 ∨ s.casState c = 4) :
    s.casCheck c 3 = none := by
  rcases h with h | h | h <;> simp [State.casCheck, h]

theorem State.casCheck_leaveService {s : State} {c : Nat} (h : s.casState c = 5) : s.casCheck c 4 = none := by
  simp [State.casCheck, h]

theorem State.casCheck_clearFault {s : State} {c : Nat} (hst : s.casState c = 6) (hopened : (s.casOf c).opened = [])
    (hafter : (s.casOf c).after = none) (hended : s.faultEnded c = true) : s.casCheck c 5 = none := by
  simp [State.casCheck, hst, hopened, hafter, hended]

/-! ## What an accepted command does in each state -/

theorem State.casAct_disarm_armed {s : State} {c : Nat} (h : s.casState c = 3 ∨ s.casState c = 4) :
    s.casAct c 2 = (s.setCasement c { s.casOf c with disarm := some s.now }).casPending c :=
  if_neg (by omega)

theorem State.casAct_disarm_arming {s : State} {c : Nat} (h : s.casState c = 2) :
    s.casAct c 2 = ((s.setCasement c { s.casOf c with disarm := some s.now }).casPending c).beginPowerDown c 1 :=
  if_pos h

theorem State.casAct_enterService_cold {s : State} {c : Nat} (h : s.casState c = 1) : s.casAct c 3 = s.toService c :=
  if_pos h

theorem State.casAct_enterService_armed {s : State} {c : Nat} (h : s.casState c = 3 ∨ s.casState c = 4) :
    s.casAct c 3 = (s.setCasement c { s.casOf c with service := some s.now }).casPending c :=
  if_neg (by omega)

theorem State.casAct_leaveService_idle {s : State} {c : Nat} (h : (s.casOf c).svc = none) : s.casAct c 4 = s.toCold c := by
  simp only [State.casAct, h]

theorem State.casAct_leaveService_measuring {s : State} {c : Nat} {v : Svc} (h : (s.casOf c).svc = some v) (hphase : v.phase ≠ 3) :
    s.casAct c 4 = (s.svcEnd c v 1).toCold c := by
  simp only [State.casAct, h, if_neg hphase]

/-- A service measurement in phase 3 has its result and is powering down. -/
theorem State.casAct_leaveService_ending {s : State} {c : Nat} {v : Svc} (h : (s.casOf c).svc = some v) (hphase : v.phase = 3) :
    s.casAct c 4 = s.toCold c := by
  simp only [State.casAct, h, if_pos hphase]

theorem State.casAct_clearFault_rails {s : State} {c : Nat} (h : s.railsOn c = true) :
    s.casAct c 5 =
      let u := s.setCasement c { s.casOf c with after := some 6 }
      if u.exBusy c = true ∧ (u.exOf c).entry = 4 then u else u.startProgram c 4 :=
  if_pos h

theorem State.casAct_clearFault_off {s : State} {c : Nat} (h : s.railsOn c = false) : s.casAct c 5 = s.faultToCold c :=
  if_neg (by rw [h]; exact Bool.false_ne_true)

/-- Settles O8, command by command: the casement's state accepts the command (`casCheck`), which then acts (`casAct`). -/
theorem casementCommands : Obligations.CasementCommands := by
  unfold Obligations.CasementCommands
  refine ⟨?arm, ?disarm, ?disarmArming, ?service, ?serviceArmed, ?leave, ?leaveMeasuring, ?leaveEnding, ?clearRails, ?clear⟩
  case arm =>
    intro t s0 p c s hp hcheck
    obtain ⟨hready, hmode⟩ := State.modeN_of_casCheck_arm hcheck
    exact State.next_casCommand hp hready (hmode.trans (by decide)) hcheck rfl
  case disarm =>
    intro t s0 p c s hp hready hmode hst
    exact State.next_casCommand hp hready hmode (State.casCheck_disarm (.inr hst)) (State.casAct_disarm_armed hst)
  case disarmArming =>
    intro t s0 p c s hp hready hmode hst
    exact State.next_casCommand hp hready hmode (State.casCheck_disarm (.inl hst)) (State.casAct_disarm_arming hst)
  case service =>
    intro t s0 p c s hp hready hmode hst
    exact State.next_casCommand hp hready hmode (State.casCheck_enterService (.inl hst)) (State.casAct_enterService_cold hst)
  case serviceArmed =>
    intro t s0 p c s hp hready hmode hst
    exact State.next_casCommand hp hready hmode (State.casCheck_enterService (.inr hst)) (State.casAct_enterService_armed hst)
  case leave =>
    intro t s0 p c s hp hready hmode hst hsvc
    exact State.next_casCommand hp hready hmode (State.casCheck_leaveService hst) (State.casAct_leaveService_idle hsvc)
  case leaveMeasuring =>
    intro t s0 p c v s hp hready hmode hst hsvc hphase
    exact State.next_casCommand hp hready hmode (State.casCheck_leaveService hst) (State.casAct_leaveService_measuring hsvc hphase)
  case leaveEnding =>
    intro t s0 p c v s hp hready hmode hst hsvc hphase
    exact State.next_casCommand hp hready hmode (State.casCheck_leaveService hst) (State.casAct_leaveService_ending hsvc hphase)
  case clearRails =>
    intro t s0 p c s hp hready hmode hst hopened hafter hended hrails
    exact State.next_casCommand hp hready hmode (State.casCheck_clearFault hst hopened hafter hended) (State.casAct_clearFault_rails hrails)
  case clear =>
    intro t s0 p c s hp hready hmode hst hopened hafter hended hrails
    exact State.next_casCommand hp hready hmode (State.casCheck_clearFault hst hopened hafter hended) (State.casAct_clearFault_off hrails)

end Sys2Proof.Machine

namespace Sys2Proof.Machine

/-! # Reject channels (R77 to R80) -/

/-- The tags of channel `r` that position `p` has reached. -/
def State.rejHit (s : State) (r : Nat) (p : Int) : List RejTag := (s.rejOf r).tags.filter fun g => decide (0 ≤ sdiff p g.pos)

/-- The tags of channel `r` that position `p` has not reached. -/
def State.rejRest (s : State) (r : Nat) (p : Int) : List RejTag := (s.rejOf r).tags.filter fun g => !decide (0 ≤ sdiff p g.pos)

theorem State.partition_rejTags (s : State) (r : Nat) (p : Int) :
    (s.rejOf r).tags.partition (fun g => decide (0 ≤ sdiff p g.pos)) = (s.rejHit r p, s.rejRest r p) :=
  List.partition_eq_filter_filter

/-- Channel `r` at position `p` and time `t`, its reached tags driving a pulse in its unit, time or distance (R77). -/
def State.rejPulse (s : State) (r : Nat) (t : Time) (p : Int) : Rej :=
  let x := s.rejOf r
  let len := s.nat (oRej r 5)
  let y := { x with tags := s.rejRest r p, active := true }
  if s.nat (oRej r 4) = 0 then { y with untilT := max x.untilT (t + usT len) }
  else { y with untilP := some ((s.rejHit r p).foldl (fun e g => laterPos (some e) (wrapS 64 (g.pos + len))) (laterPos x.untilP p)) }

/-- Tags reached are counted and leave the channel, which drives their pulse `y`. -/
theorem execRejectPosition_reached {t : Time} {r : Fin 8} {s0 : State} {y : Rej}
    (hhit : (s0.tick t).rejHit r ((s0.tick t).laxPos ((s0.tick t).nat (oRej r 2)) t) ≠ [])
    (hy : (s0.tick t).rejPulse r t ((s0.tick t).laxPos ((s0.tick t).nat (oRej r 2)) t) = y) :
    exec (.rejectPosition t r) s0 = .next (
      let s := s0.tick t
      let p := s.laxPos (s.nat (oRej r 2)) t
      (((s.setRej r y).bumpBy (oRej r 8) (s.rejHit r p).length).setn (oRej r 7) ((s.rejRest r p).length : Nat)).rejSettle r p) := by
  subst hy
  change execRejectPosition t r s0 = _
  simp only [execRejectPosition, State.partition_rejTags, if_neg hhit]
  rfl

/-- Settles O17, clause by clause: the pulse at the reject position in time and in distance, and the end of a pulse. -/
theorem rejectCommands : Obligations.RejectCommands := by
  unfold Obligations.RejectCommands
  refine ⟨?time, ?distance, ?pulseEnd⟩
  case time =>
    intro t s0 r s x p hit rest y hhit hunit
    exact execRejectPosition_reached hhit (if_pos hunit)
  case distance =>
    intro t s0 r s x p hit rest e hhit hunit
    exact execRejectPosition_reached hhit (if_neg hunit)
  case pulseEnd =>
    intro t s0 r s p u hnormal hended
    exact if_neg (not_or.mpr ⟨hnormal, by rw [hended]; exact Bool.false_ne_true⟩)

end Sys2Proof.Machine

namespace Sys2Proof.Machine

/-! # Commits, pins and queries of the Compositor (R85 to R87, R100, R107, R117, R268, R331) -/

/-! ## A BOOLEAN that its object holds (R329) -/

theorem widthOf_flag {idx sub base i : Nat} {row : Row} (hsub : sub < 256) (hrow : findRow idx sub = some (base, i, row))
    (hty : row.ty = .bool) : widthOf (ky idx sub) = 1 := by
  have hidx : ky idx sub / 256 = idx := by unfold ky; omega
  have hsub' : ky idx sub % 256 = sub := by unfold ky; omega
  rw [widthOf, hidx, hsub', hrow]
  simp only [hty]

theorem rowRange_flag {r : Row} {n : Nat} (hty : r.ty = .bool) (hrng : r.rng = .any) (hn : n ≤ 1) :
    rowRange r (.num n) = true := by
  have hbool : (n : Int) ≤ 1 := by exact_mod_cast hn
  simp [rowRange, hty, hrng, hbool]

/-- Of a BOOLEAN object 0 and 1 pass the row's checks in a mode that the row lists. -/
theorem State.writeParse_flag {s : State} {idx sub base i n : Nat} {row : Row} (hsub : sub < 256)
    (hrow : findRow idx sub = some (base, i, row)) (hty : row.ty = .bool) (hrng : row.rng = .any)
    (hmode : modeTakes s.modeN row.acc = true) (hn : n ≤ 1) :
    s.writeParse idx sub (numBytes (ky idx sub) n) = .ok (base, i, row, .num n) := by
  have hn' : n < 2 ^ (8 * 1) := by omega
  have hbytes : numBytes (ky idx sub) n = leBytes 1 n := by
    rw [numBytes, widthOf_flag hsub hrow hty]
    exact congrArg (leBytes · n) (if_pos hn')
  have hv : decodeVal row.ty (leBytes 1 n) = some (.num n) := by
    rw [hty, decodeVal, if_pos (leBytes_length 1 n), leNat_leBytes hn']
  rw [hbytes, State.writeParse_decoded hrow hmode hv, rowRange_flag hty hrng hn]
  simp

/-- An accepted BOOLEAN stands in its object when the write acts. -/
theorem State.dictNum_flag {s : State} {p : Path} {idx sub base i n : Nat} {row : Row} (hp : s.serves p = true)
    (hsub : sub < 256) (hrow : findRow idx sub = some (base, i, row)) (hty : row.ty = .bool) (hrng : row.rng = .any)
    (hmode : modeTakes s.modeN row.acc = true) (hn : n ≤ 1) (hwo : row.wo = false) (hheld : notHeld (ky idx sub) = false)
    (hte : row.te = .imm) (hrel : ∀ b, (s.setn (ky idx sub) n).relCheck base i sub (.num n) b = none) :
    ∃ b, s.dictNum p idx sub n = State.act s ((s.setn (ky idx sub) n).answer .ok) p true idx base i sub (.num n) b := by
  have hput : s.writeVal (ky idx sub) row (.num n) = s.setn (ky idx sub) n := State.writeVal_held _ hwo hheld hte
  rw [← hput] at hrel ⊢
  exact ⟨_, State.dictWrite_accepted hp (State.writeParse_flag hsub hrow hty hrng hmode hn) (hrel _)⟩

/-! ## Objects of the Compositor, above those of the units -/

theorem State.relCheck_compositor {s : State} {base i sub : Nat} {v : Val} (b : Bytes) (hbase : 0x4A04 < base)
    (hline : s.relLine i (ky base sub) v.int.toNat v.int = none) (hhost : s.relHost i (ky base sub) v.int.toNat b = none) :
    s.relCheck base i sub v b = none := by
  unfold State.relCheck
  extract_lets key n
  rw [if_neg (by omega), if_neg (by omega), if_neg (by omega), show s.relLine i key n v.int = none from hline]
  exact hhost

theorem State.act_compositor {s0 s : State} {p : Path} {alone : Bool} {idx base i sub : Nat} {v : Val} (b : Bytes)
    (hbase : 0x4A04 < base) :
    State.act s0 s p alone idx base i sub v b =
      (State.actLine s0 s p alone i (ky base sub) v.int.toNat v.int).actHost p alone i (ky base sub) v.int.toNat b := by
  have htrim : hasTrim base = false := by
    simp only [hasTrim, List.contains_eq_mem, List.mem_cons, List.not_mem_nil, or_false, decide_eq_false_iff_not]
    omega
  unfold State.act
  extract_lets key n t
  rw [if_neg (by omega), htrim, if_neg Bool.false_ne_true, if_neg (by omega)]

/-! ## Commits -/

/-- The access letters of a commit's execute object: a rotor table is committed in CONFIGURE and STANDBY, the others in all modes but
SAFE. -/
def commitModes : CommitKind → Nat
  | .rotorTable => 3
  | .template | .glyphSet => 31

theorem findRow_commit (k : CommitKind) :
    findRow (commitIdx k) 4 = some (commitIdx k, 0, ⟨4, 1, .uns 1, commitModes k, true, 0, .set [1], .imm⟩) := by
  cases k <;> decide

theorem State.relCheck_commit {s : State} {k : CommitKind} (b : Bytes) (hcheck : s.commitCheck k = none) :
    s.relCheck (commitIdx k) 0 4 (.num (1 : Nat)) b = none := by
  cases k with
  | template => exact State.relCheck_compositor b (by decide) hcheck rfl
  | glyphSet => exact State.relCheck_compositor b (by decide) hcheck rfl
  | rotorTable => exact State.relCheck_line b (by decide) (by decide) (by decide) hcheck rfl

theorem State.act_commit (s0 s : State) (p : Path) (idx : Nat) (k : CommitKind) (b : Bytes) :
    State.act s0 s p true idx (commitIdx k) 0 4 (.num (1 : Nat)) b = s.commitAct k p := by
  cases k with
  | template => exact State.act_compositor b (by decide)
  | glyphSet => exact State.act_compositor b (by decide)
  | rotorTable => exact State.act_line b (by decide) (by decide) (by decide) rfl

/-- A commit whose staged image passes its checks is answered and acts. -/
theorem State.dictNum_commit {s : State} {p : Path} {k : CommitKind} (hp : s.serves p = true)
    (hmode : modeTakes s.modeN (commitModes k) = true) (hcheck : s.commitCheck k = none) :
    s.dictNum p (commitIdx k) 4 1 = (s.answer .ok).commitAct k p := by
  obtain ⟨b, hact⟩ := State.dictNum_accepted (w := 1) (n := 1) hp (by decide) (findRow_commit k) rfl hmode (by decide) rfl
    fun b => State.relCheck_commit b hcheck
  exact hact.trans (State.act_commit ..)

/-- CONFIGURE and STANDBY take a write of this row (access letters CS). -/
theorem modeTakes_setup {m : Nat} (hlow : 2 ≤ m) (hhigh : m ≤ 3) : modeTakes m 3 = true := by
  interval_cases m <;> rfl

/-! ## Pins and the query number -/

theorem findRow_pin (n : Fin 64) : findRow (0x5010 + n) 2 = some (0x5010, n.val, ⟨2, 1, .bool, 15, false, 0, .any, .imm⟩) := by
  revert n
  decide +kernel

theorem notHeld_pin (n : Fin 64) : notHeld (ky (0x5010 + n) 2) = false := by
  revert n
  decide +kernel

theorem findRow_query : findRow 0x5003 1 = some (0x5003, 0, ⟨1, 1, .uns 2, 31, false, 0, .rng 0 4095, .imm⟩) := by decide

theorem notHeld_query : notHeld (ky 0x5003 1) = false := by decide

theorem State.act_pin (s0 s : State) (p : Path) (idx n v : Nat) (b : Bytes) :
    State.act s0 s p true idx 0x5010 n 2 (.num v) b = s.pinAct n (s0.pinned n) :=
  State.act_compositor b (by decide)

theorem State.act_query (s0 s : State) (p : Path) (idx v : Nat) (b : Bytes) :
    State.act s0 s p true idx 0x5003 0 1 (.num v) b = s :=
  State.act_compositor b (by decide)

/-- A pin that its check accepts stands in its object and acts (R107). -/
theorem State.dictNum_pin {s : State} {p : Path} {n : Fin 64} {v : Nat} (hp : s.serves p = true) (hmode : s.modeN ≤ 5) (hv : v ≤ 1)
    (hcheck : (s.setn (ky (0x5010 + n) 2) v).pinCheck n v = none) :
    s.dictNum p (0x5010 + n) 2 v = ((s.setn (ky (0x5010 + n) 2) v).answer .ok).pinAct n (s.pinned n) := by
  obtain ⟨b, hact⟩ := State.dictNum_flag hp (by decide) (findRow_pin n) rfl rfl
    (modeTakes_notService (State.modeN_of_serves hp) hmode) hv rfl (notHeld_pin n) rfl
    fun b => State.relCheck_compositor b (by decide) hcheck rfl
  exact hact.trans (State.act_pin ..)

/-- A template's number stands in the query object (R117). -/
theorem State.dictNum_query {s : State} {p : Path} {v : Nat} (hp : s.serves p = true) (hmode : s.modeN ≤ 6) (hv : v ≤ 4095) :
    s.dictNum p 0x5003 1 v = (s.setn (ky 0x5003 1) v).answer .ok := by
  obtain ⟨b, hact⟩ := State.dictNum_held (w := 2) (n := v) hp (by decide) findRow_query rfl
    (modeTakes_notSafe (State.modeN_of_serves hp) hmode) (by omega) (rowRange_between rfl rfl (by omega) ⟨by omega, by omega⟩)
    rfl notHeld_query rfl fun b => State.relCheck_compositor b (by decide) rfl rfl
  exact hact.trans (State.act_query ..)

/-- A validation that runs ends: its image is stored or its failure is reported, and the commit is answered (R85, R86). -/
theorem execCommitValidationDone_running {t : Time} {s0 : State} {k : CommitKind} {x : Commit}
    (hrun : (s0.tick t).committing k = some x) :
    exec (.commitValidationDone t k) s0 = .next (
      let r := ((s0.tick t).setCommitting k none).endCommit k x
      r.2.answer (if r.1 then .ok else .refused .range)) := by
  change execCommitValidationDone t k s0 = _
  simp only [execCommitValidationDone, hrun]

/-- Settles O10, command by command: each hypothesis is one check that the write passes. -/
theorem commitCommands : Obligations.CommitCommands := by
  unfold Obligations.CommitCommands
  refine ⟨?template, ?glyphSet, ?rotorTable, ?pin, ?query, ?validated⟩
  case template =>
    intro t s0 p s hp hmode hcheck
    exact congrArg Host.Outcome.next
      (State.dictNum_commit (k := .template) hp (modeTakes_notSafe (State.modeN_of_serves hp) hmode) hcheck)
  case glyphSet =>
    intro t s0 p s hp hmode hcheck
    exact congrArg Host.Outcome.next
      (State.dictNum_commit (k := .glyphSet) hp (modeTakes_notSafe (State.modeN_of_serves hp) hmode) hcheck)
  case rotorTable =>
    intro t s0 p s hp hmode hcheck
    exact congrArg Host.Outcome.next
      (State.dictNum_commit (k := .rotorTable) hp (modeTakes_setup (State.modeN_of_serves hp) hmode) hcheck)
  case pin =>
    intro t s0 p n v s hp hmode hv hcheck
    exact congrArg Host.Outcome.next (State.dictNum_pin hp hmode hv hcheck)
  case query =>
    intro t s0 p v s hp hmode hv
    exact congrArg Host.Outcome.next (State.dictNum_query hp hmode hv)
  case validated =>
    intro t s0 k x s r hrun
    exact execCommitValidationDone_running hrun

end Sys2Proof.Machine

namespace Sys2Proof.Machine

/-! # Fills, units and refills of the Compositor (R105, R107, R108, R110, R114) -/

/-- A type-case block is filled: it stands in front of the unpinned blocks, as many as the pinned sets leave room for (R107). -/
def State.blockFilled (s : State) (b : Nat × Nat × Nat) : State :=
  { s with comp := { s.comp with
      fills := s.comp.fills.filter (· != b)
      blocks := (b :: s.comp.blocks.filter (· != b)).take (65536 - cdiv (s.pinnedBytes 64) 64) } }

/-- A block is at hand: a mark that waits for it waits no longer (R108). -/
def State.blockReady (s : State) (b : Nat × Nat × Nat) (x : Nat × Mark) : State :=
  if x.2.need.contains b then s.setPend x.1 { x.2 with need := x.2.need.filter (· != b), have_ := b :: x.2.have_ } else s

/-- A fill that is under way ends for every mark that composes. -/
theorem execTypeCaseFillDone_running {t : Time} {s0 : State} {n k : Nat} {b : Nat × Nat × Nat}
    (hfill : (s0.tick t).comp.fills.find? (fun b => b.1 = n ∧ b.2.2 = k) = some b) :
    exec (.typeCaseFillDone t n k) s0 = .next (
      let u := (s0.tick t).blockFilled b
      u.composing.foldl (fun s x => s.blockReady b x) u) := by
  change execTypeCaseFillDone t n k s0 = _
  simp only [execTypeCaseFillDone, hfill]
  rfl

/-- The jobs that unit `k` may take, its own and, while it holds fewer than two, those of no unit, with their urgencies (R110). -/
def State.unitJobs (s : State) (k : Nat) : List (Int × Nat × Mark) :=
  s.jobs.filterMap fun x =>
    if s.workable x.2 && (x.2.unit == some k || (x.2.unit.isNone && decide ((s.jobs.filter (fun p => p.2.unit = some k)).length < 2)))
    then some (s.jobUrgency x.1 x.2, x.1, x.2) else none

/-- The most urgent of the jobs that a unit may take is the one that it works on. -/
theorem execCompositionUnitDispatch_job {t : Time} {s0 : State} {k : Fin 8} {pr : Int} {n : Nat} {m : Mark} {tp : Template}
    (hjob : bestJob (((s0.tick t).applyChanges t).unitJobs k) = some (pr, n, m)) (htpl : m.tpl = some tp) :
    exec (.compositionUnitDispatch t k) s0 = .next (((s0.tick t).applyChanges t).unitWork k n m tp) := by
  change execCompositionUnitDispatch t k s0 = _
  rw [State.unitJobs] at hjob
  simp only [execCompositionUnitDispatch, hjob, htpl]

/-- Settles O11, event by event: each hypothesis is the condition under which its event occurs. -/
theorem compositorEvents : Obligations.CompositorEvents := by
  unfold Obligations.CompositorEvents
  refine ⟨?fill, ?unit, fun _ _ _ _ => rfl⟩
  case fill =>
    intro t s0 n k b s u hfill
    exact execTypeCaseFillDone_running hfill
  case unit =>
    intro t s0 k pr n m tp s u hjob htpl
    exact execCompositionUnitDispatch_job hjob htpl

end Sys2Proof.Machine

namespace Sys2Proof.Machine

/-! # Every command runs (R119) -/

/-- Settles O49, from what each command keeps. -/
theorem everyCommandRuns : Obligations.EveryCommandRuns := by
  unfold Obligations.EveryCommandRuns
  intro k s
  obtain ⟨u, hrun, hkeep⟩ := exec_keeps k s
  exact ⟨u, hrun, hkeep.queue, hkeep.time⟩

end Sys2Proof.Machine

namespace Sys2Proof.Machine

/-! # Tallies (R129, R131, R132) -/

/-! ## A tally without persistence -/

/-- Without persistence no mark is waited for. -/
theorem State.talWaits_of_unguarded {s : State} {n : Nat} (hguard : s.talGuard n = 0) : s.talWaits n = false := by
  simp [State.talWaits, hguard]

/-- Without persistence nothing follows an advance. -/
theorem State.talAfter_of_unguarded {s : State} {n : Nat} (hguard : s.talGuard n = 0) : s.talAfter n = s := by
  have hmark : s.talMark n = s := if_neg fun ⟨hset, _⟩ => hset hguard
  rw [State.talAfter, hmark, if_neg (by rw [State.talWaits_of_unguarded hguard]; exact Bool.false_ne_true)]

@[simp] theorem State.talGuard_setn (s : State) (k : Nat) (v : Int) (n : Nat) : (s.setn k v).talGuard n = s.talGuard n :=
  s.setn_frcN ..

@[simp] theorem State.talGuard_event (s : State) (src cause inst : Nat) (data : Bytes) (n : Nat) :
    (s.event src cause inst data).talGuard n = s.talGuard n :=
  s.event_frcN ..

theorem State.talDraw_held {s : State} {n : Nat} (hheld : (s.talOf n).held = true) :
    s.talDraw n = (s.nat (oTal n 0), true, s) := if_pos hheld

/-- Past its limit a tally does what its end mode says: it is held, restarts with an event, or restarts without one (R129). -/
def State.talEnded (s : State) (n : Nat) : State :=
  if s.nat (oTal n 5) = 1 then (s.setTal n { s.talOf n with held := true }).event 0xDE 0 n
  else if s.nat (oTal n 5) = 2 then (s.setn (oTal n 0) (s.num (oTal n 2))).event 0xDE 0 n
  else s.setn (oTal n 0) (s.num (oTal n 2))

section Unguarded
variable {s : State} {n : Nat} (hheld : (s.talOf n).held = false) (hguard : s.talGuard n = 0)
include hheld hguard

theorem State.talDraw_within (hlim : s.nat (oTal n 0) + s.nat (oTal n 4) ≤ s.talLimit n) :
    s.talDraw n = (s.nat (oTal n 0), false, s.setn (oTal n 0) ((s.nat (oTal n 0) + s.nat (oTal n 4) : Nat) : Int)) := by
  simp only [State.talDraw, hheld, State.talWaits_of_unguarded hguard, Bool.false_eq_true, if_false, if_pos hlim]
  rw [State.talAfter_of_unguarded (by simpa using hguard)]

theorem State.talDraw_past (hpast : s.talLimit n < s.nat (oTal n 0) + s.nat (oTal n 4)) :
    s.talDraw n = (s.nat (oTal n 0), false, s.talEnded n) := by
  simp only [State.talDraw, hheld, State.talWaits_of_unguarded hguard, Bool.false_eq_true, if_false, if_neg hpast.not_ge]
  split
  next hmode => rw [State.talEnded, if_pos hmode]
  next hmode =>
    rw [State.talAfter_of_unguarded (by simpa using hguard), State.talEnded, if_neg (by rw [hmode]; decide), if_pos hmode]
  next hnotHold hnotEvent =>
    rw [State.talAfter_of_unguarded (by simpa using hguard), State.talEnded, if_neg hnotHold, if_neg hnotEvent]

end Unguarded

theorem State.talEnded_held {s : State} {n : Nat} (hmode : s.nat (oTal n 5) = 1) :
    s.talEnded n = (s.setTal n { s.talOf n with held := true }).event 0xDE 0 n := if_pos hmode

theorem State.talEnded_restart_event {s : State} {n : Nat} (hmode : s.nat (oTal n 5) = 2) :
    s.talEnded n = (s.setn (oTal n 0) (s.num (oTal n 2))).event 0xDE 0 n := by
  simp [State.talEnded, hmode]

theorem State.talEnded_restart {s : State} {n : Nat} (hmode : s.nat (oTal n 5) = 0) :
    s.talEnded n = s.setn (oTal n 0) (s.num (oTal n 2)) := by
  simp [State.talEnded, hmode]

/-! ## What a draw leaves alone -/

/-- Two tallies share no object (R135). -/
theorem oTal_ne_oTal {m n : Nat} (hm : m ≠ n) {sub : Nat} (hsub : sub ≤ 8) : oTal m 0 ≠ oTal n sub := by
  unfold oTal ky
  split <;> split <;> omega

/-- Between `s` and `u` nothing of a tally other than `n` changes, and nothing in memory. -/
structure KeepsTallies (n : Nat) (s u : State) : Prop where
  record : ∀ m, m ≠ n → u.talOf m = s.talOf m
  value : ∀ m, m ≠ n → u.nat (oTal m 0) = s.nat (oTal m 0)
  mem : u.mem = s.mem

namespace KeepsTallies

variable {n : Nat} {s u v : State}

theorem refl (n : Nat) (s : State) : KeepsTallies n s s := ⟨fun _ _ => rfl, fun _ _ => rfl, rfl⟩

theorem ite {p : Prop} [Decidable p] (h : KeepsTallies n s u) (g : KeepsTallies n s v) :
    KeepsTallies n s (if p then u else v) := by
  split
  · exact h
  · exact g

theorem event (h : KeepsTallies n s u) (src cause inst : Nat) : KeepsTallies n s (u.event src cause inst) where
  record m hm := (State.event_talOf ..).trans (h.record m hm)
  value m hm := (State.event_nat ..).trans (h.value m hm)
  mem := (State.event_mem ..).trans h.mem

/-- The record of tally `n` itself. -/
theorem setTal (h : KeepsTallies n s u) (x : Tal) : KeepsTallies n s (u.setTal n x) where
  record m hm := by rw [State.talOf_setTal, if_neg hm]; exact h.record m hm
  value := h.value
  mem := h.mem

/-- An object of tally `n` itself. -/
theorem setn (h : KeepsTallies n s u) (sub : Nat) (x : Int) (hsub : sub ≤ 8 := by decide) :
    KeepsTallies n s (u.setn (oTal n sub) x) where
  record := h.record
  value m hm := (State.nat_setn_ne u x (oTal_ne_oTal hm hsub)).trans (h.value m hm)
  mem := h.mem

theorem talMark (h : KeepsTallies n s u) : KeepsTallies n s (u.talMark n) := by
  unfold State.talMark
  extract_lets x g s1
  have h1 : KeepsTallies n s s1 := h.setTal _
  exact .ite ⟨h1.record, h1.value, h1.mem⟩ h

theorem talAfter (h : KeepsTallies n s u) : KeepsTallies n s (u.talAfter n) := by
  unfold State.talAfter
  exact .ite ((h.talMark.setn 8 _).event ..) h.talMark

theorem talDraw (h : KeepsTallies n s u) : KeepsTallies n s (u.talDraw n).2.2 := by
  unfold State.talDraw
  extract_lets x v v'
  split
  case isTrue => exact h
  split
  case isTrue => exact h
  split
  case isTrue => exact (h.setn 0 _).talAfter
  split
  · exact (h.setTal _).event ..
  · exact ((h.setn 0 _).event ..).talAfter
  · exact (h.setn 0 _).talAfter

end KeepsTallies

/-- Settles O7: the draw case by case, and its frame. -/
theorem tallyDraw : Obligations.TallyDraw := by
  unfold Obligations.TallyDraw
  refine ⟨fun _ _ => State.talDraw_held, fun _ _ => State.talDraw_within, ?held, ?restartEvent, ?restart, ?others, ?frame⟩
  case held =>
    intro s n hheld hguard hpast hmode
    rw [State.talDraw_past hheld hguard hpast, State.talEnded_held hmode]
  case restartEvent =>
    intro s n hheld hguard hpast hmode
    rw [State.talDraw_past hheld hguard hpast, State.talEnded_restart_event hmode]
  case restart =>
    intro s n hheld hguard hpast hmode
    rw [State.talDraw_past hheld hguard hpast, State.talEnded_restart hmode]
  case others =>
    intro s n m hm
    have hkeep : KeepsTallies n s (s.talDraw n).2.2 := (KeepsTallies.refl n s).talDraw
    have hm' : (m : Nat) ≠ n := Fin.val_ne_of_ne hm
    exact ⟨hkeep.record m hm', hkeep.value m hm'⟩
  case frame =>
    intro s n
    exact ⟨(KeepsTallies.refl n s).talDraw.mem, ((Keeps.refl s).talDraw n).queue⟩

/-- A confirmed mark becomes the saved one. -/
theorem execPersistMarkConfirmed_pending {t : Time} {s0 : State} {n : Fin 256} {m : Nat}
    (hpend : ((s0.tick t).talOf n).pend = some m) :
    exec (.persistMarkConfirmed t n) s0 =
      .next (((s0.tick t).setTal n { (s0.tick t).talOf n with mark := m, pend := none }).talMark n) := by
  change execPersistMarkConfirmed t n s0 = _
  simp only [execPersistMarkConfirmed, hpend]

/-- Settles O6, command by command: each hypothesis is the condition under which its command acts. -/
theorem tallyCommands : Obligations.TallyCommands := by
  unfold Obligations.TallyCommands
  refine ⟨?read, ?confirmed⟩
  case read =>
    intro t s0 n s v hmode
    exact if_neg hmode
  case confirmed =>
    intro t s0 n m s x hpend
    exact execPersistMarkConfirmed_pending hpend

end Sys2Proof.Machine

namespace Sys2Proof.Machine

/-! # Device time (R119 to R124) -/

/-- Between `s` and `u` device time is not stepped, the time of the last offset stays, and so do memory, casements and faults. -/
structure KeepsEpoch (s u : State) : Prop where
  epoch : u.clk.epoch = s.clk.epoch
  mono : u.clk.mono = s.clk.mono
  offsetT : u.clk.offsetT = s.clk.offsetT
  mem : u.mem = s.mem
  cas : u.cas = s.cas
  flt : u.flt = s.flt

namespace KeepsEpoch

variable {s u v : State}

theorem refl (s : State) : KeepsEpoch s s := ⟨rfl, rfl, rfl, rfl, rfl, rfl⟩

theorem ite {p : Prop} [Decidable p] (h : KeepsEpoch s u) (g : KeepsEpoch s v) : KeepsEpoch s (if p then u else v) := by
  split
  · exact h
  · exact g

/-- Another field of the clock, or another part of the state. -/
theorem update (h : KeepsEpoch s u)
    (e : (v.clk.epoch, v.clk.mono, v.clk.offsetT, v.mem, v.cas, v.flt) =
      (u.clk.epoch, u.clk.mono, u.clk.offsetT, u.mem, u.cas, u.flt)) : KeepsEpoch s v := by
  obtain ⟨hepoch, hmono, hoffset, hmem, hcas, hflt⟩ : _ ∧ _ ∧ _ ∧ _ ∧ _ ∧ _ := by simpa only [Prod.mk.injEq] using e
  exact ⟨hepoch.trans h.epoch, hmono.trans h.mono, hoffset.trans h.offsetT, hmem.trans h.mem, hcas.trans h.cas, hflt.trans h.flt⟩

theorem event (h : KeepsEpoch s u) (src cause inst : Nat) (data : Bytes := []) : KeepsEpoch s (u.event src cause inst data) := by
  obtain ⟨host, e⟩ := u.event_host_only src cause inst data
  rw [e]
  exact h.update rfl

theorem setSource (h : KeepsEpoch s u) (v : Nat) : KeepsEpoch s (u.setSource v) := by
  unfold State.setSource
  have hset : KeepsEpoch s (u.setn (ky 0x2300 2) v) := h.update rfl
  exact .ite h (hset.event ..)

theorem setDec (h : KeepsEpoch s u) (k : Nat) (v : Val) : KeepsEpoch s (u.setDec k v) := h.update rfl

/-- Device time is the count from the epoch on. -/
theorem dev (h : KeepsEpoch s u) : u.dev = s.dev := by
  rw [State.dev, State.dev, State.devOf, State.devOf, h.epoch, h.mono]

/-- A step moves the epoch alone (R119). -/
theorem stepTime (s : State) (d : Int) : KeepsEpoch { s with clk := { s.clk with epoch := s.clk.epoch + d } } (s.stepTime d) := by
  unfold State.stepTime
  exact (refl _).event _ _ _ _

end KeepsEpoch

/-- Device time goes by the step. -/
theorem State.stepTime_dev (s : State) (d : Int) : (s.stepTime d).dev = s.dev + d :=
  (KeepsEpoch.stepTime s d).dev.trans (add_assoc _ _ _).symm

/-- The present offset and its time, noted before device time is set right (R122). -/
def State.offsetNoted (s : State) (theta : Int) : State :=
  let s := s.setn (ky 0x2308 0x0B) theta
  { s with clk := { s.clk with offsetT := some s.now } }

/-- An offset above the threshold: what follows the step, the lock and the offset of UTC, steps device time no further. -/
theorem State.ptpOffset_steps {s : State} {theta : Int} (utc : Option Int) (hon : s.nat (ky 0x2302 1) = 1)
    (hfar : s.num (ky 0x2302 2) < (theta.natAbs : Int)) :
    KeepsEpoch ((s.offsetNoted theta).stepTime (-theta)) (s.ptpOffset theta utc) := by
  have hfar' : (s.offsetNoted theta).num (ky 0x2302 2) < (theta.natAbs : Int) := by
    rwa [show (s.offsetNoted theta).num (ky 0x2302 2) = s.num (ky 0x2302 2) from s.num_setn_ne theta (by decide)]
  unfold State.ptpOffset
  rw [if_neg (not_not.mpr hon)]
  extract_lets s1 _ s2 _ s3 n _ s4 _ s5
  have hs3 : s3 = (s.offsetNoted theta).stepTime (-theta) := if_pos hfar'
  rw [← hs3]
  have h4 : KeepsEpoch s3 s4 := (KeepsEpoch.refl s3).update rfl
  have h4' : KeepsEpoch s3 { s4 with clk := { s4.clk with holdT := none } } := h4.update rfl
  have h5 : KeepsEpoch s3 s5 := .ite (h4'.setSource 3) h4
  split
  · exact .ite h5 (h5.setDec ..)
  · exact h5

/-- What an offset above the threshold does to device time, and what it leaves (R119, R122). -/
theorem State.ptpOffset_far {s : State} {theta : Int} (utc : Option Int) (hon : s.nat (ky 0x2302 1) = 1)
    (hfar : s.num (ky 0x2302 2) < (theta.natAbs : Int)) :
    (s.ptpOffset theta utc).dev = s.dev - theta ∧ (s.ptpOffset theta utc).clk.mono = s.clk.mono ∧
      (s.ptpOffset theta utc).clk.offsetT = some s.now ∧ (s.ptpOffset theta utc).mem = s.mem ∧
      (s.ptpOffset theta utc).cas = s.cas ∧ (s.ptpOffset theta utc).flt = s.flt := by
  have h := State.ptpOffset_steps utc hon hfar
  have hstep := KeepsEpoch.stepTime (s.offsetNoted theta) (-theta)
  exact ⟨h.dev.trans (State.stepTime_dev ..), h.mono.trans hstep.mono, h.offsetT.trans hstep.offsetT, h.mem.trans hstep.mem,
    h.cas.trans hstep.cas, h.flt.trans hstep.flt⟩

/-! ## Commands that act at an instant -/

section Instants
variable {t : Time} {s0 : State}

theorem execStagedTimeApply_due {w : Nat} {u : Time} (hstaged : (s0.tick t).clk.staged = some (w, u)) (hwait : u + nsT 1 ≤ t)
    (hsecond : (s0.tick t).dev % 1000000000 = 0) :
    exec (.stagedTimeApply t) s0 = .next ((s0.tick t).applyTime w) := by
  change execStagedTimeApply t s0 = _
  simp only [execStagedTimeApply, hstaged]
  exact if_pos ⟨hwait, hsecond⟩

theorem execPtpHoldoverTimeout_due {o : Time} (hoffset : (s0.tick t).clk.offsetT = some o)
    (hlocked : (s0.tick t).nat (ky 0x2300 2) = 3) (hsilent : o + msT ((s0.tick t).nat (ky 0x2302 5)) ≤ t) :
    exec (.ptpHoldoverTimeout t) s0 =
      .next ({ s0.tick t with clk := { (s0.tick t).clk with holdT := some t, lockN := 0 } }.setSource 4) := by
  change execPtpHoldoverTimeout t s0 = _
  simp only [execPtpHoldoverTimeout, hoffset]
  exact if_pos ⟨hlocked, hsilent⟩

theorem execHoldoverExpiry_due {h : Time} (hhold : (s0.tick t).clk.holdT = some h)
    (hsource : (s0.tick t).nat (ky 0x2300 2) = 4) (hrun : h + secT 60 ≤ t) :
    exec (.holdoverExpiry t) s0 =
      .next ({ s0.tick t with clk := { (s0.tick t).clk with holdT := none } }.setSource 2) := by
  change execHoldoverExpiry t s0 = _
  simp only [execHoldoverExpiry, hhold]
  exact if_pos ⟨hsource, hrun⟩

end Instants

/-- Settles O4, command by command: each hypothesis is the condition under which its command acts. -/
theorem timeCommands : Obligations.TimeCommands := by
  unfold Obligations.TimeCommands
  refine ⟨?staged, ?offset, ?silence, ?holdover, ?realign, ?trim, ?snapshot⟩
  case staged =>
    intro t s0 w u s hstaged hwait hsecond
    exact execStagedTimeApply_due hstaged hwait hsecond
  case offset =>
    intro t s0 theta utc s hon hfar
    exact ⟨_, rfl, State.ptpOffset_far utc hon hfar⟩
  case silence =>
    intro t s0 o s hoffset hlocked hsilent
    exact execPtpHoldoverTimeout_due hoffset hlocked hsilent
  case holdover =>
    intro t s0 h s hhold hsource hrun
    exact execHoldoverExpiry_due hhold hsource hrun
  case realign =>
    intro t s0 s hset hlast hminute
    exact if_pos ⟨hset, hlast, hminute⟩
  case trim =>
    intro t s0 s u tot hrun
    exact if_neg hrun.not_gt
  case snapshot =>
    intro t s0 s hmode
    exact if_neg hmode

end Sys2Proof.Machine

namespace Sys2Proof.Machine

/-! # Leap seconds, daylight time and shifts (R125, R126, R128) -/

/-- A leap-second entry takes effect: its event is raised unless it was raised for this second less than a second ago. -/
theorem execLeapSecondApply_due {t : Time} {s0 : State}
    (hentry : (leapList (s0.tick t).calNow).any (fun e => e.1 = (s0.tick t).dev / 1000000000) = true)
    (honce : ∀ p : Int × Time, (s0.tick t).clk.leapAt = some p → p.1 = (s0.tick t).dev / 1000000000 → p.2 + secT 1 ≤ t) :
    exec (.leapSecondApply t) s0 = .next
      ({ s0.tick t with clk := { (s0.tick t).clk with leapAt := some ((s0.tick t).dev / 1000000000, t) } }.event 0xDA 0 0) := by
  change execLeapSecondApply t s0 = _
  unfold execLeapSecondApply
  extract_lets s tai again
  have hagain : again = false := by
    unfold again
    split
    next e u hleap => exact decide_eq_false fun ⟨he, hearly⟩ => (honce (e, u) hleap he).not_gt hearly
    next => rfl
  exact if_pos (by rw [hagain, Bool.not_false, Bool.and_true]; exact hentry)

/-- Settles O5, event by event: each hypothesis is the condition under which its event occurs. -/
theorem calendarEvents : Obligations.CalendarEvents := by
  unfold Obligations.CalendarEvents
  refine ⟨?leap, ?daylight, ?shift⟩
  case leap =>
    intro t s0 s tai hentry honce
    exact execLeapSecondApply_due hentry honce
  case daylight =>
    intro t s0 s d hchange
    exact if_neg hchange
  case shift =>
    intro t s0 s x hchange
    exact if_neg hchange

end Sys2Proof.Machine

namespace Sys2Proof.Machine

/-! # The Notary's commands and operations (R136 to R149, R331) -/

/-! ## The execute objects of an import, a revocation and a verification -/

theorem findRow_keyImport : findRow 0x5201 3 = some (0x5201, 0, ⟨3, 1, .uns 1, 1, true, 0, .set [1], .imm⟩) := by decide

theorem findRow_keyRevoke : findRow 0x5202 2 = some (0x5202, 0, ⟨2, 1, .uns 1, 3, true, 0, .set [0x5A], .decision⟩) := by decide

theorem findRow_verify : findRow 0x5203 7 = some (0x5203, 0, ⟨7, 1, .uns 1, 31, true, 0, .set [1], .imm⟩) := by decide

/-- CONFIGURE takes a write of this row (access letter C). -/
theorem modeTakes_configure {m : Nat} (h : m = 2) : modeTakes m 1 = true := by
  subst h
  rfl

/-- A command is not kept as a value of its object. -/
theorem State.writeVal_command {s : State} (k : Nat) {r : Row} (v : Val) (hwo : r.wo = true) (hte : (r.te != .sub) = true) :
    s.writeVal k r v = s :=
  if_pos (by rw [hwo, hte]; rfl)

/-- A row of one permitted value takes that value. -/
theorem rowRange_only {r : Row} {w n : Nat} (hty : r.ty = .uns w) (hrng : r.rng = .set [(n : Int)]) (hn : n < 2 ^ (8 * w)) :
    rowRange r (.num n) = true := by
  have hfits : (n : Int) < 2 ^ (8 * w) := by exact_mod_cast hn
  simp [rowRange, hty, hrng, hfits]

/-- An execute object of the Notary takes its one value `n` where its relation holds, and then acts. -/
theorem State.next_notaryExecute {s u : State} {p : Path} {idx sub acc n : Nat} {te : Te} (hp : s.serves p = true)
    (hrow : findRow idx sub = some (idx, 0, ⟨sub, 1, .uns 1, acc, true, 0, .set [(n : Int)], te⟩))
    (hmode : modeTakes s.modeN acc = true) (hline : s.relLine 0 (ky idx sub) n n = none)
    (hhost : ∀ b, s.relHost 0 (ky idx sub) n b = none)
    (hact : ∀ b, (State.actLine s (s.answer .ok) p true 0 (ky idx sub) n n).actHost p true 0 (ky idx sub) n b = u)
    (hplace : 0x4A04 < idx ∧ sub < 256 := by decide) (hn : n < 256 := by decide) (hte : (te != .sub) = true := by decide) :
    (.next (s.dictNum p idx sub n) : Step) = .next u := by
  obtain ⟨hidx, hsub⟩ := hplace
  have hput := State.writeVal_command (s := s) (r := ⟨sub, 1, .uns 1, acc, true, 0, .set [(n : Int)], te⟩) (ky idx sub) (.num n) rfl hte
  obtain ⟨b, hwrite⟩ := State.dictNum_accepted hp hsub hrow rfl hmode hn (rowRange_only rfl rfl hn) fun b => by
    rw [hput]
    exact State.relCheck_compositor b hidx hline (hhost b)
  rw [hwrite, hput, State.act_compositor b hidx]
  exact congrArg Host.Outcome.next (hact b)

theorem busyIf_false {b : Bool} (h : b = false) : busyIf b = none := by
  rw [h]
  rfl

/-! ## The dispatcher (R147) -/

theorem execNotaryDispatch_seal {t : Time} {s0 : State} {r : NReq} (hfree : (s0.tick t).notary.op = none)
    (hseal : nextSeal (s0.tick t).notary.queue = some r) :
    exec (.notaryDispatch t) s0 = .next (
      let n := (s0.tick t).notary
      let q := n.queue.filter (fun x => x.issue != r.issue)
      ((s0.tick t).setNotary { n with queue := q, op := some (.seal r false), startT := t, eccHit := false }).setn (ky 0x5200 1)
        (q.length : Nat)) := by
  change execNotaryDispatch t s0 = _
  simp only [execNotaryDispatch, Option.isSome_none, Bool.false_eq_true, if_false, hfree, hseal]

/-- An import is taken where no seal waits. -/
theorem execNotaryDispatch_import {t : Time} {s0 : State} {k : Nat} {x : Bytes} (hfree : (s0.tick t).notary.op = none)
    (hseal : nextSeal (s0.tick t).notary.queue = none) (himport : (s0.tick t).notary.import_ = some (k, x)) :
    exec (.notaryDispatch t) s0 = .next ((s0.tick t).setNotary
      { (s0.tick t).notary with import_ := none, op := some (.import_ k x), startT := t, eccHit := false }) := by
  change execNotaryDispatch t s0 = _
  simp only [execNotaryDispatch, Option.isSome_none, Bool.false_eq_true, if_false, hfree, hseal, himport]

/-- A verification is taken where neither a seal nor an import waits. -/
theorem execNotaryDispatch_verify {t : Time} {s0 : State} {v : VReq} (hfree : (s0.tick t).notary.op = none)
    (hseal : nextSeal (s0.tick t).notary.queue = none) (himport : (s0.tick t).notary.import_ = none)
    (hverify : (s0.tick t).notary.verify = some v) :
    exec (.notaryDispatch t) s0 = .next ((s0.tick t).setNotary
      { (s0.tick t).notary with verify := none, op := some (.verify v), startT := t, eccHit := false }) := by
  change execNotaryDispatch t s0 = _
  simp only [execNotaryDispatch, Option.isSome_none, Bool.false_eq_true, if_false, hfree, hseal, himport, hverify]

/-! ## The end of an operation (R136, R137) -/

/-- The unit is free again and has counted one operation more. -/
def State.notaryFreed (s : State) : State :=
  (s.setNotary { s.notary with op := none, eccHit := false }).bump (ky 0x5200 2)

theorem execNotaryOperationDone_seal {t : Time} {s0 : State} {r : NReq} (hop : (s0.tick t).notary.op = some (.seal r false))
    (hend : (s0.tick t).notary.startT + nsT 41600 ≤ t) :
    exec (.notaryOperationDone t) s0 = .next (
      let x := (s0.tick t).sealStatus r
      ((s0.tick t).notaryFreed.setn (ky 0x5200 5) (x.1 : Nat)).deliverSeal r x.1 x.2) := by
  change execNotaryOperationDone t s0 = _
  simp only [execNotaryOperationDone, hop, if_neg hend.not_gt]
  rfl

theorem execNotaryOperationDone_verify {t : Time} {s0 : State} {v : VReq} (hop : (s0.tick t).notary.op = some (.verify v))
    (hend : (s0.tick t).notary.startT + nsT 41600 ≤ t) :
    exec (.notaryOperationDone t) s0 = .next (
      let st := (s0.tick t).verifyStatus v
      ((s0.tick t).notaryFreed.setn (ky 0x5203 8) (st : Nat)).setn (ky 0x5200 5) (st : Nat)) := by
  change execNotaryOperationDone t s0 = _
  simp only [execNotaryOperationDone, hop, if_neg hend.not_gt]
  rfl

/-- An import that fails its checks shows its status and programs nothing. -/
theorem execNotaryOperationDone_importFails {t : Time} {s0 : State} {k : Nat} {x : Bytes}
    (hop : (s0.tick t).notary.op = some (.import_ k x)) (hend : (s0.tick t).notary.startT + nsT 41600 ≤ t)
    (hfails : (s0.tick t).importStatus k x ≠ 0) :
    exec (.notaryOperationDone t) s0 = .next (
      let st := (s0.tick t).importStatus k x
      ((s0.tick t).notaryFreed.setn (ky 0x5201 4) (st : Nat)).setn (ky 0x5200 5) (st : Nat)) := by
  change execNotaryOperationDone t s0 = _
  simp only [execNotaryOperationDone, hop, if_neg hend.not_gt, if_pos hfails]
  rfl

/-- Settles O12, command by command: each hypothesis is one check that the write passes, or the state of the Notary in which its event
occurs. -/
theorem notaryCommands : Obligations.NotaryCommands := by
  unfold Obligations.NotaryCommands
  refine ⟨?keyImport, ?keyRevoke, ?verifyMessage, ?sealTaken, ?importTaken, ?verifyTaken, ?sealDone, ?verifyDone, ?importFails⟩
  case keyImport =>
    intro t s0 p s hp hmode hidle
    exact State.next_notaryExecute hp findRow_keyImport (modeTakes_configure hmode) (busyIf_false hidle) (fun _ => rfl) fun _ => rfl
  case keyRevoke =>
    intro t s0 p s hp hmode hidle
    exact State.next_notaryExecute hp findRow_keyRevoke (modeTakes_setup (State.modeN_of_serves hp) hmode) (busyIf_false hidle)
      (fun _ => rfl) fun _ => rfl
  case verifyMessage =>
    intro t s0 p s hp hmode hcheck
    exact State.next_notaryExecute hp findRow_verify (modeTakes_notSafe (State.modeN_of_serves hp) hmode) hcheck
      (fun _ => rfl) fun _ => rfl
  case sealTaken =>
    intro t s0 r s n q hfree hseal
    exact execNotaryDispatch_seal hfree hseal
  case importTaken =>
    intro t s0 k x s n hfree hseal himport
    exact execNotaryDispatch_import hfree hseal himport
  case verifyTaken =>
    intro t s0 v s n hfree hseal himport hverify
    exact execNotaryDispatch_verify hfree hseal himport hverify
  case sealDone =>
    intro t s0 r s n u hop hend
    exact execNotaryOperationDone_seal hop hend
  case verifyDone =>
    intro t s0 v s n u st hop hend
    exact execNotaryOperationDone_verify hop hend
  case importFails =>
    intro t s0 k x s n u st hop hend hfails
    exact execNotaryOperationDone_importFails hop hend hfails

end Sys2Proof.Machine

namespace Sys2Proof.Machine

/-! # The sill line and its service requests (R171 to R175, R184, R331) -/

/-! ## Service requests -/

theorem findRow_service (c : Fin 48) :
    findRow (0x3000 + 0x20 * c + 5) 7 = some (0x3005, c.val, ⟨7, 1, .uns 1, 16, true, 0, .set [1, 2], .imm⟩) := by
  revert c
  decide +kernel

/-- SERVICE takes a write of this row (access letter V). -/
theorem modeTakes_service {m : Nat} (h : m = 6) : modeTakes m 16 = true := by
  subst h
  rfl

theorem rowRange_service {cmd : Nat} (h : cmd = 1 ∨ cmd = 2) :
    rowRange ⟨7, 1, .uns 1, 16, true, 0, .set [1, 2], .imm⟩ (.num cmd) = true := by
  rcases h with rfl | rfl <;> rfl

theorem State.relCheck_service {s : State} {c cmd : Nat} (b : Bytes) (hcheck : s.svcCheck c cmd = none) :
    s.relCheck 0x3005 c 7 (.num cmd) b = none := by
  unfold State.relCheck
  rw [if_neg (by decide), if_pos (by decide)]
  exact hcheck

theorem State.act_service (s0 s : State) (p : Path) (idx c cmd : Nat) (b : Bytes) :
    State.act s0 s p true idx 0x3005 c 7 (.num cmd) b = s.svcAct c cmd := by
  unfold State.act
  rw [if_neg (by decide), if_neg (by decide), if_pos (by decide)]
  rfl

/-- A service read (1) or write (2) that its check accepts is answered and asked for. -/
theorem State.dictNum_service {s : State} {p : Path} {c : Fin 48} {cmd : Nat} (hp : s.serves p = true) (hmode : s.modeN = 6)
    (hcheck : s.svcCheck c cmd = none) (hcmd : cmd = 1 ∨ cmd = 2) :
    s.dictNum p (0x3000 + 0x20 * c + 5) 7 cmd = (s.answer .ok).svcAct c cmd := by
  have hput := State.writeVal_command (s := s) (r := ⟨7, 1, .uns 1, 16, true, 0, .set [1, 2], .imm⟩)
    (ky (0x3000 + 0x20 * c + 5) 7) (.num cmd) rfl rfl
  obtain ⟨b, hact⟩ := State.dictNum_accepted (w := 1) (n := cmd) hp (by decide) (findRow_service c) rfl
    (modeTakes_service hmode) (by omega) (rowRange_service hcmd) fun b => by
      rw [hput]
      exact State.relCheck_service b hcheck
  rw [hact, hput, State.act_service]

/-! ## A transaction starts -/

/-- A counter ADD is ready once the identity check of its head has passed, any other request at once (R174). -/
def Cas.sillReady (x : Cas) : SillKind → Bool
  | .add _ _ q => x.recOk && q == serialOf x.recd
  | _ => true

/-- The request that an idle sill line starts: of those that are ready the first of the highest rank (R174). -/
def Cas.sillNext (x : Cas) : Option SillKind :=
  x.sillQ.foldl (fun (acc : Option SillKind) k =>
    if !x.sillReady k then acc
    else match acc with
      | none => some k
      | some b => if k.rank < b.rank then some k else some b) none

/-- A status other than OK and BUSY. -/
theorem sillStatus_error {st : Byte} (h : 2 ≤ st.toNat) : st ≠ 0 ∧ st ≠ 1 := by
  constructor <;> rintro rfl <;> exact absurd h (by decide)

section Sill
variable {t : Time} {s0 : State} {c : Fin 48}

theorem execSillTransactionStart_idle {k : SillKind} (hidle : ((s0.tick t).casOf c).sill = none)
    (hnext : ((s0.tick t).casOf c).sillNext = some k) :
    exec (.sillTransactionStart t c) s0 = .next (
      let x := (s0.tick t).casOf c
      ((s0.tick t).setCasement c { x with sill := some ⟨k, 0, 0, none⟩, sillQ := x.sillQ.erase k }).send
        (.sill c (sillWave (sillRequest k)))) := by
  change execSillTransactionStart t c s0 = _
  unfold execSillTransactionStart
  extract_lets s x ready best
  rw [show x.sill = none from hidle, show best = some k from hnext]

/-! ## A transaction ends or is repeated -/

variable {w : Sill} {r : SillReply} (hsill : ((s0.tick t).casOf c).sill = some w)
include hsill

/-- The full data of a good answer with status 0 ends the transaction. -/
theorem execSillTransactionDone_ok {d : Bytes} (hwait : w.retry = none) (hhear : sillHear r = some (0, d))
    (hlen : d.length = w.kind.answerLen) :
    exec (.sillTransactionDone t c r) s0 =
      .next (((s0.tick t).setCasement c { (s0.tick t).casOf c with sill := none }).sillOk c w.kind d) := by
  change execSillTransactionDone t c r s0 = _
  simp only [execSillTransactionDone, hsill, hwait, hhear, Option.isSome_none, Bool.false_eq_true, if_false, if_true, hlen]

/-- BUSY (status 1) repeats the transaction after 1 ms, at most 20 times. -/
theorem execSillTransactionDone_busy {d : Bytes} (hwait : w.retry = none) (hhear : sillHear r = some (1, d)) :
    exec (.sillTransactionDone t c r) s0 = .next (
      let x := (s0.tick t).casOf c
      if w.busy < 20 then
        (s0.tick t).setCasement c { x with sill := some { w with busy := w.busy + 1, retry := some (t + usT 1000) } }
      else ((s0.tick t).setCasement c { x with sill := none }).sillFailed c w.kind 0x10) := by
  have hbusy : (1 : Byte) ≠ 0 := by decide
  change execSillTransactionDone t c r s0 = _
  simp only [execSillTransactionDone, hsill, hwait, hhear, Option.isSome_none, Bool.false_eq_true, if_false, if_true, hbusy]

/-- Another status is the result of a service transaction (R184). -/
theorem execSillTransactionDone_serviceError {st : Byte} {d : Bytes} (hwait : w.retry = none)
    (hhear : sillHear r = some (st, d)) (hst : 2 ≤ st.toNat) (hsvc : w.kind.isService = true) :
    exec (.sillTransactionDone t c r) s0 =
      .next (((s0.tick t).setCasement c { (s0.tick t).casOf c with sill := none }).sillFailed c w.kind st.toNat) := by
  obtain ⟨hok, hbusy⟩ := sillStatus_error hst
  change execSillTransactionDone t c r s0 = _
  simp only [execSillTransactionDone, hsill, hwait, hhear, Option.isSome_none, Bool.false_eq_true, if_false, hok, hbusy, hsvc,
    if_true]

/-- What counts as a failure repeats the transaction after 100 us, at most twice. -/
theorem execSillTransactionDone_failed (hwait : w.retry = none)
    (hbad : sillHear r = none ∨ ∃ st d, sillHear r = some (st, d) ∧
      (st = 0 ∧ d.length ≠ w.kind.answerLen ∨ 2 ≤ st.toNat ∧ w.kind.isService = false)) :
    exec (.sillTransactionDone t c r) s0 = .next (
      let x := (s0.tick t).casOf c
      if w.fails < 2 then
        (s0.tick t).setCasement c { x with sill := some { w with fails := w.fails + 1, retry := some (t + usT 100) } }
      else ((s0.tick t).setCasement c { x with sill := none }).sillFailed c w.kind 0x10) := by
  change execSillTransactionDone t c r s0 = _
  obtain hnone | ⟨st, d, hhear, ⟨rfl, hlen⟩ | ⟨hst, hown⟩⟩ := hbad
  · simp only [execSillTransactionDone, hsill, hwait, hnone, Option.isSome_none, Bool.false_eq_true, if_false]
  · simp only [execSillTransactionDone, hsill, hwait, hhear, Option.isSome_none, Bool.false_eq_true, if_false, if_true, hlen]
  · obtain ⟨hok, hbusy⟩ := sillStatus_error hst
    simp only [execSillTransactionDone, hsill, hwait, hhear, Option.isSome_none, Bool.false_eq_true, if_false, hok, hbusy, hown]

/-- A transaction that waits to be repeated is sent again once its time has come. -/
theorem execSillRetry_due {u : Time} (hwait : w.retry = some u) (hdue : u ≤ t) :
    exec (.sillRetry t c) s0 =
      .next (((s0.tick t).setCasement c { (s0.tick t).casOf c with sill := some { w with retry := none } }).send
        (.sill c (sillWave (sillRequest w.kind)))) := by
  change execSillRetry t c s0 = _
  simp only [execSillRetry, hsill, hwait]
  exact if_pos (decide_eq_true hdue)

end Sill

/-- A configured port is polled where nothing waits or runs on its line (R175). -/
theorem execHeadPoll_due {t : Time} {s0 : State} {c : Fin 48} (hmode : 1 < (s0.tick t).modeN)
    (hconf : (s0.tick t).configured c = true) (hnone : ((s0.tick t).casOf c).sillQ = [])
    (hidle : ((s0.tick t).casOf c).sill = none) (hdue : elapsed ((s0.tick t).casOf c).pollT (msT 100) t = true) :
    exec (.headPoll t c) s0 =
      .next (((s0.tick t).setCasement c { (s0.tick t).casOf c with pollT := some t }).sillAsk c .poll) := by
  change execHeadPoll t c s0 = _
  simp only [execHeadPoll, State.running_of_mode hmode, hconf, hnone, hidle, hdue]
  rfl

/-- Settles O13, command by command: each hypothesis is one check that the write passes, or the state of the sill line in which its event
occurs. -/
theorem sillCommands : Obligations.SillCommands := by
  unfold Obligations.SillCommands
  refine ⟨?read, ?write, ?start, ?ok, ?busy, ?serviceError, ?failed, ?retry, ?poll⟩
  case read =>
    intro t s0 p c s hp hmode hcheck
    exact congrArg Host.Outcome.next (State.dictNum_service hp hmode hcheck (.inl rfl))
  case write =>
    intro t s0 p c s hp hmode hcheck
    exact congrArg Host.Outcome.next (State.dictNum_service hp hmode hcheck (.inr rfl))
  case start =>
    intro t s0 c k s x hidle hnext
    exact execSillTransactionStart_idle hidle hnext
  case ok =>
    intro t s0 c w r d s x hsill hwait hhear hlen
    exact execSillTransactionDone_ok hsill hwait hhear hlen
  case busy =>
    intro t s0 c w r d s x hsill hwait hhear
    exact execSillTransactionDone_busy hsill hwait hhear
  case serviceError =>
    intro t s0 c w r st d s x hsill hwait hhear hst hsvc
    exact execSillTransactionDone_serviceError hsill hwait hhear hst hsvc
  case failed =>
    intro t s0 c w r s x hsill hwait hbad
    exact execSillTransactionDone_failed hsill hwait hbad
  case retry =>
    intro t s0 c w u s x hsill hwait hdue
    exact execSillRetry_due hsill hwait hdue
  case poll =>
    intro t s0 c s x hmode hconf hnone hidle hdue
    exact execHeadPoll_due hmode hconf hnone hidle hdue

end Sys2Proof.Machine

namespace Sys2Proof.Machine

/-! # Analog inputs, training and the strobe checker (R153, R159, R163, R170, R178 to R182) -/

/-! ## A conversion whose turn it is -/

/-- The slot of a pin is taken: the round of its ADC goes on behind the pin, 200 ns later (R178). -/
def State.adcTaken (s : State) (t : Time) (c : Nat) (pin : AdcPin) : State :=
  { s with adc := tset (fun _ => (0, 0)) s.adc (c / 6) ((adcPlace c pin + 1) % 18, t + nsT 200) }

section Conversion
variable {t : Time} {s0 : State} {c : Fin 48} {code : Nat}

/-- A thermistor in range: its temperature through the head's table, checked against its window (R180 to R182). -/
theorem execAdcConversion_thermistor {rpu rt b : Nat}
    (hturn : (s0.tick t).adcTurn (c.val / 6) (adcPlace c .cth) t = true)
    (htable : (((s0.tick t).adcTaken t c .cth).casOf c).table = some (rpu, rt, b))
    (hlow : 15 < ((s0.tick t).adcTaken t c .cth).adcCode (c.val / 6) code)
    (hhigh : ((s0.tick t).adcTaken t c .cth).adcCode (c.val / 6) code < 4080) :
    exec (.adcConversion t c .cth code) s0 = .next (
      let a := (s0.tick t).adcTaken t c .cth
      let u := ((((a.analogBit c 0 0xD false).analogBit c 1 0xE false).setCasement c
        { a.casOf c with cthBad := false, cthT := some t }).setn (oCas c 6 3)
          (thermTemp rpu rt b (a.adcCode (c.val / 6) code))).setn (oCas c 6 5) (wrapU 64 (s0.tick t).dev)
      if u.windowKnown c then u.analogBit c 2 0xB (!u.tempIn c u.calNow) else u) := by
  change execAdcConversion t c .cth code s0 = _
  unfold State.adcTaken at *
  simp only [execAdcConversion, hturn, Bool.not_true, Bool.false_eq_true, if_false, htable, hlow.not_ge, hhigh.not_ge]
  rfl

theorem execAdcConversion_shorted (hturn : (s0.tick t).adcTurn (c.val / 6) (adcPlace c .cth) t = true)
    (htable : (((s0.tick t).adcTaken t c .cth).casOf c).table.isSome = true)
    (hlow : ((s0.tick t).adcTaken t c .cth).adcCode (c.val / 6) code ≤ 15) :
    exec (.adcConversion t c .cth code) s0 = .next (
      let a := (s0.tick t).adcTaken t c .cth
      ((a.setCasement c { a.casOf c with cthBad := true }).analogBit c 0 0xD false).analogBit c 1 0xE true) := by
  obtain ⟨y, hy⟩ := Option.isSome_iff_exists.mp htable
  change execAdcConversion t c .cth code s0 = _
  unfold State.adcTaken at *
  simp only [execAdcConversion, hturn, Bool.not_true, Bool.false_eq_true, if_false, hy, if_pos hlow]

theorem execAdcConversion_open (hturn : (s0.tick t).adcTurn (c.val / 6) (adcPlace c .cth) t = true)
    (htable : (((s0.tick t).adcTaken t c .cth).casOf c).table.isSome = true)
    (hhigh : 4080 ≤ ((s0.tick t).adcTaken t c .cth).adcCode (c.val / 6) code) :
    exec (.adcConversion t c .cth code) s0 = .next (
      let a := (s0.tick t).adcTaken t c .cth
      ((a.setCasement c { a.casOf c with cthBad := true }).analogBit c 1 0xE false).analogBit c 0 0xD true) := by
  obtain ⟨y, hy⟩ := Option.isSome_iff_exists.mp htable
  have hlow : ¬ ((s0.tick t).adcTaken t c .cth).adcCode (c.val / 6) code ≤ 15 := by omega
  change execAdcConversion t c .cth code s0 = _
  unfold State.adcTaken at *
  simp only [execAdcConversion, hturn, Bool.not_true, Bool.false_eq_true, if_false, hy, if_neg hlow, if_pos hhigh]

/-- A supply: its voltage from VDDA and the scale, checked against its window (R181, R182). -/
theorem execAdcConversion_supply (hturn : (s0.tick t).adcTurn (c.val / 6) (adcPlace c .cvs) t = true) :
    exec (.adcConversion t c .cvs code) s0 = .next (
      let a := (s0.tick t).adcTaken t c .cvs
      let u := ((a.setCasement c { a.casOf c with cvsT := some t }).setn (oCas c 6 4)
        (a.adcCode (c.val / 6) code * a.vddaOf (c.val / 6) * a.nat (oCas c 6 2) / (4096 * 65536) : Nat)).setn (oCas c 6 6)
          (wrapU 64 (s0.tick t).dev)
      if u.windowKnown c then u.analogBit c 3 0xC (!u.supplyIn c u.calNow) else u) := by
  change execAdcConversion t c .cvs code s0 = _
  simp only [execAdcConversion, hturn, Bool.not_true, Bool.false_eq_true, if_false]
  rfl

/-- A conversion that no value comes of: of the sense current, or of a thermistor without a table. -/
theorem execAdcConversion_slotOnly {pin : AdcPin} (hturn : (s0.tick t).adcTurn (c.val / 6) (adcPlace c pin) t = true)
    (hpin : pin = .cms ∨ pin = .cth ∧ ((s0.tick t).casOf c).table = none) :
    exec (.adcConversion t c pin code) s0 = .next ((s0.tick t).adcTaken t c pin) := by
  change execAdcConversion t c pin code s0 = _
  unfold execAdcConversion
  extract_lets s j i a k x
  rw [if_neg (by rw [show s.adcTurn j i t = true from hturn]; exact Bool.false_ne_true)]
  obtain rfl | ⟨rfl, htable⟩ := hpin
  · rfl
  · rw [show x.table = none from htable]
    rfl

end Conversion

theorem execVddaReferenceConversion_running {t : Time} {s0 : State} {j : Fin 8} {code : Nat} (hmode : 1 < (s0.tick t).modeN)
    (hcode : (s0.tick t).adcCode j code ≠ 0) :
    exec (.vddaReferenceConversion t j code) s0 = .next { s0.tick t with
      vdda := tset (fun _ => 1800) (s0.tick t).vdda j (1200 * 4096 / (s0.tick t).adcCode j code) } :=
  if_neg (by rw [State.running_of_mode hmode]; simpa using hcode)

/-! ## Training -/

theorem execTrainingEnd_driven {t : Time} {s0 : State} {c : Fin 48} {w : Nat} (htrain : ((s0.tick t).casOf c).train = some w)
    (hend : ((s0.tick t).casOf c).trainT + usT ((s0.tick t).frcN (oCas c 4 0x0A)) ≤ t)
    (hdriven : (s0.tick t).pinsDriven c = true) :
    exec (.trainingEnd t c) s0 = .next (
      let s := s0.tick t
      let v := s.setCasement c { s.casOf c with train := none, trained := true, linkT := t + s.longT 64 }
      let u := v.sendSashes c 2 224 (fun _ => v.tableFrame c)
      if w = 2 then u.svcMeasure c else u) := by
  change execTrainingEnd t c s0 = _
  simp only [execTrainingEnd, htrain, if_neg hend.not_gt, hdriven, Bool.not_true, Bool.false_eq_true, if_false]

/-! ## The strobe checker (R170) -/

/-- The strobe checker ends a measurement pulse that runs. -/
def State.strobeCut (s : State) (c : Nat) (t : Time) : State :=
  match (s.casOf c).meas with
  | some m => if m.start c ≤ t ∧ t < m.stop c then (s.measPulse c m).send (.strobeEnd c t) else s
  | none => s

theorem State.strobeCut_idle {s : State} {c : Nat} {t : Time} (h : (s.casOf c).meas = none) : s.strobeCut c t = s := by
  rw [State.strobeCut, h]

theorem State.strobeCut_measuring {s : State} {c : Nat} {t : Time} {m : Meas} (h : (s.casOf c).meas = some m)
    (hstart : m.start c ≤ t) (hstop : t < m.stop c) : s.strobeCut c t = (s.measPulse c m).send (.strobeEnd c t) := by
  rw [State.strobeCut, h]
  exact if_pos ⟨hstart, hstop⟩

/-- What the checker leaves: no measurement, committed marks that blank from here, no pulse, its count, its event and its fault. -/
def State.strobeActs (s : State) (c : Fin 48) (opened : List Mark) (overlap : Bool) : State :=
  let x := { s.casOf c with meas := none, opened := opened.map (fun m => { m with strobeActed := true }) }
  ((((s.setCasement c x).stopPulses c).bump (oCas c 4 0x10)).event c 6 c).fault (28 + c.val / 12) (if overlap then 2 else 1) c 0

theorem execStrobeLimit_acts {t u : Time} {s0 : State} {c : Fin 48} {v : Bool} (hruns : (s0.tick t).strobing c t = some u)
    (hacts : v = true ∨ u + usT ((s0.tick t).nat (oCas c 4 0x0B)) ≤ t) :
    exec (.strobeLimit t c v) s0 =
      .next (((s0.tick t).strobeCut c t).strobeActs c ((s0.tick t).casOf c).opened v) := by
  have hacts' : (v || decide (u + usT ((s0.tick t).nat (oCas c 4 0x0B)) ≤ t)) = true := by
    rw [Bool.or_eq_true, decide_eq_true_iff]
    exact hacts
  change execStrobeLimit t c v s0 = _
  simp only [execStrobeLimit, hruns, hacts', Bool.not_true, Bool.false_eq_true, if_false]
  rfl

theorem State.strobeActs_idle {s : State} {c : Fin 48} {v : Bool} (h : (s.casOf c).meas = none) :
    s.strobeActs c (s.casOf c).opened v =
      let x := { s.casOf c with opened := (s.casOf c).opened.map (fun m => { m with strobeActed := true }) }
      ((((s.setCasement c x).stopPulses c).bump (oCas c 4 0x10)).event c 6 c).fault (28 + c.val / 12) (if v then 2 else 1) c 0 := by
  simp only [State.strobeActs, h]

/-- Settles O14, command by command: each hypothesis is the condition under which its event acts. -/
theorem portEvents : Obligations.PortEvents := by
  unfold Obligations.PortEvents
  refine ⟨?thermistor, ?shorted, ?opened, ?supply, ?slotOnly, ?reference, ?training, ?strobe, ?strobeMeasuring⟩
  case thermistor =>
    intro t s0 c code rpu rt b s a k x u hturn htable hlow hhigh
    exact execAdcConversion_thermistor hturn htable hlow hhigh
  case shorted =>
    intro t s0 c code s a x u hturn htable hlow
    exact execAdcConversion_shorted hturn htable hlow
  case opened =>
    intro t s0 c code s a x u hturn htable hhigh
    exact execAdcConversion_open hturn htable hhigh
  case supply =>
    intro t s0 c code s j a u hturn
    exact execAdcConversion_supply hturn
  case slotOnly =>
    intro t s0 c code pin s hturn hpin
    exact execAdcConversion_slotOnly hturn hpin
  case reference =>
    intro t s0 j code s k hmode hcode
    exact execVddaReferenceConversion_running hmode hcode
  case training =>
    intro t s0 c w s x v u htrain hend hdriven
    exact execTrainingEnd_driven htrain hend hdriven
  case strobe =>
    intro t s0 c v u s x hruns hacts hmeas
    have h := execStrobeLimit_acts hruns hacts
    rw [State.strobeCut_idle hmeas, State.strobeActs_idle hmeas] at h
    exact h
  case strobeMeasuring =>
    intro t s0 c v u m s x w hruns hacts hmeas hstart hstop
    have h := execStrobeLimit_acts hruns hacts
    rw [State.strobeCut_measuring hmeas hstart hstop] at h
    exact h

end Sys2Proof.Machine

namespace Sys2Proof.Machine

/-! # Loads of lines and the minimum line periods (R189, R191 to R194, R211) -/

section Loads
variable {t : Time} {s0 : State} {c : Fin 48} {m : Mark} {n : Nat}
  (hline : (((s0.tick t).settleLoads c t).casOf c).findLine (fun l => l.st == .waiting) = some (m, n))
include hline

/-- The first waiting line starts to load; where no trigger is predicted it has no latest start. -/
theorem execLineLoad_starts (hready : ((s0.tick t).settleLoads c t).lineReady c m n = true)
    (hlink : ((s0.tick t).settleLoads c t).linkFree c m n t = true)
    (htime : ∀ u, ((s0.tick t).settleLoads c t).trigT c m n = some u →
      (t : Int) ≤ u - (((s0.tick t).settleLoads c t).leadT c : Int)) :
    exec (.lineLoad t c) s0 = .next (((s0.tick t).settleLoads c t).loadLine c m n t) := by
  change execLineLoad t c s0 = _
  simp only [execLineLoad, hline, hready, hlink]
  cases htrig : ((s0.tick t).settleLoads c t).trigT c m n with
  | none => rfl
  | some u => exact if_pos (decide_eq_true (htime u htrig))

/-- A latest start that has passed: SKIP where only the link held the line, LATE otherwise and for a first line committed too late. -/
theorem execLoadDeadline_passed {u : Int} (htrig : ((s0.tick t).settleLoads c t).trigT c m n = some u)
    (hpast : u - (((s0.tick t).settleLoads c t).leadT c : Int) ≤ t) :
    exec (.loadDeadline t c) s0 = .next (
      let w := (s0.tick t).settleLoads c t
      w.blankLine c m n (if ¬(n = 0 ∧ u - (w.leadT c : Int) < (m.tD : Int)) ∧ w.lineReady c m n = true ∧
        (!w.linkFree c m n t) = true then .skip else .late)) := by
  change execLoadDeadline t c s0 = _
  simp only [execLoadDeadline, hline, htrig, if_neg hpast.not_gt]

end Loads

theorem execMinPeriodRefresh_due {t : Time} {s0 : State} {c : Fin 48} (hnone : ((s0.tick t).casOf c).opened = [])
    (hconf : (s0.tick t).configured c = true) (hmode : 1 < (s0.tick t).modeN)
    (hdue : elapsed ((s0.tick t).casOf c).refreshT (usT 100) t = true) :
    exec (.minPeriodRefresh t c) s0 = .next (
      let x := (s0.tick t).casOf c
      let w := (s0.tick t).setCasement c { x with refreshT := some t }
      let m := { Mark.init with cfg := w.snapshot c t }
      w.publish c m (w.factors c m).1 (w.factors c m).2 x.hb) :=
  if_neg (by rw [hnone, hconf, State.running_of_mode hmode, hdue]; decide)

/-- Settles O15, command by command: each hypothesis is the condition under which its event acts. -/
theorem firingLoads : Obligations.FiringLoads := by
  unfold Obligations.FiringLoads
  refine ⟨?inTime, ?unpredicted, ?passed, ?periods⟩
  case inTime =>
    intro t s0 n m l u s w hline hready hlink htrig htime
    refine execLineLoad_starts hline hready hlink fun v hv => ?_
    obtain rfl : u = v := Option.some.inj (htrig.symm.trans hv)
    exact htime
  case unpredicted =>
    intro t s0 n m l s w hline hready hlink htrig
    exact execLineLoad_starts hline hready hlink fun v hv => absurd (htrig.symm.trans hv) (Option.some_ne_none v).symm
  case passed =>
    intro t s0 n m l u s w hline htrig hpast
    exact execLoadDeadline_passed hline htrig hpast
  case periods =>
    intro t s0 n s x w m hnone hconf hmode hdue
    exact execMinPeriodRefresh_due hnone hconf hmode hdue

end Sys2Proof.Machine

namespace Sys2Proof.Machine

/-! # Freeze, trigger and end of lines (R187, R188, R193, R195, R202 to R210) -/

/-! ## What a freeze takes and publishes -/

/-- The mark with the supply and the temperature of a freeze among the extremes it has seen (R212). -/
def State.seenAt (s : State) (c : Nat) (m : Mark) : Mark :=
  { m with minV := min m.minV (s.nat (oCas c 6 4)), maxT := max m.maxT (s.num (oCas c 6 3)) }

/-- The supply and temperature factors of the mark's line are published (R202, R203). -/
def State.publishFactors (s : State) (c : Nat) (m : Mark) : State :=
  ((s.setOpen c m).setn (oCas c 9 3) ((s.factors c m).1 : Nat)).setn (oCas c 9 4) ((s.factors c m).2 : Nat)

/-- The widths of the pulses before the head budget and a compression (R205, R206). -/
def State.basicWidths (s : State) (c : Nat) (m : Mark) : List Nat :=
  ((s.publishFactors c m).widths c m (s.factors c m).1 (s.factors c m).2 32768 32768).1

/-- What line `n` of a mark takes from the head budget (R206). -/
def State.freezeDline (s : State) (c : Nat) (m : Mark) (n : Nat) : Nat :=
  (((m.line n).nj.zip (s.basicWidths c m)).map (fun p => p.1 * p.2)).sum

/-- The head budget factor at the freeze of line `n` (R206). -/
def State.freezeHb (s : State) (c : Nat) (m : Mark) (n : Nat) : Nat :=
  (s.publishFactors c m).budget c m ((s.casOf c).ahead m n) (s.freezeDline c m n)

/-- The state once the freeze of line `n` has published its factors, head budget and minimum periods (R202, R203, R206, R211). -/
def State.freezePublished (s : State) (c : Nat) (m : Mark) (n : Nat) : State :=
  let w := s.publishFactors c m
  let hb := s.freezeHb c m n
  ((w.setCasement c { w.casOf c with hb := hb }).setn (oCas c 9 5) (hb : Nat)).publish c m (s.factors c m).1 (s.factors c m).2 hb

/-- From the end of a line's frame to its earliest trigger (R193). -/
def State.latchSetup (s : State) (c : Nat) : Time :=
  if s.portKind c = 1 then nsT (s.headLatch c)
  else s.longT (s.shiftPeriod c + 2 * s.latchUnits c) / 2 + unitT (s.nat (oCas c 4 7))

/-- The trigger edge of line `n` is past, or its frame, an earlier pulse or a line ahead is not done by then (R193). -/
abbrev State.missesEdge (s : State) (t : Time) (c : Nat) (m : Mark) (n : Nat) (u : Int) : Prop :=
  nearEdge u < t ∨ nearEdge u < (m.line n).frameEnd + (s.publishFactors c m).latchSetup c ∨
    nearEdge u < ((s.freezePublished c m n).casOf c).lastEnd ∨
    ((s.casOf c).ahead m n).any (fun a => decide (nearEdge u < a.endT)) = true

/-- The pulse widths of line `n` with no compression (R205). -/
def State.fullWidths (s : State) (c : Nat) (m : Mark) (n : Nat) : List Nat × List Bool :=
  (s.freezePublished c m n).widths c m (s.factors c m).1 (s.factors c m).2 (s.freezeHb c m n) 32768

/-- Line `n` at full size fits the gap to the next line (R207). -/
def State.fitsFull (s : State) (c : Nat) (m : Mark) (n : Nat) : Bool :=
  let w := s.freezePublished c m n
  w.fits (w.need c (m.nat (oCas c 7 7)) (s.fullWidths c m n).1) (w.nextGap c m n) (w.laxVf 33 (w.casAxis c))

/-- The freeze of line `n` at full size (R205, R207, R210): short pulses are counted, and the line has its widths, offsets and end. -/
def State.freezeFull (s : State) (c : Nat) (m : Mark) (n : Nat) (u : Int) : State :=
  let w := s.freezePublished c m n
  let g := m.nat (oCas c 7 7)
  let hb := s.freezeHb c m n
  let v := (s.fullWidths c m n).1
  let raised := ((s.fullWidths c m n).2.take v.length).filter id
  let w := if raised.length = 0 then w else (w.bumpBy (oCas c 4 0x0E) raised.length).event c 5 c
  let l := { m.line n with st := .frozen, tT := nearEdge u, w := v, offs := w.pulseOffs c g v,
                           dline := s.freezeDline c m n, endT := nearEdge u + w.longT (w.pulseSpan c g v) }
  (w.setOpen c ({ m with minC := min m.minC 32768, minHb := min m.minHb hb }.setLine n l)).overspeed c 0

theorem State.not_missesEdge {s : State} {t : Time} {c : Nat} {m : Mark} {n : Nat} {u : Int} (hnow : t ≤ nearEdge u)
    (hframe : (m.line n).frameEnd + (s.publishFactors c m).latchSetup c ≤ nearEdge u)
    (hlast : ((s.freezePublished c m n).casOf c).lastEnd ≤ nearEdge u)
    (hends : ((s.casOf c).ahead m n).any (fun a => decide (nearEdge u < a.endT)) = false) : ¬s.missesEdge t c m n u := by
  rintro (h | h | h | h)
  · exact hnow.not_gt h
  · exact hframe.not_gt h
  · exact hlast.not_gt h
  · exact Bool.eq_false_iff.mp hends h

/-! ## The freeze -/

/-- A freeze that is due, where `w` is the state in which the frames sent are complete: the line faults, misses its edge, freezes at
full size or is skipped for not fitting; `rest` is what the other policies make of a line that does not fit (R209). -/
theorem execLineFreeze_due {t : Time} {s0 w : State} {c : Fin 48} {m : Mark} {n : Nat} {u : Int}
    (hw : (s0.tick t).settleLoads c t = w)
    (hline : (w.casOf c).findLine (fun l => l.st == .loading || l.st == .loaded) = some (m, n))
    (htrig : w.trigT c m n = some u) (hdue : u ≤ (t + nsT 200 : Nat))
    (hahead : ((w.casOf c).ahead m n).any (fun a => a.st == .loading || a.st == .loaded || a.st == .waiting) = false) :
    ∃ rest, exec (.lineFreeze t c) s0 =
      let m1 := w.seenAt c m
      let w2 := w.freezePublished c m1 n
      if w2.lineFault c m1 then .next (w2.blankLine c { m1 with strobeActed := true } n .fault)
      else if w.missesEdge t c m1 n u then .next (w2.blankLine c m1 n .skip)
      else if w.fitsFull c m1 n then .next (w.freezeFull c m1 n u)
      else if m1.nat (oCas c 7 4) = 2 then .next (w2.blankLine c m1 n .skip)
      else rest := by
  have hready : ¬((t + nsT 200 : Nat) < u ∨ ((w.casOf c).ahead m n).any
      (fun a => a.st == .loading || a.st == .loaded || a.st == .waiting) = true) := by
    rintro (h | h)
    · exact hdue.not_gt h
    · exact Bool.eq_false_iff.mp hahead h
  change ∃ rest, execLineFreeze t c s0 = _
  simp -zeta only [execLineFreeze, hw]
  extract_lets w'
  simp -zeta only [w', hline, htrig]
  exact ⟨_, if_neg hready⟩

/-! ## The trigger -/

section Trigger
variable {s : State} {c : Nat} {m : Mark} {n : Nat}

theorem State.trigger_of_due {due : Time → Bool} (hline : (s.casOf c).findLine (fun l => l.st == .frozen) = some (m, n))
    (hdue : due (m.line n).tT = true) : s.trigger c due = s.fireLine c m n := by
  simp only [State.trigger, hline, if_pos hdue]

theorem State.fireLine_fault (h : s.lineFault c m = true) :
    s.fireLine c m n = s.blankLine c { m with strobeActed := true } n .fault :=
  if_pos h

theorem State.fireLine_fires (h : s.lineFault c m = false) :
    s.fireLine c m n =
      let fl := if bit (s.laxStatus (s.casAxis c)) 6 = true ∧ (!bit m.flags 7) = true then m.flags + 128 else m.flags
      (s.setOpen c ({ m with flags := fl }.setLine n { m.line n with st := .firing })).emitLine c (m.line n) :=
  if_neg (Bool.eq_false_iff.mp h)

end Trigger

theorem execLineTrigger_due {t : Time} {s0 : State} {c : Fin 48} {m : Mark} {n : Nat}
    (hline : (((s0.tick t).settleLoads c t).casOf c).findLine (fun l => l.st == .frozen) = some (m, n))
    (hdue : (m.line n).tT ≤ t) :
    exec (.lineTrigger t c) s0 = .next (((s0.tick t).settleLoads c t).fireLine c m n) := by
  change execLineTrigger t c s0 = _
  rw [execLineTrigger, State.trigger_of_due hline (decide_eq_true hdue)]

/-- Settles O16, outcome by outcome: each hypothesis is the condition under which its event takes that branch. -/
theorem firingLines : Obligations.FiringLines := by
  unfold Obligations.FiringLines
  refine ⟨?freezeFault, ?freezeMissed, ?freezeFits, ?freezeUnfit, ?triggerFault, ?triggerFires, ?fired, ?close⟩
  case freezeFault =>
    intro t s0 n m l u s w0 m1 fv ft w x ahead wd dline hb w2 hline htrig hdue hahead hfault
    obtain ⟨_, hdone⟩ := execLineFreeze_due rfl hline htrig hdue hahead
    exact hdone.trans (if_pos hfault)
  case freezeMissed =>
    intro t s0 n m l u s w0 m1 fv ft w x ahead wd dline hb w2 tT setup hline htrig hdue hahead hfault hmiss
    obtain ⟨_, hdone⟩ := execLineFreeze_due rfl hline htrig hdue hahead
    exact hdone.trans ((if_neg (Bool.eq_false_iff.mp hfault)).trans (if_pos hmiss))
  case freezeFits =>
    intro t s0 n m l u s w0 m1 fv ft w x ahead wd dline hb w2 tT setup g v raised m3 w3 hline htrig hdue hahead
      hfault hnow hframe hlast hends hfit
    obtain ⟨_, hdone⟩ := execLineFreeze_due rfl hline htrig hdue hahead
    have hmiss : ¬w0.missesEdge t n m1 l u := State.not_missesEdge hnow hframe hlast hends
    exact hdone.trans ((if_neg (Bool.eq_false_iff.mp hfault)).trans ((if_neg hmiss).trans (if_pos hfit)))
  case freezeUnfit =>
    intro t s0 n m l u s w0 m1 fv ft w x ahead wd dline hb w2 tT setup g v hline htrig hdue hahead
      hfault hnow hframe hlast hends hunfit hpolicy
    obtain ⟨_, hdone⟩ := execLineFreeze_due rfl hline htrig hdue hahead
    have hmiss : ¬w0.missesEdge t n m1 l u := State.not_missesEdge hnow hframe hlast hends
    exact hdone.trans ((if_neg (Bool.eq_false_iff.mp hfault)).trans ((if_neg hmiss).trans
      ((if_neg (Bool.eq_false_iff.mp hunfit)).trans (if_pos hpolicy))))
  case triggerFault =>
    intro t s0 n m l s w x hline hdue hfault
    exact (execLineTrigger_due hline hdue).trans (congrArg _ (State.fireLine_fault hfault))
  case triggerFires =>
    intro t s0 n m l s w x fl hline hdue hfault
    exact (execLineTrigger_due hline hdue).trans (congrArg _ (State.fireLine_fires hfault))
  case fired => exact fun _ _ _ => rfl
  case close => exact fun _ _ _ => rfl

end Sys2Proof.Machine

namespace Sys2Proof.Machine

/-! # Ledger commands (R218, R229, R230, R236, R238, R240, R245, R331) -/

/-! ## The objects of a casement -/

theorem Block.holds_iff (b : Block) (i : Nat) :
    b.holds i = true ↔ b.base ≤ i ∧ (i - b.base) % b.stride = 0 ∧ (i - b.base) / b.stride < b.count := by
  simp only [Block.holds, Bool.and_eq_true, Nat.ble_eq, Nat.beq_eq, Nat.blt_eq, and_assoc]

/-- A block of the dictionary either repeats for the 48 casements, `0x20` indices apart, or keeps off the indices of casements. -/
theorem dictBlocks_casement : ∀ b ∈ dictBlocks,
    0x3000 ≤ b.base ∧ b.base < 0x3020 ∧ b.stride = 0x20 ∧ b.count = 48 ∨
      0 < b.stride ∧ b.base + b.count * b.stride ≤ 0x3000 ∨ 0x3600 ≤ b.base := by
  decide +kernel

theorem Block.not_holds_outside {b : Block} {i : Nat} (hi : 0x3000 ≤ i ∧ i < 0x3600)
    (h : 0 < b.stride ∧ b.base + b.count * b.stride ≤ 0x3000 ∨ 0x3600 ≤ b.base) : b.holds i = false := by
  rw [← Bool.not_eq_true, Block.holds_iff]
  rintro ⟨hbase, -, hcount⟩
  obtain ⟨hstride, hend⟩ | hstart := h
  · rw [Nat.div_lt_iff_lt_mul hstride] at hcount
    omega
  · omega

/-- A block that holds an index of casement 0 holds that of casement `c` too, in its place `c`. -/
theorem dictBlock_holds {b : Block} (hb : b ∈ dictBlocks) (c : Fin 48) {page : Nat} (hpage : page < 0x20) :
    b.holds (0x3000 + 0x20 * c + page) = b.holds (0x3000 + page) ∧
      (b.holds (0x3000 + page) = true → (0x3000 + 0x20 * c + page - b.base) / b.stride = c) := by
  obtain ⟨hlow, hhigh, hstride, hcount⟩ | hout := dictBlocks_casement b hb
  · rw [Bool.eq_iff_iff, Block.holds_iff, Block.holds_iff, hstride, hcount]
    omega
  · rw [Block.not_holds_outside (by omega) hout, Block.not_holds_outside (by omega) hout]
    exact ⟨rfl, nofun⟩

/-- An object of casement `c` has the row that the object of casement 0 has. -/
theorem findRow_casement (c : Fin 48) {page sub : Nat} {row : Row}
    (hrow : findRow (0x3000 + page) sub = some (0x3000 + page, 0, row)) (hpage : page < 0x20 := by decide) :
    findRow (0x3000 + 0x20 * c + page) sub = some (0x3000 + page, c.val, row) := by
  have hblocks := fun b hb => dictBlock_holds (b := b) hb c hpage
  unfold findRow at *
  generalize dictBlocks = bs at *
  induction bs with
  | nil => exact nomatch hrow
  | cons b bs ih =>
    obtain ⟨hholds, hinst⟩ := hblocks b List.mem_cons_self
    have hrest := fun h => ih h fun b hb => hblocks b (List.mem_cons_of_mem _ hb)
    rw [findIn] at hrow ⊢
    rw [hholds]
    split_ifs at hrow ⊢ with h
    · cases hr : rowOf b.rows sub with
      | none =>
        simp only [hr] at hrow ⊢
        exact hrest hrow
      | some r =>
        simp only [hr, Option.some.injEq, Prod.mk.injEq] at hrow ⊢
        obtain ⟨hbase, -, hrow⟩ := hrow
        exact ⟨hbase, hinst h, hrow⟩
    · exact hrest hrow

theorem findRow_measService (c : Fin 48) :
    findRow (0x3000 + 0x20 * c + 0x0D) 0x0D = some (0x300D, c.val, ⟨0x0D, 1, .uns 1, 16, true, 0, .set [1, 2], .imm⟩) :=
  findRow_casement c (by decide)

theorem findRow_defectDeclare (c : Fin 48) :
    findRow (0x3000 + 0x20 * c + 0x0E) 0x18 = some (0x300E, c.val, ⟨0x18, 1, .uns 4, 31, true, 0, .any, .decision⟩) :=
  findRow_casement c (by decide)

theorem findRow_defectClear (c : Fin 48) :
    findRow (0x3000 + 0x20 * c + 0x0E) 0x19 = some (0x300E, c.val, ⟨0x19, 1, .uns 4, 31, true, 0, .any, .decision⟩) :=
  findRow_casement c (by decide)

theorem findRow_newSupply (c : Fin 48) :
    findRow (0x3000 + 0x20 * c + 0x0F) 2 = some (0x300F, c.val, ⟨2, 1, .uns 1, 31, true, 0, .set [1], .decision⟩) :=
  findRow_casement c (by decide)

theorem findRow_hostSensor (c : Fin 48) :
    findRow (0x3000 + 0x20 * c + 0x0F) 0x0B = some (0x300F, c.val, ⟨0x0B, 1, .uns 8, 31, false, 0, .any, .decision⟩) :=
  findRow_casement c (by decide)

theorem findRow_consumeAdjust (c : Fin 48) :
    findRow (0x3000 + 0x20 * c + 0x0F) 0x10 = some (0x300F, c.val, ⟨0x10, 1, .uns 4, 31, true, 0, .any, .decision⟩) :=
  findRow_casement c (by decide)

theorem findRow_record (c : Fin 48) :
    findRow (0x3000 + 0x20 * c + 0x10) 2 = some (0x3010, c.val, ⟨2, 1, .uns 4, 17, false, 0, .any, .imm⟩) :=
  findRow_casement c (by decide)

theorem findRow_transfer (c : Fin 48) :
    findRow (0x3000 + 0x20 * c + 0x10) 4 = some (0x3010, c.val, ⟨4, 1, .uns 1, 17, true, 0, .set [1, 2], .imm⟩) :=
  findRow_casement c (by decide)

theorem notHeld_record (c : Fin 48) : notHeld (ky (0x3000 + 0x20 * c + 0x10) 2) = true := by
  revert c
  decide +kernel

theorem notHeld_hostSensor (c : Fin 48) : notHeld (oCas c 0x0F 0x0B) = false := by
  revert c
  decide +kernel

/-- CONFIGURE and SERVICE take a write of these rows (access letters CV). -/
theorem modeTakes_transfer {m : Nat} (h : m = 2 ∨ m = 6) : modeTakes m 17 = true := by
  rcases h with rfl | rfl <;> rfl

/-! ## A write of an object of a casement's port, firing or Ledger -/

theorem State.relCheck_head {s : State} {base i sub : Nat} {v : Val} (b : Bytes) (hlow : 0x3004 ≤ base) (hhigh : base ≤ 0x3010) :
    s.relCheck base i sub v b = s.relHead i (ky base sub) v.int.toNat := by
  unfold State.relCheck
  rw [if_neg (by omega), if_pos ⟨hlow, hhigh⟩]

theorem State.act_head {s0 s : State} {p : Path} {alone : Bool} {idx base i sub : Nat} {v : Val} (b : Bytes) (hlow : 0x3004 ≤ base)
    (hhigh : base ≤ 0x3010) :
    State.act s0 s p alone idx base i sub v b = s.actUnit i (ky base sub) v.int.toNat v.int b := by
  have htrim : hasTrim base = false := by
    simp only [hasTrim, List.contains_eq_mem, List.mem_cons, List.not_mem_nil, or_false, decide_eq_false_iff_not]
    omega
  unfold State.act
  rw [if_neg (by omega), htrim, if_neg Bool.false_ne_true, if_pos (.inl ⟨by omega, hhigh⟩)]

/-- A number that the row and the relations of such an object accept leaves the object in `w`, is answered and acts. -/
theorem State.next_headWrite {s w u : State} {p : Path} {idx sub base i n k : Nat} {row : Row} (hp : s.serves p = true)
    (hrow : findRow idx sub = some (base, i, row)) (hty : row.ty = .uns k) (hmode : modeTakes s.modeN row.acc = true)
    (hn : n < 2 ^ (8 * k)) (hrange : rowRange row (.num n) = true) (hput : s.writeVal (ky idx sub) row (.num n) = w)
    (hcheck : w.relHead i (ky base sub) n = none) (hact : ∀ b, (w.answer .ok).actUnit i (ky base sub) n n b = u)
    (hplace : 0x3004 ≤ base ∧ base ≤ 0x3010 ∧ sub < 256 := by decide) :
    (.next (s.dictNum p idx sub n) : Step) = .next u := by
  obtain ⟨hlow, hhigh, hsub⟩ := hplace
  subst hput
  obtain ⟨b, hwrite⟩ := State.dictNum_accepted hp hsub hrow hty hmode hn hrange fun b =>
    (State.relCheck_head b hlow hhigh).trans hcheck
  exact congrArg Host.Outcome.next (hwrite.trans ((State.act_head b hlow hhigh).trans (hact b)))

theorem badIf_false {b : Bool} (h : b = false) : badIf b = none := by
  rw [h]
  rfl

theorem ble_eq_false_of_lt {a b : Nat} (h : b < a) : Nat.ble a b = false := by
  rw [← Bool.not_eq_true, Nat.ble_eq]
  exact not_le.mpr h

/-- A defect is cleared by its element, or all are by the number 0xFFFFFFFF (R230). -/
theorem State.relHead_defectClear {s : State} {c e : Nat} (he : e = 0xFFFFFFFF ∨ e < s.ne c) : s.relHead c 0x300E19 e = none := by
  refine badIf_false ?_
  rcases he with rfl | he
  · rfl
  · rw [ble_eq_false_of_lt he, Bool.and_false]

/-- A record is written while port A is idle, for an element of the casement (R219, R245). -/
theorem State.relHead_record {s : State} {c n : Nat} (hidle : s.portAIdle c = true) (he : s.nat (oCas c 0x10 1) < s.ne c) :
    s.relHead c 0x301002 n = none :=
  (if_neg (by rw [hidle]; exact Bool.false_ne_true)).trans (badIf_false (ble_eq_false_of_lt he))

/-! ## The commands -/

section Writes
variable {s : State} {p : Path} {c : Fin 48} (hp : s.serves p = true)
include hp

/-- A service measurement that its check accepts is answered and starts (R229). -/
theorem State.next_measService {n : Nat} (hmode : s.modeN = 6) (hcheck : s.measSvcCheck c n = none) (hn : n = 1 ∨ n = 2) :
    (.next (s.dictNum p (0x3000 + 0x20 * c + 0x0D) 0x0D n) : Step) = .next ((s.answer .ok).measSvcAct c n) :=
  State.next_headWrite hp (findRow_measService c) rfl (modeTakes_service hmode) (by omega) (by rcases hn with rfl | rfl <;> rfl)
    (State.writeVal_command _ _ rfl rfl) hcheck fun _ => rfl

/-- What the host writes to its sensor stands in the object and waits for the marks decided from 2 us on (R65, R238). -/
theorem State.next_hostSensor {v : Nat} (hmode : s.modeN ≤ 6) (hv : v < 2 ^ 64) (hsource : s.nat (oCas c 0x0F 5) = 2) :
    (.next (s.dictNum p (0x3000 + 0x20 * c + 0x0F) 0x0B v) : Step) =
      .next (((s.setDec (oCas c 0x0F 0x0B) (.num v)).answer .ok).addChange (.hostSensor c v)) := by
  have hput : s.writeVal (ky (0x3000 + 0x20 * c + 0x0F) 0x0B) ⟨0x0B, 1, .uns 8, 31, false, 0, .any, .decision⟩ (.num v) =
      s.setDec (oCas c 0x0F 0x0B) (.num v) := by
    rw [State.writeVal, notHeld_hostSensor]
    rfl
  have hkept : (s.setDec (oCas c 0x0F 0x0B) (.num v)).nat (oCas c 0x0F 5) = 2 :=
    (State.nat_setn_ne s _ (by unfold oCas ky; omega)).trans hsource
  exact State.next_headWrite hp (findRow_hostSensor c) rfl (modeTakes_notSafe (State.modeN_of_serves hp) hmode) hv
    (rowRange_any rfl rfl hv) hput rfl fun _ => if_pos hkept

/-- A transfer out (1) or, while port A is idle, in (2) is answered and moves the records (R245). -/
theorem State.next_transfer {n : Nat} (hmode : s.modeN = 2 ∨ s.modeN = 6) (hn : n = 1 ∨ n = 2 ∧ s.portAIdle c = true) :
    (.next (s.dictNum p (0x3000 + 0x20 * c + 0x10) 4 n) : Step) =
      .next (if n = 1 then (s.answer .ok).ledgerExport c else (s.answer .ok).ledgerImport c) := by
  have hrange : rowRange ⟨4, 1, .uns 1, 17, true, 0, .set [1, 2], .imm⟩ (.num n) = true := by
    obtain rfl | ⟨rfl, -⟩ := hn <;> rfl
  have hcheck : s.relHead c 0x301004 n = none := by
    refine busyIf_false ?_
    obtain rfl | ⟨-, hidle⟩ := hn
    · rfl
    · rw [hidle, Bool.not_true, Bool.and_false]
  exact State.next_headWrite hp (findRow_transfer c) rfl (modeTakes_transfer hmode) (by omega) hrange
    (State.writeVal_command _ _ rfl rfl) hcheck fun _ => rfl

end Writes

/-- Settles O18, command by command: each hypothesis is one check that the write passes. -/
theorem ledgerCommands : Obligations.LedgerCommands := by
  unfold Obligations.LedgerCommands
  refine ⟨?fullPass, ?oneElement, ?declare, ?clear, ?adjust, ?sensor, ?supply, ?record, ?exportAll, ?importAll⟩
  case fullPass =>
    intro t s0 p n s hp hmode hcheck
    exact State.next_measService hp hmode hcheck (.inl rfl)
  case oneElement =>
    intro t s0 p n s hp hmode hcheck
    exact State.next_measService hp hmode hcheck (.inr rfl)
  case declare =>
    intro t s0 p n e s hp hmode he hfits
    exact State.next_headWrite hp (findRow_defectDeclare n) rfl (modeTakes_notSafe (State.modeN_of_serves hp) hmode) hfits
      (rowRange_any rfl rfl hfits) (State.writeVal_command _ _ rfl rfl) (badIf_false (ble_eq_false_of_lt he)) fun _ => rfl
  case clear =>
    intro t s0 p n e s hp hmode he hfits
    exact State.next_headWrite hp (findRow_defectClear n) rfl (modeTakes_notSafe (State.modeN_of_serves hp) hmode) hfits
      (rowRange_any rfl rfl hfits) (State.writeVal_command _ _ rfl rfl) (State.relHead_defectClear he) fun _ => rfl
  case adjust =>
    intro t s0 p n v s hp hmode hv
    exact State.next_headWrite hp (findRow_consumeAdjust n) rfl (modeTakes_notSafe (State.modeN_of_serves hp) hmode) hv
      (rowRange_any rfl rfl hv) (State.writeVal_command _ _ rfl rfl) rfl fun _ => rfl
  case sensor =>
    intro t s0 p n v s hp hmode hv hsource
    exact State.next_hostSensor hp hmode hv hsource
  case supply =>
    intro t s0 p n s hp hmode
    exact State.next_headWrite hp (findRow_newSupply n) rfl (modeTakes_notSafe (State.modeN_of_serves hp) hmode) (by decide)
      rfl (State.writeVal_command _ _ rfl rfl) rfl fun _ => rfl
  case record =>
    intro t s0 p n v s hp hmode hidle he hv
    exact State.next_headWrite hp (findRow_record n) rfl (modeTakes_transfer hmode) hv (rowRange_any rfl rfl hv)
      (if_pos (by rw [notHeld_record, Bool.or_true])) (State.relHead_record hidle he) fun _ => rfl
  case exportAll =>
    intro t s0 p n s hp hmode
    exact State.next_transfer hp hmode (.inl rfl)
  case importAll =>
    intro t s0 p n s hp hmode hidle
    exact State.next_transfer hp hmode (.inr ⟨rfl, hidle⟩)

end Sys2Proof.Machine

namespace Sys2Proof.Machine

/-! # Ledger events (R221 to R229, R233 to R238) -/

/-- The code of the cycle `m`, from its three conversions in mV, and the state once its pulse has gone (R179, R181, R225). -/
def State.cycleCode (s : State) (c : Nat) (m : Meas) (vb vh von : Nat) : Nat × State :=
  let j := c / 6
  let mv (k : Nat) := s.adcCode j k * s.vddaOf j / 4096
  (s.measPulse c m).measCode c (mv vb) (s.adcCode j vh * s.vddaOf j * s.nat (oCas c 6 2) / (4096 * 65536)) (mv von)

/-- Casement `c` may go on measuring: in SERVICE at the measuring phase of its service measurement, or in a gap pass (R227, R229). -/
def State.measures (s : State) (c : Nat) : Prop :=
  (∃ v, (s.casOf c).svc = some v ∧ v.phase = 2 ∧ s.casState c = 5) ∨
    (s.casOf c).svc = none ∧ s.gapOk c = true ∧ (s.casOf c).pass = true

/-- A cycle whose pulse has ended has its code and its result. -/
theorem execMeasureCycle_ended {t : Time} {s0 : State} {c : Fin 48} {m : Meas} (vb vh von : Nat) (hmeasures : (s0.tick t).measures c)
    (hmeas : ((s0.tick t).casOf c).meas = some m) (hend : m.stop c ≤ t) :
    exec (.measureCycle t c vb vh von) s0 = .next (
      let r := (s0.tick t).cycleCode c m vb vh von
      r.2.measResult c r.1 m) := by
  change execMeasureCycle t c vb vh von s0 = _
  obtain ⟨v, hsvc, hphase, hstate⟩ | ⟨hsvc, hgap, hpass⟩ := hmeasures
  · simp only [execMeasureCycle, hsvc, hphase, hstate, hmeas, if_neg hend.not_gt, ne_eq, not_true_eq_false, if_false]
    rfl
  · simp only [execMeasureCycle, hsvc, hgap, hpass, hmeas, if_neg hend.not_gt, Bool.not_true, Bool.false_eq_true, or_self, if_false]
    rfl

/-- A gap pass starts once its interval has run since the one before it (R227). -/
theorem execMeasurePassStart_due {t : Time} {s0 : State} {c : Fin 48} (hgap : (s0.tick t).gapOk c = true)
    (hidle : ((s0.tick t).casOf c).pass = false)
    (hdue : ∀ u : Time, ((s0.tick t).casOf c).passT = some u → u + secT ((s0.tick t).nat (oCas c 0x0D 7)) ≤ t) :
    exec (.measurePassStart t c) s0 =
      .next (((s0.tick t).setCasement c { (s0.tick t).casOf c with pass := true, passT := some t, seen := [] }).gapGo c none) := by
  change execMeasurePassStart t c s0 = _
  unfold execMeasurePassStart
  extract_lets s x due
  have hnow : due = true := by
    unfold due
    split
    next u hu => exact decide_eq_true (hdue u hu)
    next => rfl
  exact if_pos ⟨hgap, by rw [hidle]; rfl, hnow⟩

theorem execScrubStep_due {t : Time} {s0 : State} (hon : (s0.tick t).nat (ky 0x2020 1) ≠ 0) (hmode : 1 < (s0.tick t).modeN)
    (hdue : elapsed (s0.tick t).ledScrubT (usT ((s0.tick t).nat (ky 0x2020 1))) t = true) :
    exec (.scrubStep t) s0 = .next (
      let q := (s0.tick t).ledScrub
      let u := { (List.range 192).foldl (State.scrubBank q) (s0.tick t) with ledScrub := (q + 1) % 32768, ledScrubT := some t }
      if q + 1 = 32768 then u.bump (ky 0x2020 2) else u) :=
  if_neg (by rw [State.running_of_mode hmode, hdue]; simpa using hon)

/-- The remaining ribbon in which `span` counts of ribbon turned the spool by `k`, in exact rationals truncated at the end (R237). -/
def State.spoolRemaining (s : State) (c span k : Nat) : Nat :=
  let sc := span * s.nat (oCas c 0x0F 7)
  let dc := s.nat (oCas c 0x0F 8)
  let th := s.nat (oCas c 0x0F 9)
  (sc * sc * 250 * (10 ^ 18 * 10 ^ 18) - 3141592653589793238 * 3141592653589793238 * dc * dc * 250 * k * k) /
    (3141592653589793238 * k * k * max 1 th * 10 ^ 18)

theorem execSpoolSpan_turned {t : Time} {s0 : State} {c : Fin 48} {p0 : Int} (hspool : ((s0.tick t).casOf c).spool = some p0)
    (hribbon : (s0.tick t).nat (oCas c 1 1) = 1) (hsource : (s0.tick t).nat (oCas c 0x0F 5) = 3)
    (hspan : ((s0.tick t).casOf c).span ≤ ((s0.tick t).casOf c).ribbon)
    (hturned : (sdiff ((s0.tick t).num (oAx ((s0.tick t).nat (oCas c 0x0F 6)) 1 8)) p0).natAbs ≠ 0) :
    exec (.spoolSpan t c) s0 = .next (
      let s := s0.tick t
      let x := s.casOf c
      let p := s.num (oAx (s.nat (oCas c 0x0F 6)) 1 8)
      let u := s.setCasement c { x with ribbon := x.ribbon - x.span, spool := some p, span := s.nat (oCas c 0x0F 0x0A) }
      (u.setn (oCas c 0x0F 4) (s.spoolRemaining c x.span (sdiff p p0).natAbs : Nat)).consumableStatus c) := by
  change execSpoolSpan t c s0 = _
  have hcounts : ¬((s0.tick t).nat (oCas c 1 1) ≠ 1 ∨ (s0.tick t).nat (oCas c 0x0F 5) ≠ 3 ∨
      ((s0.tick t).casOf c).ribbon < ((s0.tick t).casOf c).span) := by omega
  unfold execSpoolSpan
  extract_lets s x span
  rw [show x.spool = some p0 from hspool]
  exact (if_neg hcounts).trans (if_neg hturned)

/-- Settles O19, event by event: each hypothesis is the condition under which its event occurs. -/
theorem ledgerEvents : Obligations.LedgerEvents := by
  unfold Obligations.LedgerEvents
  refine ⟨?service, ?gap, ?passStart, ?scrub, ?spool, ?ink⟩
  case service =>
    intro t s0 n vb vh von m v s j r hsvc hphase hstate hmeas hend
    exact execMeasureCycle_ended vb vh von (.inl ⟨v, hsvc, hphase, hstate⟩) hmeas hend
  case gap =>
    intro t s0 n vb vh von m s j r hsvc hgap hpass hmeas hend
    exact execMeasureCycle_ended vb vh von (.inr ⟨hsvc, hgap, hpass⟩) hmeas hend
  case passStart =>
    intro t s0 n s x hgap hidle hdue
    exact execMeasurePassStart_due hgap hidle hdue
  case scrub =>
    intro t s0 s q u hon hmode hdue
    exact execScrubStep_due hon hmode hdue
  case spool =>
    intro t s0 n p0 s x span p k u sc dc th num hspool hribbon hsource hspan hturned
    exact execSpoolSpan_turned hspool hribbon hsource hspan hturned
  case ink =>
    intro t s0 n s x hmode hconf hstate hink hsource hdue
    exact if_pos ⟨State.running_of_mode hmode, hconf, hstate, hink, hsource, hdue⟩

end Sys2Proof.Machine

namespace Sys2Proof.Machine

/-! # Axis commands (R248 to R250, R331) -/

theorem findRow_axisCommand (a : Fin 48) :
    findRow (0x4000 + 0x20 * a + 2) 1 = some (0x4002, a.val, ⟨1, 1, .uns 1, 28, true, 0, .set [1, 2, 3, 4, 5, 6, 7, 8, 9], .imm⟩) := by
  revert a
  decide +kernel

theorem findRow_segment : findRow 0x2040 2 = some (0x2040, 0, ⟨2, 1, .ostr 16 16, 31, false, 0, .any, .imm⟩) := by decide

/-- READY, MARKING and SERVICE take a write of this row (access letters YMV). -/
theorem modeTakes_axis {m : Nat} (hlow : 4 ≤ m) (hhigh : m ≤ 6) : modeTakes m 28 = true := by
  interval_cases m <;> rfl

theorem rowRange_axisCommand {cmd : Nat} (h : 1 ≤ cmd ∧ cmd ≤ 9) :
    rowRange ⟨1, 1, .uns 1, 28, true, 0, .set [1, 2, 3, 4, 5, 6, 7, 8, 9], .imm⟩ (.num cmd) = true := by
  obtain ⟨hlow, hhigh⟩ := h
  interval_cases cmd <;> rfl

/-! ## A write of an object of an axis or of the segment pool -/

theorem State.relCheck_axis {s : State} {base i sub : Nat} {v : Val} (b : Bytes)
    (hbase : (0x4000 ≤ base ∧ base ≤ 0x4A04) ∨ base = 0x2040) :
    s.relCheck base i sub v b = s.relAxis i (ky base sub) v.int.toNat v.int := by
  unfold State.relCheck
  rw [if_neg (by omega), if_neg (by omega), if_pos hbase]

theorem State.act_axis {s0 s : State} {p : Path} {alone : Bool} {idx base i sub : Nat} {v : Val} (b : Bytes)
    (hbase : (0x4000 ≤ base ∧ base ≤ 0x4A04) ∨ base = 0x2040) (htrim : hasTrim base = false) :
    State.act s0 s p alone idx base i sub v b = s.actUnit i (ky base sub) v.int.toNat v.int b := by
  unfold State.act
  rw [if_neg (by omega), htrim, if_neg Bool.false_ne_true, if_pos (.inr hbase)]

section Writes
variable {s : State} {p : Path} (hp : s.serves p = true)
include hp

/-- A command that its check accepts is answered and acts (R248, R331). -/
theorem State.next_axisCommand {a : Fin 48} {cmd : Nat} (hready : 4 ≤ s.modeN) (hmode : s.modeN ≤ 6) (hcheck : s.axCheck a cmd = none)
    (hcmd : 1 ≤ cmd ∧ cmd ≤ 9 := by decide) :
    (.next (s.dictNum p (0x4000 + 0x20 * a + 2) 1 cmd) : Step) = .next ((s.answer .ok).axAct a cmd) := by
  have hput := State.writeVal_command (s := s) (r := ⟨1, 1, .uns 1, 28, true, 0, .set [1, 2, 3, 4, 5, 6, 7, 8, 9], .imm⟩)
    (ky (0x4000 + 0x20 * a + 2) 1) (.num cmd) rfl rfl
  have hrel : s.relAxis a 0x400201 cmd cmd = none := (if_neg (fun h => Bool.false_ne_true h.2)).trans hcheck
  obtain ⟨b, hwrite⟩ := State.dictNum_accepted hp (by decide) (findRow_axisCommand a) rfl (modeTakes_axis hready hmode) (by omega)
    (rowRange_axisCommand hcmd) fun b => by
      rw [hput]
      exact (State.relCheck_axis b (.inl (by decide))).trans hrel
  rw [hwrite, hput]
  exact congrArg Host.Outcome.next (State.act_axis b (.inl (by decide)) rfl)

/-- Sixteen bytes for a segment that no run needs are answered and put into the pool (R250). -/
theorem State.dictWrite_segment {b : Bytes} (hmode : s.modeN ≤ 6) (hlen : b.length = 16)
    (hfree : s.segBusy (s.nat (ky 0x2040 1)) = false) : s.dictWrite p 0x2040 2 b = (s.answer .ok).segWrite b := by
  have hdec : decodeVal (.ostr 16 16) b = some (.str b) := by simp [decodeVal, hlen]
  have hrange : rowRange ⟨2, 1, .ostr 16 16, 31, false, 0, .any, .imm⟩ (.str b) = true := by simp [rowRange, hlen]
  have hparse : s.writeParse 0x2040 2 b = .ok (0x2040, 0, ⟨2, 1, .ostr 16 16, 31, false, 0, .any, .imm⟩, .str b) := by
    rw [State.writeParse_decoded findRow_segment (modeTakes_notSafe (State.modeN_of_serves hp) hmode) hdec, hrange]
    simp
  have hput : s.writeVal (ky 0x2040 2) ⟨2, 1, .ostr 16 16, 31, false, 0, .any, .imm⟩ (.str b) = s := if_pos (by decide)
  rw [State.dictWrite_accepted hp hparse ?rel, hput]
  case rel =>
    rw [hput]
    exact (State.relCheck_axis b (.inr rfl)).trans (busyIf_false hfree)
  exact State.act_axis b (.inr rfl) rfl

end Writes

/-- Settles O20: the nine commands are one write, which `State.axAct` tells apart. -/
theorem axisCommands : Obligations.AxisCommands := by
  unfold Obligations.AxisCommands
  refine ⟨?enable, ?disable, ?move, ?velocity, ?run, ?stop, ?align, ?brake, ?clear, ?segment⟩
  case segment =>
    intro t s0 p b s hp hmode hlen hfree
    exact congrArg Host.Outcome.next (State.dictWrite_segment hp hmode hlen hfree)
  all_goals
    intro t s0 p a s hp hready hmode hcheck
    exact State.next_axisCommand hp hready hmode hcheck

end Sys2Proof.Machine

namespace Sys2Proof.Machine

/-! # Axis events (R247, R249, R252 to R259, R265, R273) -/

section Events
variable {t : Time} {s0 : State} {a : Fin 48}

/-! ## The check of a chain (R252) -/

/-- The chain of axis `a` has been checked, with result `r` in its object. -/
def State.runChecked (s : State) (a r : Nat) : State :=
  (s.setAx a { s.axOf a with checking := none }).setn (oAx a 2 4) r

/-- The result is no other object. -/
theorem State.nat_runChecked_ne {s : State} {a r k : Nat} (hk : k ≠ oAx a 2 4) : (s.runChecked a r).nat k = s.nat k :=
  State.nat_setn_ne _ _ hk

section Checked
variable {n : Nat} (hcheck : ((s0.tick t).axOf a).checking = some n)
include hcheck

theorem execRunCheckDone_refused (hbad : (s0.tick t).runCheck a n ≠ 0) :
    exec (.runCheckDone t a) s0 = .next ((s0.tick t).runChecked a ((s0.tick t).runCheck a n)) := by
  change execRunCheckDone t a s0 = _
  rw [execRunCheckDone, hcheck]
  exact if_pos hbad

/-- A chain that passes its check arms the run on its trigger input, or lets it wait for the next tick where it has none. -/
theorem execRunCheckDone_passed (hgood : (s0.tick t).runCheck a n = 0) :
    exec (.runCheckDone t a) s0 = .next (
      let g := (s0.tick t).nat (oAx a 2 3)
      let u := (s0.tick t).runChecked a 0
      if g < 64 then u.setAx a { u.axOf a with armed := some (n, g) }
      else u.setAx a { u.axOf a with cmds := (u.axOf a).cmds ++ [.runStart n] }) := by
  change execRunCheckDone t a s0 = _
  rw [← State.nat_runChecked_ne (s := s0.tick t) (r := 0) (show oAx a 2 3 ≠ oAx a 2 4 by unfold oAx ky; omega), execRunCheckDone, hcheck]
  simp only [hgood]
  rfl

end Checked

theorem execRunTrigger_active {n g : Nat} (harmed : ((s0.tick t).axOf a).armed = some (n, g))
    (hactive : ((s0.tick t).ginOf g).active = true) :
    exec (.runTrigger t a) s0 = .next ((s0.tick t).setAx a
      { (s0.tick t).axOf a with armed := none, cmds := ((s0.tick t).axOf a).cmds ++ [.runStart n] }) := by
  change execRunTrigger t a s0 = _
  rw [execRunTrigger, harmed]
  exact if_pos hactive

/-! ## Times that run out (R254, R258, R265) -/

theorem execFollowingError_past {b : Time} (hfar : ((s0.tick t).axOf a).followT = some b)
    (hlong : b + msT ((s0.tick t).nat (oAx a 4 8)) < t) (hlow : 1 ≤ (s0.tick t).axState a) (hhigh : (s0.tick t).axState a ≤ 3)
    (hnew : (s0.tick t).obit (oAx a 2 6) 5 = false) :
    exec (.followingError t a) s0 =
      .next ((((s0.tick t).setbit (oAx a 2 6) 5 true).axEvent a 0x0204).axisFault a 2 0) := by
  change execFollowingError t a s0 = _
  rw [execFollowingError, hfar]
  exact if_pos ⟨hlong, hlow, hhigh, by rw [hnew]; rfl⟩

theorem execHoldCurrentTimeout_rested {z : Time} (hzero : ((s0.tick t).axOf a).zeroT = some z) (hkind : (s0.tick t).axKind a = 1)
    (hrest : ((s0.tick t).axOf a).vm = 0) (hlong : z + msT 100 ≤ t) :
    exec (.holdCurrentTimeout t a) s0 = .next ((s0.tick t).setAx a { (s0.tick t).axOf a with holdCur := true }) := by
  change execHoldCurrentTimeout t a s0 = _
  simp only [execHoldCurrentTimeout, hzero, hkind, hrest, hlong, and_self, if_true]

theorem execAlignTimeExpiry_run {b : Time} (halign : ((s0.tick t).axOf a).alignT = some b)
    (hrun : b + msT ((s0.tick t).nat (oAx a 6 6) / 65536) ≤ t) :
    exec (.alignTimeExpiry t a) s0 = .next (
      let s := s0.tick t
      ((s.putAx a { s.axOf a with alignT := none }).setn (oAx a 6 4) (wrapS 32 (s.num (oAx a 1 8)))).enforce (oAx a 6 4)) := by
  change execAlignTimeExpiry t a s0 = _
  rw [execAlignTimeExpiry, halign]
  exact if_pos hrun

/-! ## A catch (R273) -/

/-- The catch time of axis `a`. -/
def State.catchTime (s : State) (a : Nat) : Time := msT (s.frcN (oAx a 7 0x0B) % 65536)

section Catch
variable {b : Time} (hcatch : ((s0.tick t).axOf a).catchT = some b)
include hcatch

/-- A catch that has measured for its time ends with what the observer or the encoder gives, or goes over to its brake. -/
theorem execCatchDone_measured (hfree : ((s0.tick t).axOf a).catchBrake = false) (hrun : b + (s0.tick t).catchTime a ≤ t) :
    exec (.catchDone t a) s0 = .next (
      let s := s0.tick t
      let x := s.axOf a
      if s.onObserver a then
        if x.obs.valid then s.axCaught a (s.obsVel a)
        else s.putAx a { x with catchT := some t, catchBrake := true, braking := true }
      else (s.axFeedback a).axCaught a ((s.axFeedback a).encVel ((s.axFeedback a).nat (oAx a 0 2)) (s.catchTime a) t)) := by
  change execCatchDone t a s0 = _
  have hgoes : ¬(((s0.tick t).axOf a).catchBrake = true ∨ t < b + (s0.tick t).catchTime a) := by
    rw [hfree]
    exact not_or.mpr ⟨Bool.false_ne_true, hrun.not_gt⟩
  rw [execCatchDone, hcatch]
  simp only [apply_ite Host.Outcome.next]
  exact if_neg hgoes

theorem execCatchBrakeExpiry_run (hbrake : ((s0.tick t).axOf a).catchBrake = true)
    (hrun : b + msT ((s0.tick t).frcN (oAx a 7 0x0B) / 65536) ≤ t) :
    exec (.catchBrakeExpiry t a) s0 = .next ((s0.tick t).axCaught a 0) := by
  change execCatchBrakeExpiry t a s0 = _
  rw [execCatchBrakeExpiry, hcatch]
  exact if_pos ⟨hbrake, hrun⟩

end Catch

end Events

/-- Settles O21, event by event: each hypothesis is the condition under which its event occurs. -/
theorem axisEvents : Obligations.AxisEvents := by
  unfold Obligations.AxisEvents
  refine ⟨?queued, ?refused, ?armed, ?trigger, ?limit, ?tick, ?following, ?hold, ?observed, ?brakes, ?measured, ?braked, ?aligned⟩
  case queued =>
    intro t s0 a n s x r g u hcheck hgood hnoInput
    exact (execRunCheckDone_passed hcheck hgood).trans (congrArg Host.Outcome.next (if_neg hnoInput.not_gt))
  case refused =>
    intro t s0 a n s x r hcheck hbad
    exact execRunCheckDone_refused hcheck hbad
  case armed =>
    intro t s0 a n s x r g u hcheck hgood hinput
    exact (execRunCheckDone_passed hcheck hgood).trans (congrArg Host.Outcome.next (if_pos hinput))
  case trigger =>
    intro t s0 a n g s x harmed hactive
    exact execRunTrigger_active harmed hactive
  case limit =>
    intro t s0 a v s x hon
    exact if_pos hon
  case tick =>
    intro t s0 a s w p r y v u hmode hkind hdue
    exact if_neg (by rw [not_or, not_or]; exact ⟨hmode.not_ge, hkind, by rw [hdue]; exact Bool.false_ne_true⟩)
  case following =>
    intro t s0 a b s hfar hlong hlow hhigh hnew
    exact execFollowingError_past hfar hlong hlow hhigh hnew
  case hold =>
    intro t s0 a z s x hzero hkind hrest hlong
    exact execHoldCurrentTimeout_rested hzero hkind hrest hlong
  case observed =>
    intro t s0 a b s x hcatch hfree hrun hobs hvalid
    exact (execCatchDone_measured hcatch hfree hrun).trans (congrArg Host.Outcome.next ((if_pos hobs).trans (if_pos hvalid)))
  case brakes =>
    intro t s0 a b s x hcatch hfree hrun hobs hinvalid
    have hlost : ¬x.obs.valid = true := by rw [hinvalid]; exact Bool.false_ne_true
    exact (execCatchDone_measured hcatch hfree hrun).trans (congrArg Host.Outcome.next ((if_pos hobs).trans (if_neg hlost)))
  case measured =>
    intro t s0 a b s x w u hcatch hfree hrun henc
    have hnot : ¬s.onObserver a = true := by rw [henc]; exact Bool.false_ne_true
    exact (execCatchDone_measured hcatch hfree hrun).trans (congrArg Host.Outcome.next (if_neg hnot))
  case braked =>
    intro t s0 a b s x hcatch hbrake hrun
    exact execCatchBrakeExpiry_run hcatch hbrake hrun
  case aligned =>
    intro t s0 a b s x halign hrun
    exact execAlignTimeExpiry_run halign hrun

end Sys2Proof.Machine

namespace Sys2Proof.Machine

/-! # Chopper, overcurrent and observer events (R261 to R264, R269 to R272) -/

@[simp] theorem State.putAx_brk (s : State) (a : Nat) (x : Axis) : ((s.putAx a x).axOf a).brk = x.brk := by
  unfold State.putAx
  split
  · rw [State.axOf_setAx_self]
    rfl
  · rw [State.axOf_setAx_self]

/-- A command in time sets the present time to its own. -/
theorem State.tick_now_of_le {s0 : State} {t : Time} (h : s0.clk.mono ≤ t) : (s0.tick t).now = t := max_eq_right h

section Events
variable {t : Time} {s0 : State} {a : Fin 16}

/-! ## The chopper (R262, R263, R272) -/

section Chopper
variable {ph : Fin 3} {i : Int}

/-- A phase of an axis that regulates switches off at its upper threshold. -/
theorem execChopOff_off (hreg : (s0.tick t).regulates a = true) (hphase : ph.val < (s0.tick t).phases a)
    (hon : (tget (fun _ => Chop.init) ((s0.tick t).axOf a).chop ph).on = true)
    (hwait : (tget (fun _ => Chop.init) ((s0.tick t).axOf a).chop ph).t0 +
      chopT (max (bits ((s0.tick t).frcN (oAx a 5 9)) 15 0) (bits ((s0.tick t).frcN (oAx a 5 9)) 31 16)) ≤ t)
    (hhigh : ((tget (fun _ => Chop.init) ((s0.tick t).axOf a).chop ph).hi : Int) ≤ i) :
    exec (.chopOff t a ph i) s0 = .next (
      let s := s0.tick t
      let x := s.axOf a
      let c := tget (fun _ => Chop.init) x.chop ph
      s.putAx a { x with chop := tset (fun _ => Chop.init) x.chop ph { c with on := false, offT := t } }) := by
  have hfree : ¬((s0.tick t).axOf a).braking = true := by
    intro hbrake
    simp only [State.regulates, hbrake, Bool.not_true, Bool.and_false, Bool.false_eq_true] at hreg
  exact (if_neg hfree).trans (if_pos ⟨hreg, hphase, hon, hwait, hhigh⟩)

/-- The low side of a braking phase over the limit opens for the minimum off time from the present time, which is `t` only for a command
in time. -/
theorem execChopOff_brakes (hbrake : ((s0.tick t).axOf a).braking = true) (hscale : (s0.tick t).frcI (oAx a 5 1) ≠ 0)
    (hphase : ph.val < brakePhases ((s0.tick t).axKind a)) (hclosed : tget (fun _ => 0) ((s0.tick t).axOf a).brk ph ≤ (s0.tick t).now)
    (hover : (chopCode (tdiv ((s0.tick t).num (oAx a 7 0x0E) * 65536) ((s0.tick t).frcI (oAx a 5 1))) : Int) < i) :
    exec (.chopOff t a ph i) s0 = .next (
      let s := s0.tick t
      let x := s.axOf a
      s.putAx a { x with brk := tset (fun _ => 0) x.brk ph (s.now + s.toffMin a) }) := by
  have hlsb : (s0.tick t).toLsb a 0 ((s0.tick t).num (oAx a 7 0x0E)) =
      tdiv ((s0.tick t).num (oAx a 7 0x0E) * 65536) ((s0.tick t).frcI (oAx a 5 1)) := if_neg hscale
  rw [← hlsb] at hover
  refine (if_pos hbrake).trans (congrArg Host.Outcome.next ?_)
  simp only [State.brakeOpen, if_neg hscale]
  exact if_pos ⟨hphase, hclosed, hover⟩

/-- The low side opens for the minimum off time from `t` on where the command is not before the present time. -/
theorem execChopOff_brakes_inTime (hintime : s0.clk.mono ≤ t) (hbrake : ((s0.tick t).axOf a).braking = true)
    (hscale : (s0.tick t).frcI (oAx a 5 1) ≠ 0) (hphase : ph.val < brakePhases ((s0.tick t).axKind a))
    (hclosed : tget (fun _ => 0) ((s0.tick t).axOf a).brk ph ≤ t)
    (hover : (chopCode (tdiv ((s0.tick t).num (oAx a 7 0x0E) * 65536) ((s0.tick t).frcI (oAx a 5 1))) : Int) < i) :
    exec (.chopOff t a ph i) s0 = .next (
      let s := s0.tick t
      let x := s.axOf a
      s.putAx a { x with brk := tset (fun _ => 0) x.brk ph (t + s.toffMin a) }) := by
  have hnow := State.tick_now_of_le hintime
  rw [execChopOff_brakes hbrake hscale hphase (hclosed.trans hnow.ge) hover]
  simp only [hnow]

/-- A cycle that is over makes way for one with the set-point of now and an offset adapted by the mean it measured. -/
theorem execChopCycleEnd_over (mean : Fin 4096) (hreg : (s0.tick t).regulates a = true) (hphase : ph.val < (s0.tick t).phases a)
    (hover : (s0.tick t).cycleOver a (tget (fun _ => Chop.init) ((s0.tick t).axOf a).chop ph) i t = true)
    (hrun : tget (fun _ => Chop.init) ((s0.tick t).axOf a).chop ph ≠ Chop.init) (hscale : (s0.tick t).frcI (oAx a 5 1) ≠ 0) :
    exec (.chopCycleEnd t a ph (i, mean)) s0 = .next (
      let s := s0.tick t
      let x := s.axOf a
      let c := tget (fun _ => Chop.init) x.chop ph
      let m := if s.senseFlips a ph then -s.senseLsb a mean else s.senseLsb a mean
      let off := s.chopOffset a c false m
      let u := s.putAx a { x with
        chop := tset (fun _ => Chop.init) x.chop ph (s.newCycle a (s.phaseSet a ph 0) off m), sector := s.sectorNow a }
      if ph.val = 0 then u.setn (oAx a 5 0x0C) off else u) := by
  change execChopCycleEnd t a ph (i, mean) s0 = _
  have hfirst : (tget (fun _ => Chop.init) ((s0.tick t).axOf a).chop ph == Chop.init) = false := beq_eq_false_iff_ne.mpr hrun
  simp only [execChopCycleEnd, hfirst, hreg, hphase, hover, if_neg hscale, decide_true, Bool.not_true, Bool.or_false, Bool.false_eq_true,
    if_false]
  rfl

end Chopper

/-! ## Overcurrent (R264) -/

/-- What overcurrent does to an axis in whatever state: the gates go off at once and OVERCURRENT stands; a DISABLED axis stays DISABLED. -/
def State.overcurrentCut (s : State) (a : Nat) : State :=
  if s.axState a = 0 then (s.axDisable a).setbit (oAx a 2 6) 4 true
  else if s.axState a = 4 then (s.putAx a { s.axOf a with gates := false, braking := false, chop := [] }).setbit (oAx a 2 6) 4 true
  else s.axFault a 4 false

theorem execOvercurrent_over {pin : Fin 4} {code : Fin 256} (hlow : 1 ≤ (s0.tick t).axKind a) (hhigh : (s0.tick t).axKind a ≤ 3)
    (hover : (s0.tick t).nat (oAx a 5 4) ≤ code.val) :
    exec (.overcurrent t a (pin, code)) s0 = .next (((s0.tick t).overcurrentCut a).axisFault a 1 pin) := by
  have hport : ¬((s0.tick t).axKind a = 0 ∨ 3 < (s0.tick t).axKind a ∨ code.val < (s0.tick t).nat (oAx a 5 4)) := by omega
  refine (if_neg hport).trans (congrArg (fun u : State => Host.Outcome.next (u.axisFault a 1 pin)) ?_)
  unfold State.overcurrentCut
  generalize (s0.tick t).axState a = st
  match st with
  | 0 | 1 | 2 | 3 | 4 => rfl
  | _ + 5 => rfl

/-! ## The observer (R261, R269 to R271) -/

/-- A round of a BRUSHLESS axis's sense ADC takes the currents and moves the observer on (R261, R269). -/
theorem execObserverUpdate_round (is01 is23 vp01 : Fin 4096 × Fin 4096) (vp2 : Fin 4096) (hkind : (s0.tick t).axKind a = 2)
    (hdue : elapsed ((s0.tick t).axOf a).roundT (nsT 1400) t = true) :
    exec (.observerUpdate t a is01 is23 vp01 vp2) s0 = .next (
      let s := s0.tick t
      let i := [is01.1, is01.2, is23.1, is23.2].map (fun c => s.senseMa a c)
      let v := Config.alphaBeta ([vp01.1, vp01.2, vp2].map (fun c => s.senseUv a c))
      let j := Config.alphaBeta (i.take 3)
      (s.setAx a { s.axOf a with round := i, roundT := some t }).obsRound a t v.1 v.2 j.1 j.2) := by
  have hport : ¬((s0.tick t).axKind a = 0 ∨ 3 < (s0.tick t).axKind a ∨
      (!elapsed ((s0.tick t).axOf a).roundT (nsT 1400) t) = true) := by
    rw [hkind, hdue]
    decide
  exact (if_neg hport).trans (if_neg (not_not.mpr hkind))

theorem execObserverDisagreement_past {b : Time} (hfar : ((s0.tick t).axOf a).disagreeT = some b)
    (hvalid : ((s0.tick t).axOf a).obs.valid = true) (hlong : b + msT ((s0.tick t).nat (oAx a 7 6) / 65536) < t)
    (henabled : (s0.tick t).axState a ≠ 0) (hhealthy : (s0.tick t).axState a ≠ 4) (hnew : (s0.tick t).obit (oAx a 2 6) 3 = false) :
    exec (.observerDisagreement t a) s0 = .next (
      (((s0.tick t).setAx a { (s0.tick t).axOf a with disagreeT := none }).setbit (oAx a 2 6) 3 true).axEvent a 0x0205) := by
  change execObserverDisagreement t a s0 = _
  rw [execObserverDisagreement, hfar]
  exact if_pos ⟨hvalid, hlong, henabled, hhealthy, by rw [hnew]; rfl⟩

theorem execStartTimeout_invalid {b : Time} (hstart : ((s0.tick t).axOf a).startT = some b)
    (hlong : b + msT ((s0.tick t).frcN (oAx a 7 9)) ≤ t) (hinvalid : ((s0.tick t).axOf a).obs.valid = false) :
    exec (.startTimeout t a) s0 = .next (((s0.tick t).setAx a { (s0.tick t).axOf a with startT := none }).positionLost a) := by
  change execStartTimeout t a s0 = _
  rw [execStartTimeout, hstart]
  exact if_pos ⟨hlong, by rw [hinvalid]; rfl⟩

end Events

/-! ## A braking phase whose command comes late -/

/-- Axis 0, BRUSHLESS, brakes with all low sides closed, the monotonic count at 1. -/
def brakingState : State :=
  { State.reset with
    clk := { State.reset.clk with mono := 1 }
    axes := [(0, { Axis.init with braking := true })]
    force := [(oAx 0 0 1, .num 2), (oAx 0 5 1, .num 65536)] }

/-- A current of 300 steps is over the brake limit of axis 0. -/
theorem brakingState_over_limit :
    let s := brakingState.tick 0
    (s.axOf 0).braking = true ∧ s.frcI (oAx 0 5 1) ≠ 0 ∧ 0 < brakePhases (s.axKind 0) ∧ tget (fun _ => 0) (s.axOf 0).brk 0 ≤ 0 ∧
      (chopCode (tdiv (s.num (oAx 0 7 0x0E) * 65536) (s.frcI (oAx 0 5 1))) : Int) < 300 := by
  decide

/-- Refutes O22: the statement lets a command come before the present time, which does not go back (R119). The low side of the braking
phase of `brakingState`, told at time 0 and served at time 1, stays open until the minimum off time after 1, not after 0.
`execChopOff_brakes_inTime` is the claim for a command in time; the other events are as O22 says, by the lemmas above. -/
theorem not_motorCommands : ¬ Obligations.MotorCommands := by
  unfold Obligations.MotorCommands
  rintro ⟨-, hclaim, -⟩
  obtain ⟨hbrake, hscale, hphase, hclosed, hover⟩ := brakingState_over_limit
  have hfromT := hclaim 0 brakingState 0 0 300 hbrake hscale hphase hclosed hover
  have hfromNow := execChopOff_brakes (t := 0) (s0 := brakingState) (a := 0) (ph := 0) hbrake hscale hphase
    (hclosed.trans (Nat.zero_le _)) hover
  have htimes := congrArg (fun s : State => tget (fun _ => 0) (s.axOf 0).brk 0) (Host.Outcome.next.inj (hfromNow.symm.trans hfromT))
  simp only [Fin.val_zero, State.putAx_brk, tget_tset_self, State.toffMin] at htimes
  exact absurd (Nat.add_right_cancel htimes) (by decide)

end Sys2Proof.Machine

namespace Sys2Proof.Machine

-- One theorem after the other: those that wait for others each hold a thread, and the check's memory has room for few.
set_option Elab.async false

/-! # Execute objects of the host interface, the store, the Lamplighter, the one-time memory and the modes (R329 to R331) -/

/-- All modes from CONFIGURE on take a write of these rows (access letters CSYMV and SAFE). -/
theorem modeTakes_served {m : Nat} (hlow : 2 ≤ m) (hhigh : m ≤ 7) : modeTakes m 63 = true := by
  interval_cases m <;> rfl

/-- CONFIGURE, STANDBY and SERVICE take a write of these rows (access letters CSV). -/
theorem modeTakes_idle {m : Nat} (h : m = 2 ∨ m = 3 ∨ m = 6) : modeTakes m 19 = true := by
  rcases h with rfl | rfl | rfl <;> rfl

/-- A guard that asks for a flag to be clear fails where the flag is set. -/
theorem not_bnot_of_true {b : Bool} (h : b = true) : ¬(!b) = true := by
  rw [h]
  decide

/-- A write that goes to an engine leaves its object as it is. -/
theorem State.writeVal_notHeld {s : State} {k : Nat} (r : Row) (v : Val) (hk : notHeld k = true) : s.writeVal k r v = s :=
  if_pos (by rw [hk, Bool.or_true])

/-- A write that the checks of its row accept is one of that row, with the value that its bytes hold. -/
theorem State.writeParse_ok_row {s : State} {idx sub base i : Nat} {b : Bytes} {row : Row} {x : Nat × Nat × Row × Val}
    (hrow : findRow idx sub = some (base, i, row)) (hparse : s.writeParse idx sub b = .ok x) :
    ∃ v, x = (base, i, row, v) ∧ decodeVal row.ty b = some v := by
  rw [State.writeParse, hrow] at hparse
  dsimp only at hparse
  split_ifs at hparse
  split at hparse
  next => exact nomatch hparse
  next v hdec =>
    split_ifs at hparse
    exact ⟨v, (Except.ok.inj hparse).symm, hdec⟩

/-- A write that a relation refuses leaves what the rules give to the refusal, and is answered with it. -/
theorem State.dictWrite_unrelated {s : State} {p : Path} {idx sub base i : Nat} {b : Bytes} {row : Row} {v : Val} {r : Refuse}
    (hp : s.serves p = true) (hparse : s.writeParse idx sub b = .ok (base, i, row, v))
    (hrel : (s.writeVal (ky idx sub) row v).relCheck base i sub v b = some r) :
    s.dictWrite p idx sub b =
      (s.refusedSide (s.writeVal (ky idx sub) row v) base i sub v.int.toNat r).answer (.refused r) := by
  obtain ⟨hbar, hmode, hdeaf, husdo⟩ := (s.serves_iff p).mp hp
  have hone : s.writeOne p true idx sub b =
      (s.refusedSide (s.writeVal (ky idx sub) row v) base i sub v.int.toNat r, some r) := by
    simp only [State.writeOne, hparse, hrel]
  have hmode' : ¬ s.modeN ≤ 1 := by omega
  cases p with
  | bar0 => exact absurd rfl hbar
  | usdo i => simp [State.dictWrite, hmode', hdeaf, husdo i rfl, hone]
  | _ => simp [State.dictWrite, hmode', hdeaf, hone]

section Objects
variable {s w u : State} {p : Path} {idx sub n k : Nat} {row : Row} (hp : s.serves p = true)
include hp

/-- A number that its row and its relations accept leaves an object of the line, time or the host interface in `w`, is answered and
acts. -/
theorem State.dictNum_lineObject (hrow : findRow idx sub = some (idx, 0, row)) (hty : row.ty = .uns k)
    (hmode : modeTakes s.modeN row.acc = true) (hn : n < 2 ^ (8 * k)) (hrange : rowRange row (.num n) = true)
    (hput : s.writeVal (ky idx sub) row (.num n) = w) (hline : w.relLine 0 (ky idx sub) n n = none)
    (hhost : ∀ b, w.relHost 0 (ky idx sub) n b = none)
    (hact : ∀ b, (State.actLine s (w.answer .ok) p true 0 (ky idx sub) n n).actHost p true 0 (ky idx sub) n b = u)
    (hplace : (idx < 0x3000 ∧ idx ≠ 0x2380 ∧ idx ≠ 0x2040) ∧ hasTrim idx = false ∧ sub < 256 := by decide) :
    s.dictNum p idx sub n = u := by
  obtain ⟨⟨hlow, htal, hseg⟩, htrim, hsub⟩ := hplace
  subst hput
  obtain ⟨b, hwrite⟩ := State.dictNum_accepted hp hsub hrow hty hmode hn hrange fun b =>
    State.relCheck_line b hlow htal hseg hline (hhost b)
  rw [hwrite, State.act_line b hlow htal hseg htrim]
  exact hact b

/-- A BOOLEAN object that its row accepts, in a mode that the row lists: its bytes are those of a number of one byte. -/
theorem State.dictNum_boolObject (hrow : findRow idx sub = some (idx, 0, row)) (hty : row.ty = .bool)
    (hmode : modeTakes s.modeN row.acc = true) (hn : n < 2) (hrange : rowRange row (.num n) = true)
    (hput : s.writeVal (ky idx sub) row (.num n) = w) (hline : w.relLine 0 (ky idx sub) n n = none)
    (hhost : ∀ b, w.relHost 0 (ky idx sub) n b = none)
    (hact : ∀ b, (State.actLine s (w.answer .ok) p true 0 (ky idx sub) n n).actHost p true 0 (ky idx sub) n b = u)
    (hplace : (idx < 0x3000 ∧ idx ≠ 0x2380 ∧ idx ≠ 0x2040) ∧ hasTrim idx = false ∧ sub < 256 := by decide) :
    s.dictNum p idx sub n = u := by
  obtain ⟨⟨hlow, htal, hseg⟩, htrim, hsub⟩ := hplace
  subst hput
  have hn' : n < 2 ^ (8 * 1) := by omega
  have hbytes : numBytes (ky idx sub) n = leBytes 1 n := by
    rw [numBytes, widthOf_flag hsub hrow hty]
    exact congrArg (leBytes · n) (if_pos hn')
  have hv : decodeVal row.ty (leBytes 1 n) = some (.num n) := by
    rw [hty, decodeVal, if_pos (leBytes_length 1 n), leNat_leBytes hn']
  have hparse : s.writeParse idx sub (leBytes 1 n) = .ok (idx, 0, row, .num n) := by
    rw [State.writeParse_decoded hrow hmode hv, hrange]
    simp
  rw [State.dictNum, hbytes, State.dictWrite_accepted hp hparse (State.relCheck_line _ hlow htal hseg hline (hhost _)),
    State.act_line _ hlow htal hseg htrim]
  exact hact _

end Objects

/-! # Persistent store commands (R334 to R337) -/

theorem findRow_save : findRow 0x1010 1 = some (0x1010, 0, ⟨1, 1, .uns 4, 31, false, 3, .set [0x65766173], .imm⟩) := by decide

theorem findRow_restore : findRow 0x1011 1 = some (0x1011, 0, ⟨1, 1, .uns 4, 31, false, 1, .set [0x64616F6C], .reset⟩) := by decide

section Writes
variable {s : State} {p : Path} (hp : s.serves p = true) (hmode : s.modeN ≤ 6)
include hp hmode

/-- A save while no other commanded one runs is answered and starts (R335). -/
theorem State.dictNum_save (hcheck : s.saveCheck = none) : s.dictNum p 0x1010 1 0x65766173 = (s.answer .ok).saveAct p :=
  State.dictNum_lineObject hp findRow_save rfl (modeTakes_notSafe (State.modeN_of_serves hp) hmode) (by decide) (by decide)
    (State.writeVal_notHeld _ _ (by decide)) rfl (fun _ => hcheck) fun _ => rfl

theorem State.dictNum_restore : s.dictNum p 0x1011 1 0x64616F6C = (s.answer .ok).restoreAct :=
  State.dictNum_lineObject hp findRow_restore rfl (modeTakes_notSafe (State.modeN_of_serves hp) hmode) (by decide) (by decide)
    (State.writeVal_notHeld _ _ (by decide)) rfl (fun _ => rfl) fun _ => rfl

end Writes

/-- The bank of the running save is put in place; a commanded save is answered now, an automatic one answers nobody. -/
theorem State.saveEnd_running {s : State} {b : Bank} {auto : Bool} (hrun : s.store.saving = some (b, auto)) :
    s.saveEnd =
      let u := s.putBank b
      let v := { u with store := { u.store with saving := none, path := none } }
      if auto then v else v.answer .ok := by
  simp only [State.saveEnd, hrun]

/-- An automatic save that is owed starts a second after the last one (R337). -/
theorem execAutoSave_due {t l : Time} {s0 : State} (hmode : 1 < (s0.tick t).modeN) (hserves : (s0.tick t).deaf = false)
    (howed : (s0.tick t).store.autoOwed = true) (hfree : (s0.tick t).store.saving = none)
    (hlast : (s0.tick t).store.lastAuto = some l) (hdue : l + secT 1 ≤ t) :
    exec (.autoSave t) s0 = .next (
      let s := s0.tick t
      { s with store := { s.store with saving := some (s.nextBank, true), lastAuto := some t, autoOwed := false } }) := by
  change execAutoSave t s0 = _
  simp only [execAutoSave, hmode.not_ge, hserves, howed, hfree, hlast, hdue, decide_true, Bool.not_true, Option.isSome_none,
    Bool.false_eq_true, or_self, if_false]

/-- Settles O39, command by command: each hypothesis is one check that the write passes, or the state in which its event occurs. -/
theorem storeCommands : Obligations.StoreCommands := by
  unfold Obligations.StoreCommands
  refine ⟨?save, ?restore, ?commanded, ?automatic, ?owed⟩
  case save =>
    intro t s0 p s hp hmode hcheck
    exact congrArg Host.Outcome.next (State.dictNum_save hp hmode hcheck)
  case restore =>
    intro t s0 p s hp hmode
    exact congrArg Host.Outcome.next (State.dictNum_restore hp hmode)
  case commanded =>
    intro t s0 b s u hrun
    exact congrArg Host.Outcome.next (State.saveEnd_running hrun)
  case automatic =>
    intro t s0 b s u hrun
    exact congrArg Host.Outcome.next (State.saveEnd_running hrun)
  case owed =>
    intro t s0 l s hmode hserves howed hfree hlast hdue
    exact execAutoSave_due hmode hserves howed hfree hlast hdue

/-! # Mode requests (R419 to R423) -/

theorem findRow_modeRequest : findRow 0x2100 1 = some (0x2100, 0, ⟨1, 1, .uns 1, 63, true, 0, .rng 2 7, .imm⟩) := by decide

/-- A request for a mode, in SAFE only for STANDBY, is answered and served. -/
theorem State.dictNum_modeRequest {s : State} {p : Path} {m : Nat} (hp : s.serves p = true) (hm : 2 ≤ m ∧ m ≤ 7)
    (hmode : s.modeN ≤ 6 ∨ s.modeN = 7 ∧ m = 3) : s.dictNum p 0x2100 1 m = (s.answer .ok).modeRequest m := by
  have hrel : badIf (s.modeN == 7 && m != 3) = none := by
    refine badIf_false ?_
    rcases hmode with h | ⟨-, rfl⟩
    · rw [beq_false_of_ne (by omega), Bool.false_and]
    · rw [Bool.and_comm]; rfl
  exact State.dictNum_lineObject hp findRow_modeRequest rfl (modeTakes_served (State.modeN_of_serves hp) (by omega)) (by omega)
    (rowRange_between rfl rfl (by omega) (by omega)) (State.writeVal_command _ _ rfl rfl) rfl (fun _ => hrel) fun _ => rfl

/-- Settles O35: the six requests are one write. -/
theorem modeRequests : Obligations.ModeRequests := by
  unfold Obligations.ModeRequests
  refine ⟨?configure, ?standby, ?ready, ?marking, ?service, ?safe⟩
  case standby =>
    intro t s0 p s hp hmode
    exact congrArg Host.Outcome.next 
      (State.dictNum_modeRequest hp (by decide) ((Nat.lt_or_eq_of_le hmode).imp Nat.le_of_lt_succ fun h => ⟨h, rfl⟩))
  all_goals
    intro t s0 p s hp hmode
    exact congrArg Host.Outcome.next (State.dictNum_modeRequest hp (by decide) (.inl hmode))

/-! # The mode graph (R420, R423) -/

/-- No object but the device mode's own changes the mode. -/
theorem State.modeN_setn_ne {s : State} {k : Nat} (v : Int) (hk : ky 0x2100 2 ≠ k) : (s.setn k v).modeN = s.modeN :=
  State.nat_setn_ne s v hk

theorem State.modeAsk_present (s : State) : s.modeAsk s.modeN = (0, s) := if_pos rfl

section Asked
variable {s : State} {m : Nat}

theorem State.modeAsk_restricted (hm : m ≠ 2) (hmode : s.modeN = 2) (hr : s.restricted = true) : s.modeAsk m = (7, s) :=
  (if_neg (by omega)).trans (if_pos ⟨hmode, hr⟩)

theorem State.modeAsk_safe (hlow : 2 ≤ s.modeN) (hhigh : s.modeN ≤ 6) (hfree : ¬(s.modeN = 2 ∧ s.restricted = true)) :
    s.modeAsk 7 = (0, s.enterSafe) :=
  (if_neg (by omega)).trans ((if_neg hfree).trans ((if_pos rfl).trans (if_pos ⟨hlow, hhigh⟩)))

variable (hm : m ≠ s.modeN) (hsafe : m ≠ 7) (hfree : ¬(s.modeN = 2 ∧ s.restricted = true))
include hm hsafe hfree

theorem State.modeAsk_waiting (hwait : s.mode.trans.isSome = true) : s.modeAsk m = (2, s) :=
  (if_neg hm).trans ((if_neg hfree).trans ((if_neg hsafe).trans (if_pos hwait)))

end Asked

/-- With no transition waiting, a pair of modes that the graph does not join answers 1. -/
theorem State.modeAsk_unjoined {s : State} {m : Nat} (hfree : ¬(s.modeN = 2 ∧ s.restricted = true)) (hnone : s.mode.trans = none)
    (hpair : (s.modeN, m) ∈ [(2, 4), (2, 5), (2, 6), (3, 5), (4, 2), (5, 2), (5, 3), (5, 6), (6, 2), (6, 5), (7, 2), (7, 4), (7, 5),
      (7, 6)]) : s.modeAsk m = (1, s) := by
  simp only [List.mem_cons, Prod.mk.injEq, List.not_mem_nil, or_false] at hpair
  rcases hpair with ⟨hcur, rfl⟩ | ⟨hcur, rfl⟩ | ⟨hcur, rfl⟩ | ⟨hcur, rfl⟩ | ⟨hcur, rfl⟩ | ⟨hcur, rfl⟩ | ⟨hcur, rfl⟩ | ⟨hcur, rfl⟩ |
    ⟨hcur, rfl⟩ | ⟨hcur, rfl⟩ | ⟨hcur, rfl⟩ | ⟨hcur, rfl⟩ | ⟨hcur, rfl⟩ | ⟨hcur, rfl⟩
  all_goals
    simp only [hcur, true_and] at hfree
    simp [State.modeAsk, hcur, hnone, hfree]

section Entered
variable {s : State} (hnone : s.mode.trans = none)
include hnone

/-- READY is entered from STANDBY and SERVICE where its condition holds. -/
theorem State.modeAsk_ready (hcur : s.modeN = 3 ∨ s.modeN = 6) :
    s.modeAsk 4 = if s.readyCode = 0 then (0, s.enterMode 4) else (s.readyCode, s) := by
  rcases hcur with hcur | hcur <;> simp [State.modeAsk, hcur, hnone, ite_not]

/-- READY and MARKING change into each other without a condition. -/
theorem State.modeAsk_marking {m : Nat} (hcur : s.modeN = 4 ∧ m = 5 ∨ s.modeN = 5 ∧ m = 4) : s.modeAsk m = (0, s.enterMode m) := by
  rcases hcur with ⟨hcur, rfl⟩ | ⟨hcur, rfl⟩ <;> simp [State.modeAsk, hcur, hnone]

end Entered

/-- An answer that refuses a request, neither 0 nor 0xFF, comes with the mode as it is. -/
def State.Stays (s : State) (p : Nat × State) : Prop := p.1 ≠ 0 → p.1 ≠ 0xFF → p.2.modeN = s.modeN

theorem State.Stays.same {s : State} {r : Nat} : s.Stays (r, s) := fun _ _ => rfl

theorem State.Stays.done {s u : State} : s.Stays (0, u) := fun h => absurd rfl h

theorem State.Stays.waits {s u : State} : s.Stays (0xFF, u) := fun _ h => absurd rfl h

theorem State.Stays.ite {s : State} {c : Prop} [Decidable c] {p q : Nat × State} (hp : s.Stays p) (hq : s.Stays q) :
    s.Stays (if c then p else q) := by
  split
  · exact hp
  · exact hq

/-- A refused request leaves the mode as it is. -/
theorem State.modeAsk_stays (s : State) (m : Nat) : s.Stays (s.modeAsk m) := by
  have hinto (c : Nat) : s.Stays (if c ≠ 0 then (c, s) else (0, s.enterMode m)) := .ite .same .done
  unfold State.modeAsk
  refine .ite .done (.ite .same (.ite (.ite .done .same) (.ite .same ?_)))
  split
  · split
    · exact fun _ _ => State.modeN_setn_ne _ (by decide)
    · exact .done
  · exact .ite .same .waits
  · exact hinto _
  · exact hinto _
  · exact hinto _
  · exact hinto _
  · exact hinto _
  · exact hinto _
  · exact .ite .same (.ite .done .waits)
  · exact .ite .same (.ite .done .waits)
  · exact .ite .same (.ite .same (.ite (fun _ _ => rfl) .done))
  · exact .same

/-- Settles O36, answer by answer. -/
theorem modeGraph : Obligations.ModeGraph := by
  unfold Obligations.ModeGraph
  refine ⟨State.modeAsk_present, ?waiting, ?safe, ?restricted, ?unjoined, ?ready, ?marking, ?leave, ?refused⟩
  case waiting => exact fun s m hm hsafe hfree hwait => State.modeAsk_waiting hm hsafe hfree hwait
  case safe => exact fun s hlow hhigh hfree => State.modeAsk_safe hlow hhigh hfree
  case restricted => exact fun s m hm hmode hr => State.modeAsk_restricted hm hmode hr
  case unjoined => exact fun s m hnone _ hfree hpair => State.modeAsk_unjoined hfree hnone hpair
  case ready => exact fun s hnone hcur => State.modeAsk_ready hnone hcur
  case marking => exact fun s hnone hcur => State.modeAsk_marking hnone (.inl ⟨hcur, rfl⟩)
  case leave => exact fun s hnone hcur => State.modeAsk_marking hnone (.inr ⟨hcur, rfl⟩)
  case refused => exact fun s m => s.modeAsk_stays m

/-! # Mode and reset events (R409, R413, R420, R424 to R427) -/

theorem findRow_reset : findRow 0x2101 3 = some (0x2101, 0, ⟨3, 1, .uns 1, 63, true, 0, .set [0x5A, 0xA5], .imm⟩) := by decide

/-- A reset (0x5A) or, while no update runs, a firmware restart (0xA5) is answered and begins. -/
theorem State.dictNum_reset {s : State} {p : Path} {v : Nat} (hp : s.serves p = true) (hmode : s.modeN ≤ 7)
    (hv : v = 0x5A ∨ v = 0xA5 ∧ s.otp.updating = none) :
    s.dictNum p 0x2101 3 v = if v = 0x5A then (s.answer .ok).resetAfterShutdown 4 else (s.answer .ok).beginRestart := by
  have hrange : rowRange ⟨3, 1, .uns 1, 63, true, 0, .set [0x5A, 0xA5], .imm⟩ (.num v) = true := by
    obtain rfl | ⟨rfl, -⟩ := hv <;> rfl
  have hrel : busyIf (v == 0xA5 && s.otp.updating.isSome) = none := by
    refine busyIf_false ?_
    obtain rfl | ⟨-, hidle⟩ := hv
    · rfl
    · rw [hidle, Option.isSome_none, Bool.and_false]
  exact State.dictNum_lineObject hp findRow_reset rfl (modeTakes_served (State.modeN_of_serves hp) hmode) (by omega) hrange
    (State.writeVal_command _ _ rfl rfl) rfl (fun _ => hrel) fun _ => rfl

/-- A waiting transition to STANDBY ends once all is quiet (R420). -/
theorem State.transTry_standby {s : State} (hwait : s.mode.trans = some 3) (hquiet : s.quiet = true) :
    s.transTry = ({ s with mode := { s.mode with trans := none } }.enterStandby).setn (ky 0x2100 3) 0 := by
  rw [State.transTry, hwait]
  exact if_pos hquiet

/-- A waiting transition to CONFIGURE ends once the system executor is idle (R420). -/
theorem State.transTry_configure {s : State} (hwait : s.mode.trans = some 2) (hidle : s.exBusy sysEx = false) :
    s.transTry =
      (((List.range 48).foldl State.axLeave { s with mode := { s.mode with trans := none } }).enterMode 2).setn (ky 0x2100 3) 0 := by
  rw [State.transTry, hwait]
  exact if_neg (by rw [hidle]; exact Bool.false_ne_true)

section Events
variable {t : Time} {s0 : State}

theorem execPorstRelease_low {straps : BitVec 3} (hlow : (s0.tick t).mode.porstLow = true) :
    exec (.porstRelease t straps) s0 =
      .next ({ s0.tick t with otp := { (s0.tick t).otp with straps := straps.toNat } }.bootRun 1) :=
  if_neg (by rw [hlow]; decide)

theorem execResetHoldEnd_over {cause : Nat} {z : Time} (hhold : (s0.tick t).mode.resetHold = some (cause, z)) (hover : z + usT 100 ≤ t) :
    exec (.resetHoldEnd t) s0 = .next ((s0.tick t).bootRun cause) := by
  change execResetHoldEnd t s0 = _
  rw [execResetHoldEnd, hhold]
  exact if_pos hover

/-- A start-up target other than READY is done once STANDBY is entered (R427). -/
theorem execStartupStandbyRequest_done {g : Nat} (hstart : (s0.tick t).mode.startup = some g) (hmode : (s0.tick t).modeN = 2)
    (hok : ((s0.tick t).modeAsk 3).1 = 0) (hg : g ≠ 4) :
    exec (.startupStandbyRequest t) s0 = .next (
      let u := ((s0.tick t).modeAsk 3).2.setn (ky 0x2100 3) ((s0.tick t).modeAsk 3).1
      { u with mode := { u.mode with startup := none } }) := by
  have hask : (s0.tick t).startupAsk 3 = (true, ((s0.tick t).modeAsk 3).2.setn (ky 0x2100 3) ((s0.tick t).modeAsk 3).1) := if_pos hok
  change execStartupStandbyRequest t s0 = _
  rw [execStartupStandbyRequest, hstart]
  refine (if_neg (not_not.mpr hmode)).trans ?_
  rw [hask]
  exact if_neg hg

theorem execRestartEnd_selects (hrestart : (s0.tick t).net.restarting = true) (hfree : (s0.tick t).flt.clusterHeld = false) :
    exec (.restartEnd t) s0 = .next (if (s0.tick t).selectImage.otp.image.isSome = true then (s0.tick t).selectImage.serveAgain
      else (s0.tick t).selectImage) := by
  change execRestartEnd t s0 = _
  simp only [execRestartEnd, hrestart, hfree, Bool.not_true, Bool.false_eq_true, or_self, if_false, apply_ite Host.Outcome.next]

end Events

/-- Settles O37, event by event: each hypothesis is the condition under which its event occurs. -/
theorem modeEvents : Obligations.ModeEvents := by
  unfold Obligations.ModeEvents
  refine ⟨?standby, ?configure, fun _ _ => rfl, ?release, ?hold, ?startup, ?reset, ?restart, ?restarted⟩
  case standby =>
    intro t s0 s hwait hquiet
    exact congrArg Host.Outcome.next (State.transTry_standby hwait hquiet)
  case configure =>
    intro t s0 s u hwait hidle
    exact congrArg Host.Outcome.next (State.transTry_configure hwait hidle)
  case release =>
    intro t s0 straps s hlow
    exact execPorstRelease_low hlow
  case hold =>
    intro t s0 cause z s hhold hover
    exact execResetHoldEnd_over hhold hover
  case startup =>
    intro t s0 g s r u hstart hmode hok hg
    exact execStartupStandbyRequest_done hstart hmode hok hg
  case reset =>
    intro t s0 p s hp hmode
    exact congrArg Host.Outcome.next (State.dictNum_reset hp hmode (.inl rfl))
  case restart =>
    intro t s0 p s hp hmode hidle
    exact congrArg Host.Outcome.next (State.dictNum_reset hp hmode (.inr ⟨rfl, hidle⟩))
  case restarted =>
    exact fun _ _ => execRestartEnd_selects

/-! # One-time memory and boot commands (R404 to R407, R412 to R418) -/

theorem findRow_otpProgram : findRow 0x2621 3 = some (0x2621, 0, ⟨3, 1, .uns 1, 1, true, 0, .set [1], .imm⟩) := by decide

theorem findRow_lifecycle : findRow 0x2622 2 = some (0x2622, 0, ⟨2, 1, .uns 1, 1, true, 0, .set [0x5A], .reset⟩) := by decide

theorem findRow_policy : findRow 0x2623 1 = some (0x2623, 0, ⟨1, 1, .uns 1, 1, true, 0, .set [0x5A, 0xA5], .reset⟩) := by decide

theorem findRow_revokeKey : findRow 0x2623 2 = some (0x2623, 0, ⟨2, 1, .uns 1, 1, true, 0, .rng 0 3, .reset⟩) := by decide

theorem findRow_security : findRow 0x2624 1 = some (0x2624, 0, ⟨1, 1, .uns 1, 3, true, 0, .rng 1 64, .reset⟩) := by decide

theorem findRow_update : findRow 0x2625 3 = some (0x2625, 0, ⟨3, 1, .uns 1, 31, true, 0, .set [1], .imm⟩) := by decide

theorem findRow_activate : findRow 0x2625 5 = some (0x2625, 0, ⟨5, 1, .uns 1, 31, true, 0, .set [1], .imm⟩) := by decide

section Writes
variable {s : State} {p : Path} (hp : s.serves p = true)
include hp

theorem State.dictNum_otpProgram (hmode : s.modeN = 2) (hcheck : s.otpProgramCheck = none) :
    s.dictNum p 0x2621 3 1 = (s.answer .ok).otpProgramAct :=
  State.dictNum_lineObject hp findRow_otpProgram rfl (modeTakes_configure hmode) (by decide) rfl
    (State.writeVal_command _ _ rfl rfl) rfl (fun _ => congrArg (Option.map Prod.fst) hcheck) fun _ => rfl

theorem State.dictNum_lifecycle (hmode : s.modeN = 2) (hcheck : s.lifecycleCheck = none) :
    s.dictNum p 0x2622 2 0x5A = (s.answer .ok).lifecycleAct :=
  State.dictNum_lineObject hp findRow_lifecycle rfl (modeTakes_configure hmode) (by decide) rfl
    (State.writeVal_command _ _ rfl rfl) rfl (fun _ => hcheck) fun _ => rfl

/-- RESTRICT (0x5A) and the debug lock (0xA5) are burned by one object (R407, R412). -/
theorem State.dictNum_policy {v : Nat} (hmode : s.modeN = 2) (hcheck : s.otpSysCheck = none) (hv : v = 0x5A ∨ v = 0xA5) :
    s.dictNum p 0x2623 1 v = (s.answer .ok).policyAct (v == 0xA5) :=
  State.dictNum_lineObject hp findRow_policy rfl (modeTakes_configure hmode) (by omega) (by rcases hv with rfl | rfl <;> rfl)
    (State.writeVal_command _ _ rfl rfl) rfl (fun _ => hcheck) fun _ => rfl

theorem State.dictNum_revokeKey {k : Nat} (hmode : s.modeN = 2) (hk : k ≤ 3) (hcheck : s.revokeKeyCheck k = none) :
    s.dictNum p 0x2623 2 k = (s.answer .ok).revokeKeyAct k :=
  State.dictNum_lineObject hp findRow_revokeKey rfl (modeTakes_configure hmode) (by omega) (rowRange_between rfl rfl (by omega) (by omega))
    (State.writeVal_command _ _ rfl rfl) rfl (fun _ => hcheck) fun _ => rfl

theorem State.dictNum_security {v : Nat} (hmode : s.modeN ≤ 3) (hv : 1 ≤ v ∧ v ≤ 64) (hcheck : s.securityCheck v = none) :
    s.dictNum p 0x2624 1 v = (s.answer .ok).securityAct v :=
  State.dictNum_lineObject hp findRow_security rfl (modeTakes_setup (State.modeN_of_serves hp) hmode) (by omega)
    (rowRange_between rfl rfl (by omega) (by omega)) (State.writeVal_command _ _ rfl rfl) rfl (fun _ => hcheck) fun _ => rfl

theorem State.dictNum_update (hmode : s.modeN ≤ 6) (hcheck : s.updateCheck = none) :
    s.dictNum p 0x2625 3 1 = (s.answer .ok).updateAct :=
  State.dictNum_lineObject hp findRow_update rfl (modeTakes_notSafe (State.modeN_of_serves hp) hmode) (by decide) rfl
    (State.writeVal_command _ _ rfl rfl) rfl (fun _ => hcheck) fun _ => rfl

/-- An update that has ended well is activated by a restart (R416). -/
theorem State.dictNum_activate (hmode : s.modeN ≤ 6) (hidle : s.otp.updating = none) (hgood : s.nat (ky 0x2625 4) = 0) :
    s.dictNum p 0x2625 5 1 = (s.answer .ok).beginRestart :=
  State.dictNum_lineObject hp findRow_activate rfl (modeTakes_notSafe (State.modeN_of_serves hp) hmode) (by decide) rfl
    (State.writeVal_command _ _ rfl rfl) rfl (fun _ => busyIf_false (by rw [hidle, hgood]; rfl)) fun _ => rfl

end Writes

section Events
variable {t : Time} {s0 : State}

/-- The job's last row, or one that failed, ends the job with its result; the next job that is owed begins (R406). -/
theorem execOtpProgramDone_ends {weak : Bool} {j : OtpJob} (hjob : (s0.tick t).otp.job = some j)
    (hlast : j.rest = [] ∨ ((s0.tick t).otpBurn j.row j.value weak).1 ≠ 0) :
    exec (.otpProgramDone t weak) s0 = .next (
      let r := (s0.tick t).otpBurn j.row j.value weak
      let u := r.2.otpFinish j r.1
      { u with otp := { u.otp with job := u.otp.owed.head?, owed := u.otp.owed.drop 1 } }) := by
  change execOtpProgramDone t weak s0 = _
  simp only [execOtpProgramDone, hjob]
  split
  case h_1 res rest _ _ _ hres hrest =>
    obtain hnil | hbad := hlast
    · rw [hnil] at hrest
      exact nomatch hrest
    · exact absurd hres hbad
  case h_2 => rfl

/-- A row burned well makes way for the next row of its job. -/
theorem execOtpProgramDone_nextRow {weak : Bool} {j : OtpJob} {q v : Nat} {l : List (Nat × Nat)}
    (hjob : (s0.tick t).otp.job = some j) (hrest : j.rest = (q, v) :: l)
    (hgood : ((s0.tick t).otpBurn j.row j.value weak).1 = 0) :
    exec (.otpProgramDone t weak) s0 = .next (
      let r := (s0.tick t).otpBurn j.row j.value weak
      { r.2 with otp := { r.2.otp with job := some ⟨q, v, j.why, l⟩ } }) := by
  change execOtpProgramDone t weak s0 = _
  simp only [execOtpProgramDone, hjob, hrest, hgood]

section Update
variable {a n : Nat} (hrun : (s0.tick t).otp.updating = some (a, n))
include hrun

theorem execUpdateDone_failed :
    exec (.updateDone t false) s0 =
      .next ({ s0.tick t with otp := { (s0.tick t).otp with updating := none } }.setn (ky 0x2625 4) 7) := by
  change execUpdateDone t false s0 = _
  rw [execUpdateDone, hrun]
  rfl

end Update

/-- CONFIRM is programmed after ten seconds of service (R414). -/
theorem execConfirmed_served {i : Image} (himage : (s0.tick t).otp.image = some i) (hmode : 1 < (s0.tick t).modeN)
    (hnew : i.confirmed = false) (hserves : (s0.tick t).net.restarting = false) (hfree : (s0.tick t).flt.clusterHeld = false)
    (hslot : i.slot < 3) (hrun : i.startT + secT 10 ≤ t) :
    exec (.confirmed t) s0 = .next (
      let u := (s0.tick t).flashWrite (slotBase i.slot + 0xF10) (leBytes 4 0x4B4F4E43)
      ({ u with otp := { u.otp with image := some { i with confirmed := true } } }.event 0xFE 0x0C23 0).showSlots) := by
  change execConfirmed t s0 = _
  simp only [execConfirmed, himage, hmode.not_ge, hnew, hserves, hfree, hslot.not_ge, hrun.not_gt, Bool.false_eq_true, or_self, if_false]

end Events

/-- Settles O33, command by command: each hypothesis is one check that the write passes, or the state in which its event occurs. -/
theorem otpCommands : Obligations.OtpCommands := by
  unfold Obligations.OtpCommands
  refine ⟨?read, ?margin, ?program, ?jobDone, ?rowDone, ?lifecycle, ?restrict, ?debugLock, ?revoke, ?security, ?update, ?updateFailed,
    ?updated, ?activate, ?confirmed, ?hostLoad⟩
  case read =>
    intro t s0 s hmode
    exact if_neg hmode
  case margin =>
    intro t s0 w s hmode
    exact if_neg hmode
  case program =>
    intro t s0 p s hp hmode hcheck
    exact congrArg Host.Outcome.next (State.dictNum_otpProgram hp hmode hcheck)
  case jobDone =>
    intro t s0 w j s r u hjob hlast
    exact execOtpProgramDone_ends hjob hlast
  case rowDone =>
    intro t s0 w j q v l s r hjob hrest hgood
    exact execOtpProgramDone_nextRow hjob hrest hgood
  case lifecycle =>
    intro t s0 p s hp hmode hcheck
    exact congrArg Host.Outcome.next (State.dictNum_lifecycle hp hmode hcheck)
  case restrict =>
    intro t s0 p s hp hmode hcheck
    exact congrArg Host.Outcome.next (State.dictNum_policy hp hmode hcheck (.inl rfl))
  case debugLock =>
    intro t s0 p s hp hmode hcheck
    exact congrArg Host.Outcome.next (State.dictNum_policy hp hmode hcheck (.inr rfl))
  case revoke =>
    intro t s0 p k s hp hmode hk hcheck
    exact congrArg Host.Outcome.next (State.dictNum_revokeKey hp hmode hk hcheck)
  case security =>
    intro t s0 p v s hp hmode hlow hhigh hcheck
    exact congrArg Host.Outcome.next (State.dictNum_security hp hmode ⟨hlow, hhigh⟩ hcheck)
  case update =>
    intro t s0 p s hp hmode hcheck
    exact congrArg Host.Outcome.next (State.dictNum_update hp hmode hcheck)
  case updateFailed =>
    intro t s0 a n s u hrun
    exact execUpdateDone_failed hrun
  case updated =>
    intro t s0 a n s u o h run w x hrun
    change execUpdateDone t true s0 = _
    rw [execUpdateDone, show (s0.tick t).otp.updating = some (a, n) from hrun]
    rfl
  case activate =>
    intro t s0 p s hp hmode hidle hgood
    exact congrArg Host.Outcome.next (State.dictNum_activate hp hmode hidle hgood)
  case confirmed =>
    intro t s0 i s u himage hmode hnew hserves hfree hslot hrun
    exact execConfirmed_served himage hmode hnew hserves hfree hslot hrun
  case hostLoad =>
    intro t s0 n s hmode _
    exact if_neg hmode

/-! ## The security counter (R417) -/

/-- The number that an object of unsigned integers takes is the one that was written. -/
theorem State.writeParse_number_ok {s : State} {idx sub base i n w : Nat} {row : Row} {x : Nat × Nat × Row × Val} (hsub : sub < 256)
    (hrow : findRow idx sub = some (base, i, row)) (hty : row.ty = .uns w)
    (hparse : s.writeParse idx sub (numBytes (ky idx sub) n) = .ok x) : x = (base, i, row, .num n) := by
  have hv : ∀ v, decodeVal row.ty (numBytes (ky idx sub) n) = some v → v = .num n := by
    intro v hv
    rw [numBytes, widthOf_row hsub hrow hty, hty, decodeVal, leBytes_length] at hv
    by_cases hn : n < 2 ^ (8 * w)
    · rw [if_pos hn, if_pos rfl, leNat_leBytes hn] at hv
      exact (Option.some.inj hv).symm
    · rw [if_neg hn, if_neg (Nat.succ_ne_self w)] at hv
      exact nomatch hv
  obtain ⟨v, rfl, hdec⟩ := State.writeParse_ok_row hrow hparse
  rw [hv v hdec]

/-- An advance past the SEC_VERSION of the running image, or one that another check forbids. -/
theorem State.securityCheck_past {s : State} {v : Nat} (hv : (s.otp.image.map Image.sec).getD 0 < v) : s.securityCheck v ≠ none := by
  unfold State.securityCheck
  split
  · exact nofun
  · rw [if_pos hv]
    exact nofun

/-- An advance that its row accepts and its check refuses leaves the state as it is. -/
theorem State.dictNum_security_refused {s : State} {p : Path} {v : Nat} (hp : s.serves p = true) (hcheck : s.securityCheck v ≠ none) :
    ∃ r, s.dictNum p 0x2624 1 v = s.answer (.refused r) := by
  cases hparse : s.writeParse 0x2624 1 (numBytes (ky 0x2624 1) v) with
  | error r => exact ⟨r, State.dictWrite_refused hp hparse⟩
  | ok x =>
    obtain ⟨r, hr⟩ := Option.ne_none_iff_exists'.mp hcheck
    obtain rfl := State.writeParse_number_ok (by decide) findRow_security rfl hparse
    have hput := State.writeVal_command (s := s) (r := ⟨1, 1, .uns 1, 3, true, 0, .rng 1 64, .reset⟩) (ky 0x2624 1) (.num v) rfl rfl
    have hrel (b : Bytes) : (s.writeVal (ky 0x2624 1) ⟨1, 1, .uns 1, 3, true, 0, .rng 1 64, .reset⟩ (.num v)).relCheck 0x2624 0 1
        (.num v) b = some r := by
      rw [hput]
      exact hr
    exact ⟨r, State.dictWrite_unrelated hp hparse (hrel _)⟩

/-- Settles O58: the check of an advance refuses what is past the running image, and an advance that it accepts to a value already
reached gives the engine nothing. -/
theorem securityCounter : Obligations.SecurityCounter := by
  unfold Obligations.SecurityCounter
  refine ⟨?past, ?present⟩
  case past =>
    intro t s0 p v s hp hv
    obtain ⟨r, hr⟩ := State.dictNum_security_refused hp (State.securityCheck_past hv)
    exact ⟨r, congrArg Host.Outcome.next hr⟩
  case present =>
    intro t s0 p v s hp hmode hlow hhigh hcheck hpresent
    refine congrArg Host.Outcome.next ((State.dictNum_security hp hmode ⟨hlow, hhigh⟩ hcheck).trans ?_)
    exact if_pos hpresent

/-! # The step, and what reset leaves (R419, R424, R438, R440, R445) -/

/-- Settles O44: the step takes the command off the queue and runs it. -/
theorem stepRunsFront : Obligations.StepRunsFront := by
  unfold Obligations.StepRunsFront
  exact fun k rest s => rfl

/-- Settles O45: an empty queue gives the step no command. -/
theorem emptyQueueIdles : Obligations.EmptyQueueIdles := by
  unfold Obligations.EmptyQueueIdles
  intro s hempty
  rw [step, hempty]

/-- Settles O46: at reset every table is empty, so each part reads its initial value and each object its default. -/
theorem resetValues : Obligations.ResetValues := by
  unfold Obligations.ResetValues
  have hcasements : ∀ c : Fin 48, State.reset.casState c = 0 := by decide +kernel
  have haxes : ∀ a : Fin 48, State.reset.axState a = 0 := by decide +kernel
  exact ⟨by decide, rfl, by decide, rfl, rfl, rfl, rfl, fun c => ⟨hcasements c, rfl, rfl⟩, haxes, fun _ => rfl,
    fun _ => ⟨rfl, rfl, rfl⟩⟩

/-! # What resets and restarts leave of the faults and of memory (R424, R440) -/

/-- What a filter takes out reads as unlisted. -/
theorem tget_filter_out {α : Type} (d : Nat → α) (m : Tbl α) {f : Nat × α → Bool} {k : Nat} (hf : ∀ v, f (k, v) = false) :
    tget d (m.filter f) k = d k := by
  induction m with
  | nil => rfl
  | cons p m ih =>
    rw [List.filter_cons]
    split
    next hp =>
      have hne : p.1 ≠ k := by
        rintro rfl
        rw [hf] at hp
        exact Bool.false_ne_true hp
      rw [tget, if_neg hne, ih]
    next => exact ih

/-- A burn that a reset cuts short touches the array alone. -/
theorem State.otpCut_mem (s : State) : s.otpCut.mem = s.mem := by
  unfold State.otpCut
  split
  · rfl
  · dsimp only
    split
    · rfl
    · exact List.foldlRecOn (motive := fun u : State => u.mem = s.mem) _ _ rfl fun _ hu _ _ => hu

theorem State.putBank_mem (s : State) (b : Bank) : (s.putBank b).mem = s.mem := by
  unfold State.putBank
  dsimp only
  split <;> rfl

/-- A reset empties device memory and leaves the rest (R424). -/
theorem State.cleared_mem (s : State) (powerOn : Bool) : (s.cleared powerOn).mem = { s.mem with dram := [] } := by
  refine congrArg (fun m : Mem => { m with dram := [] }) ?_
  split
  · split
    · exact (State.putBank_mem ..).trans s.otpCut_mem
    · exact s.otpCut_mem
  · exact s.otpCut_mem

theorem State.cleared_flash (s : State) (powerOn : Bool) : (s.cleared powerOn).mem.flash = s.mem.flash := by
  rw [State.cleared_mem]

/-- After a reset an object reads its default, but for the two that a device reset keeps (R424). -/
theorem State.cleared_nat (s : State) (powerOn : Bool) {k : Nat} (htime : k ≠ ky 0x2300 2) (hcount : k ≠ ky 0x2101 5) :
    (s.cleared powerOn).nat k = State.reset.nat k := by
  refine congrArg (fun v : Val => v.int.toNat) ?_
  cases powerOn with
  | true => rfl
  | false => exact tget_filter_out dfl _ fun _ => by simp [htime, hcount]

/-- The objects that hold the syndromes, times and count of a fault bit, or FIRST_FAULT (R438, R439). -/
def faultRecord (k : Nat) : Prop := k = ky 0x2200 3 ∨ ∃ b j : Nat, b < 64 ∧ 3 ≤ j ∧ j ≤ 7 ∧ k = oFlt b j

theorem faultRecord_of {b j : Nat} (hb : b < 64) (hlow : 3 ≤ j) (hhigh : j ≤ 7) : faultRecord (oFlt b j) :=
  .inr ⟨b, j, hb, hlow, hhigh, rfl⟩

/-- They lie at the indices 0x2200 to 0x224F. -/
theorem faultRecord_index {k : Nat} (hk : faultRecord k) : k / 256 = 0x2200 ∨ 0x2210 ≤ k / 256 ∧ k / 256 < 0x2250 := by
  obtain rfl | ⟨b, j, hb, -, hj, rfl⟩ := hk
  · exact .inl rfl
  · unfold oFlt ky
    omega

theorem State.cleared_record (s : State) (powerOn : Bool) {k : Nat} (hk : faultRecord k) :
    (s.cleared powerOn).nat k = State.reset.nat k := by
  have hindex := faultRecord_index hk
  exact s.cleared_nat powerOn (by rintro rfl; revert hindex; decide) (by rintro rfl; revert hindex; decide)

/-- The beginning of a firmware restart writes the reset's cause and count, and the result of an update that it cuts. -/
theorem State.beginRestart_record (s : State) {k : Nat} (hk : faultRecord k) : s.beginRestart.nat k = s.nat k := by
  have hindex := faultRecord_index hk
  have hne (i sub : Nat) (hi : i ≠ 0x2200 ∧ (i < 0x2210 ∨ 0x2250 ≤ i)) (hsub : sub < 256) : k ≠ ky i sub := by
    rintro rfl
    unfold ky at hindex
    omega
  unfold State.beginRestart
  rw [State.event_nat, State.nat_setn_ne _ _ (hne 0x2101 2 (by decide) (by decide)), State.bump, State.bumpBy,
    State.nat_setn_ne _ _ (hne 0x2101 5 (by decide) (by decide))]
  split
  · exact State.nat_setn_ne _ _ (hne 0x2625 4 (by decide) (by decide))
  · rfl

theorem State.beginRestart_fsw (s : State) : s.beginRestart.flt.fsw = s.flt.fsw := by
  unfold State.beginRestart
  rw [State.event_flt]
  dsimp only [State.setn, State.setv, State.bump, State.bumpBy]
  split <;> rfl

theorem State.restartServes_fsw (s : State) : s.restartServes.flt.fsw = s.flt.fsw := by
  unfold State.restartServes
  dsimp only
  split
  · rw [State.event_flt, State.event_flt]
  · rw [State.event_flt]

theorem State.restartServes_nat (s : State) (k : Nat) : s.restartServes.nat k = s.nat k := by
  unfold State.restartServes
  dsimp only
  split
  · rw [State.event_nat]
    exact State.event_nat ..
  · exact State.event_nat ..

/-- Settles O57: both resets leave what `State.cleared` leaves, and a restart writes no object of the collector. -/
theorem whatClearsTheFaults : Obligations.WhatClearsTheFaults := by
  unfold Obligations.WhatClearsTheFaults
  have hfirst : State.reset.nat (ky 0x2200 3) = 255 := by decide
  refine ⟨?powerOn, ?device, ?restart⟩
  case powerOn =>
    intro t s0
    exact ⟨_, rfl, rfl, ((s0.tick t).cleared_record true (.inl rfl)).trans hfirst, rfl, (s0.tick t).cleared_flash true,
      fun b j hb hlow hhigh => (s0.tick t).cleared_record true (faultRecord_of hb hlow hhigh)⟩
  case device =>
    intro s cause
    exact ⟨rfl, (s.cleared_record false (.inl rfl)).trans hfirst, rfl, s.cleared_flash false,
      fun b j hb hlow hhigh => s.cleared_record false (faultRecord_of hb hlow hhigh)⟩
  case restart =>
    intro s
    exact ⟨s.beginRestart_fsw, s.restartServes_fsw, fun k hk => ⟨s.beginRestart_record hk, s.restartServes_nat k⟩⟩

/-! # What an occurrence of a fault leaves latched (R436 to R439) -/

theorem State.bump_nat_ne (s : State) {k j : Nat} (h : j ≠ k) : (s.bump k).nat j = s.nat j := State.nat_setn_ne s _ h

/-! ## Reports: events, EMCY and the error register -/

/-- The objects of the error register and the pre-defined error field (R344). -/
def errorObject (k : Nat) : Prop := k / 256 = 0x1001 ∨ k / 256 = 0x1003

theorem not_errorObject {k : Nat} (h : 0x2000 * 256 ≤ k) : ¬errorObject k := by
  unfold errorObject
  omega

/-- `u` is `s` after reports: nothing but events, messages and the error objects has changed. -/
structure State.Reported (s u : State) : Prop where
  flt : u.flt = s.flt
  mem : u.mem = s.mem
  cas : u.cas = s.cas
  axes : u.axes = s.axes
  clk : u.clk = s.clk
  nat : ∀ k, ¬errorObject k → u.nat k = s.nat k

namespace State.Reported
variable {s u v : State}

theorem refl (s : State) : s.Reported s := ⟨rfl, rfl, rfl, rfl, rfl, fun _ _ => rfl⟩

theorem trans (h : s.Reported u) (g : u.Reported v) : s.Reported v :=
  ⟨g.flt.trans h.flt, g.mem.trans h.mem, g.cas.trans h.cas, g.axes.trans h.axes, g.clk.trans h.clk,
    fun k hk => (g.nat k hk).trans (h.nat k hk)⟩

theorem ite {c : Prop} [Decidable c] (h : s.Reported u) (g : s.Reported v) : s.Reported (if c then u else v) := by
  split
  · exact h
  · exact g

theorem event (h : s.Reported u) (src cause inst : Nat) (data : Bytes := []) : s.Reported (u.event src cause inst data) :=
  h.trans ⟨by simp, by simp, by simp, by simp, by simp, fun k _ => by simp⟩

theorem setn (h : s.Reported u) {k : Nat} (n : Int) (hk : errorObject k) : s.Reported (u.setn k n) :=
  h.trans ⟨rfl, rfl, rfl, rfl, rfl, fun _ hj => State.nat_setn_ne u n fun e => hj (e ▸ hk)⟩

theorem errReg (h : s.Reported u) : s.Reported u.errReg := h.setn _ (.inl rfl)

theorem emcyNode (h : s.Reported u) (i code : Nat) (data : Bytes) : s.Reported (u.emcyNode i code data) := by
  unfold State.emcyNode
  refine ite h (ite (ite h ?_) ?_)
  · exact h.trans ⟨rfl, rfl, rfl, rfl, rfl, fun _ _ => rfl⟩
  · exact h.trans ⟨rfl, rfl, rfl, rfl, rfl, fun _ _ => rfl⟩

theorem pushError (h : s.Reported u) (code : Nat) : s.Reported (u.pushError code) := by
  have hfield {sub : Nat} (hsub : sub < 256) : errorObject (ky 0x1003 sub) := .inr (by unfold ky; omega)
  have hmoved : s.Reported ((List.range (min (u.nat (ky 0x1003 0)) 15)).foldr
      (fun i s => s.setn (ky 0x1003 (i + 2)) (s.num (ky 0x1003 (i + 1)))) u) :=
    List.foldrRecOn (motive := fun v : State => s.Reported v) _ _ h fun v hv i hi =>
      hv.setn _ (hfield (by have := List.mem_range.mp hi; omega))
  exact (hmoved.setn _ (hfield (by decide))).setn _ (hfield (by decide))

theorem emcy (h : s.Reported u) (code : Nat) (data : Bytes) : s.Reported (u.emcy code data) :=
  ((h.pushError code).emcyNode 0 code data).emcyNode 1 code data

end State.Reported

/-! ## The record of an occurrence -/

section Latch
variable (s : State) (b : Nat)

/-- What is latched of an occurrence of bit `b` before it is reported. -/
def State.latched (syn : Nat) : State := ((s.firstFault b).setFault b).noteFault b syn (s.flt.fsw.getLsbD b)

/-- The syndrome of an occurrence (R439). -/
def faultSyndrome (cause k dt : Nat) (inj : Bool) : Nat :=
  b2n inj * 2147483648 + (cause % 128) * 16777216 + (k % 256) * 65536 + dt % 65536

theorem State.latchFault_reported (cause k dt : Nat) (inj : Bool) (cls : Nat) :
    (s.latched b (faultSyndrome cause k dt inj)).Reported (s.latchFault b cause k dt inj cls) := by
  unfold State.latchFault
  extract_lets syn was s1 s2 s3
  have h2 : (s.latched b syn).Reported s2 := .ite ((State.Reported.refl s1).event _ _ _ _) (.refl s1)
  exact .ite h2.errReg (h2.errReg.emcy _ _)

/-- The objects of a bit's own record: its count, syndromes and times (R438, R439). -/
def recordObject (k : Nat) : Prop := ∃ j, 3 ≤ j ∧ j ≤ 7 ∧ k = oFlt b j

theorem not_recordObject_of_index {k : Nat} (hk : k / 256 ≠ 0x2210 + b) : ¬recordObject b k := by
  rintro ⟨j, -, hj, rfl⟩
  unfold oFlt ky at hk
  omega

theorem State.noteFault_nat_ne {syn : Nat} {was : Bool} {k : Nat} (hk : ¬recordObject b k) :
    (s.noteFault b syn was).nat k = s.nat k := by
  have hne {sub : Nat} (hsub : 3 ≤ sub ∧ sub ≤ 7) : k ≠ oFlt b sub := fun e => hk ⟨sub, hsub.1, hsub.2, e⟩
  unfold State.noteFault
  extract_lets dev lower s1 s2
  have h1 : s1.nat k = s.nat k := by
    unfold s1
    split
    · exact State.nat_setn_ne _ _ (hne (by decide))
    · exact (State.nat_setn_ne _ _ (hne (by decide))).trans (State.nat_setn_ne _ _ (hne (by decide)))
  have h2 : s2.nat k = s1.nat k := by
    unfold s2
    split
    · rfl
    · exact State.nat_setn_ne _ _ (hne (by decide))
  rw [State.nat_setn_ne _ _ (hne (by decide)), State.nat_setn_ne _ _ (hne (by decide)), h2, h1]

theorem State.firstFault_nat_ne {k : Nat} (hk : k ≠ ky 0x2200 3) : (s.firstFault b).nat k = s.nat k := by
  unfold State.firstFault
  split
  · exact State.nat_setn_ne _ _ hk
  · split
    · exact State.nat_setn_ne _ _ hk
    · rfl

theorem State.latched_nat_ne {syn k : Nat} (hfirst : k ≠ ky 0x2200 3) (hk : ¬recordObject b k) :
    (s.latched b syn).nat k = s.nat k :=
  (State.noteFault_nat_ne _ b hk).trans (s.firstFault_nat_ne b hfirst)

theorem State.noteFault_flt (syn : Nat) (was : Bool) : (s.noteFault b syn was).flt = s.flt := by
  unfold State.noteFault
  cases was <;> dsimp only <;> split <;> rfl

/-- The first fault is the first bit to set, of several on one clock the lowest (R439). -/
theorem State.firstFault_first :
    (s.firstFault b).nat (ky 0x2200 3) =
      if s.flt.fsw = 0 ∨ s.flt.fsw.getLsbD b = false ∧ clock160 s.flt.firstT = clock160 s.now ∧ b < s.nat (ky 0x2200 3) then b
      else s.nat (ky 0x2200 3) := by
  unfold State.firstFault
  by_cases hnone : s.flt.fsw = 0
  · rw [if_pos hnone, if_pos (.inl hnone)]
    exact State.nat_setn_self ..
  · rw [if_neg hnone]
    by_cases hlower : s.flt.fsw.getLsbD b = false ∧ clock160 s.flt.firstT = clock160 s.now ∧ b < s.nat (ky 0x2200 3)
    · rw [if_pos (Or.inr hlower), if_pos (by rw [hlower.1]; exact ⟨rfl, hlower.2⟩)]
      exact State.nat_setn_self ..
    · rw [if_neg (not_or.mpr ⟨hnone, hlower⟩), if_neg (by rw [Bool.not_eq_true']; exact hlower)]

end Latch

section Record
variable (s : State) (b syn : Nat)

/-- Objects of one fault bit are told apart by their sub-index. -/
theorem oFlt_inj {i j : Nat} : oFlt b i = oFlt b j ↔ i = j := by
  unfold oFlt ky
  omega

theorem oFlt_index {j : Nat} (hj : j < 256) : oFlt b j / 256 = 0x2210 + b := by
  unfold oFlt ky
  omega

theorem le_oFlt {j : Nat} : 0x2000 * 256 ≤ oFlt b j := by
  unfold oFlt ky
  omega

theorem oFlt_ne_first {j : Nat} (hj : j < 256) : oFlt b j ≠ ky 0x2200 3 := by
  unfold oFlt ky
  omega

/-- The last syndrome and time are those of the occurrence (R439). -/
theorem State.noteFault_last (was : Bool) :
    (s.noteFault b syn was).nat (oFlt b 6) = syn ∧ (s.noteFault b syn was).nat (oFlt b 7) = s.dev.toNat := by
  unfold State.noteFault
  extract_lets dev lower s1 s2
  exact ⟨(State.nat_setn_ne _ _ (mt (oFlt_inj b).mp (by decide))).trans (State.nat_setn_self ..), State.nat_setn_self ..⟩

/-- A new bit counts 1, with the first syndrome and time of the occurrence. -/
theorem State.noteFault_new :
    (s.noteFault b syn false).nat (oFlt b 5) = 1 ∧ (s.noteFault b syn false).nat (oFlt b 3) = syn ∧
      (s.noteFault b syn false).nat (oFlt b 4) = s.dev.toNat := by
  simp only [State.noteFault, Bool.false_and, Bool.false_eq_true, if_false, State.nat_setn, oFlt_inj]
  exact ⟨rfl, rfl, rfl⟩

/-- A bit that was set counts up, and its first syndrome gives way to a lower one on the clock that set it. -/
theorem State.noteFault_again :
    (s.noteFault b syn true).nat (oFlt b 5) = min (s.nat (oFlt b 5) + 1) (2 ^ 32 - 1) ∧
      (s.noteFault b syn true).nat (oFlt b 3) =
        (if onClock s.flt.setT b s.now = true ∧ syn % 2 ^ 24 < s.nat (oFlt b 3) % 2 ^ 24 then syn else s.nat (oFlt b 3)) ∧
      (s.noteFault b syn true).nat (oFlt b 4) = s.nat (oFlt b 4) := by
  have hlower : (onClock s.flt.setT b s.now && Nat.blt (syn % 2 ^ 24) (s.nat (oFlt b 3) % 2 ^ 24)) =
      decide (onClock s.flt.setT b s.now = true ∧ syn % 2 ^ 24 < s.nat (oFlt b 3) % 2 ^ 24) := by
    rw [Bool.eq_iff_iff, Bool.and_eq_true, Nat.blt_eq, decide_eq_true_iff]
  by_cases h : onClock s.flt.setT b s.now = true ∧ syn % 2 ^ 24 < s.nat (oFlt b 3) % 2 ^ 24
  · simp only [State.noteFault, hlower, decide_eq_true h, if_pos h, Bool.not_true, Bool.and_false, Bool.false_eq_true, if_true, if_false,
      State.nat_setn, oFlt_inj]
    exact ⟨rfl, rfl, rfl⟩
  · simp only [State.noteFault, hlower, decide_eq_false h, if_neg h, Bool.not_false, Bool.and_true, if_true, State.nat_setn, oFlt_inj]
    exact ⟨rfl, rfl, rfl⟩

end Record

theorem getLsbD_twoPow (b j : Nat) (hb : b < 64) : (BitVec.ofNat 64 (2 ^ b)).getLsbD j = decide (j = b) := by
  rw [BitVec.getLsbD_ofNat, Nat.testBit_two_pow]
  by_cases h : j = b
  · simp [h, hb]
  · simp [h, Ne.symm h]

theorem State.noteFault_frame (s : State) (b syn : Nat) (was : Bool) :
    (s.noteFault b syn was).mem = s.mem ∧ (s.noteFault b syn was).cas = s.cas ∧ (s.noteFault b syn was).axes = s.axes := by
  unfold State.noteFault
  extract_lets dev lower s1 s2
  have h1 : s1.mem = s.mem ∧ s1.cas = s.cas ∧ s1.axes = s.axes := by
    unfold s1
    split <;> exact ⟨rfl, rfl, rfl⟩
  have h2 : s2.mem = s.mem ∧ s2.cas = s.cas ∧ s2.axes = s.axes := by
    unfold s2
    split <;> exact h1
  exact h2

/-- Before it is reported an occurrence changes the collector and objects alone. -/
theorem State.latched_frame (s : State) (b syn : Nat) :
    (s.latched b syn).mem = s.mem ∧ (s.latched b syn).cas = s.cas ∧ (s.latched b syn).axes = s.axes := by
  have hfirst : (s.firstFault b).mem = s.mem ∧ (s.firstFault b).cas = s.cas ∧ (s.firstFault b).axes = s.axes := by
    unfold State.firstFault
    split_ifs <;> exact ⟨rfl, rfl, rfl⟩
  obtain ⟨hmem, hcas, haxes⟩ := State.noteFault_frame ((s.firstFault b).setFault b) b syn (s.flt.fsw.getLsbD b)
  exact ⟨hmem.trans hfirst.1, hcas.trans hfirst.2.1, haxes.trans hfirst.2.2⟩

/-- The state that an occurrence's record is written from: apart from FIRST_FAULT its objects and its time are those of `s`. -/
theorem State.setFault_firstFault (s : State) (b : Nat) :
    ((s.firstFault b).setFault b).clk = s.clk ∧ ((s.firstFault b).setFault b).flt.fsw = s.flt.fsw ||| BitVec.ofNat 64 (2 ^ b) ∧
      (s.flt.fsw.getLsbD b = true → ((s.firstFault b).setFault b).flt.setT = s.flt.setT) := by
  have hfirst : (s.firstFault b).clk = s.clk ∧ (s.firstFault b).flt.fsw = s.flt.fsw ∧ (s.firstFault b).flt.setT = s.flt.setT := by
    unfold State.firstFault
    split_ifs <;> exact ⟨rfl, rfl, rfl⟩
  obtain ⟨hclk, hfsw, hset⟩ := hfirst
  refine ⟨hclk, congrArg (· ||| BitVec.ofNat 64 (2 ^ b)) hfsw, fun hwas => ?_⟩
  rw [← hfsw] at hwas
  exact (if_pos hwas).trans hset

/-- Settles O53: the record is what `State.noteFault` writes, and the reports that follow leave it alone. -/
theorem faultLatch : Obligations.FaultLatch := by
  unfold Obligations.FaultLatch
  intro s b cause k dt cls inj hb u syn
  have hrep : (s.latched b syn).Reported u := s.latchFault_reported b cause k dt inj cls
  obtain ⟨hmem, hcas, haxes⟩ := s.latched_frame b syn
  obtain ⟨hclk, hfsw, hset⟩ := s.setFault_firstFault b
  have hdev : ((s.firstFault b).setFault b).dev = s.dev := congrArg (fun c : Clk => (toNs c.mono : Int) + c.epoch) hclk
  have hnow : ((s.firstFault b).setFault b).now = s.now := congrArg Clk.mono hclk
  have hrecord {j : Nat} : u.nat (oFlt b j) = (s.latched b syn).nat (oFlt b j) := hrep.nat _ (not_errorObject (le_oFlt b))
  have hbefore {j : Nat} (hj : j < 256) : ((s.firstFault b).setFault b).nat (oFlt b j) = s.nat (oFlt b j) :=
    s.firstFault_nat_ne b (oFlt_ne_first b hj)
  have hfirst : u.nat (ky 0x2200 3) = (s.firstFault b).nat (ky 0x2200 3) :=
    (hrep.nat _ (not_errorObject (by decide))).trans (State.noteFault_nat_ne _ b
      (not_recordObject_of_index b (show 0x2200 ≠ 0x2210 + b by omega)))
  have hlast := State.noteFault_last ((s.firstFault b).setFault b) b syn (s.flt.fsw.getLsbD b)
  rw [hdev] at hlast
  refine ⟨fun j => ?bits, hfirst.trans (s.firstFault_first b), fun hnew => ?new, fun hwas => ?again, hrecord.trans hlast.1,
    hrecord.trans hlast.2, hrep.mem.trans hmem, hrep.cas.trans hcas, hrep.axes.trans haxes⟩
  case bits =>
    rw [hrep.flt, State.latched, State.noteFault_flt, hfsw, BitVec.getLsbD_or, getLsbD_twoPow b j (by omega)]
  case new =>
    have hrec := State.noteFault_new ((s.firstFault b).setFault b) b syn
    rw [hdev] at hrec
    rw [hrecord, hrecord, hrecord, State.latched, hnew]
    exact hrec
  case again =>
    have hrec := State.noteFault_again ((s.firstFault b).setFault b) b syn
    rw [hset hwas, hnow, hbefore (by decide), hbefore (by decide), hbefore (by decide)] at hrec
    rw [hrecord, hrecord, hrecord, State.latched, hwas]
    exact hrec

/-! # A fault's reactions: DROP, and the class DEGRADE (R433, R436, R437) -/

/-! ## Latched and dropped, before the class reacts -/

/-- An occurrence is on the way to be latched: it takes the injection that was armed for its bit, and a system rail's is remembered. -/
def State.faultTaken (s : State) (b cls : Nat) : State :=
  let u := { s with flt := { s.flt with injected := s.flt.injected.filter (· != b) } }
  if b = 40 ∧ cls = 4 then
    { u with flt := { u.flt with concern := (40, 255) :: u.flt.concern.filter (fun p => p != (40, 255)) } }
  else u

/-- An occurrence is latched. -/
def State.faultLatched (s : State) (b cause k dt cls : Nat) : State :=
  (s.faultTaken b cls).latchFault b cause k dt (s.flt.injected.contains b) cls

/-- An occurrence is latched, and the pins have dropped where its DROP flag says so; its class reacts on this state. -/
def State.faultDropped (s : State) (b cause k dt cls : Nat) : State :=
  let u := s.faultLatched b cause k dt cls
  if u.obit (oFlt b 2) 1 then u.dropSafe else u

/-- The reaction of the class: CASEMENT_STOP, AXIS_STOP, DEVICE_SAFE, or none. -/
theorem State.fault_reacts (s : State) {b : Nat} (cause k dt : Nat) (hb : b < 56) :
    let u := s.faultDropped b cause k dt (s.faultTakes b cause k).1
    (∃ c, s.fault b cause k dt = u.casStop b c) ∨ s.fault b cause k dt = u.axStop k 5 ∨ s.fault b cause k dt = u.enterSafe ∨
      s.fault b cause k dt = u := by
  unfold State.fault
  rw [if_neg (by omega)]
  cases htakes : s.faultTakes b cause k with
  | mk cls cas =>
    dsimp only
    split
    next c => exact .inl ⟨c, rfl⟩
    next => exact .inr (.inl rfl)
    next => exact .inr (.inr (.inl rfl))
    next => exact .inr (.inr (.inr rfl))

/-- A class 1 occurrence has no reaction beyond the record and the DROP flag. -/
theorem State.fault_degrades {s : State} {b cause k : Nat} (dt : Nat) (hb : b < 56) (htakes : s.faultTakes b cause k = (1, none)) :
    s.fault b cause k dt = s.faultDropped b cause k dt 1 := by
  unfold State.fault
  rw [if_neg (by omega), htakes]
  rfl

section Frame
variable (s : State) (b : Nat)

theorem State.dropSafe_frame : s.dropSafe.cas = s.cas ∧ s.dropSafe.axes = s.axes ∧ ∀ k, s.dropSafe.nat k = s.nat k := by
  unfold State.dropSafe
  split
  · exact ⟨State.event_cas .., State.event_axes .., fun k => State.event_nat ..⟩
  · exact ⟨rfl, rfl, fun _ => rfl⟩

theorem State.faultTaken_frame (cls : Nat) :
    (s.faultTaken b cls).cas = s.cas ∧ (s.faultTaken b cls).axes = s.axes ∧ ∀ k, (s.faultTaken b cls).nat k = s.nat k := by
  unfold State.faultTaken
  dsimp only
  split <;> exact ⟨rfl, rfl, fun _ => rfl⟩

/-- What no latching writes: every object but the bit's own record, FIRST_FAULT and the error objects. -/
def unrecorded (b k : Nat) : Prop := k ≠ ky 0x2200 3 ∧ ¬recordObject b k ∧ ¬errorObject k

theorem State.faultLatched_frame (cause k dt cls : Nat) :
    (s.faultLatched b cause k dt cls).cas = s.cas ∧ (s.faultLatched b cause k dt cls).axes = s.axes ∧
      ∀ j, unrecorded b j → (s.faultLatched b cause k dt cls).nat j = s.nat j := by
  have hrep := (s.faultTaken b cls).latchFault_reported b cause k dt (s.flt.injected.contains b) cls
  obtain ⟨-, hcas, haxes⟩ := (s.faultTaken b cls).latched_frame b (faultSyndrome cause k dt (s.flt.injected.contains b))
  obtain ⟨hcas', haxes', hnat'⟩ := s.faultTaken_frame b cls
  refine ⟨hrep.cas.trans (hcas.trans hcas'), hrep.axes.trans (haxes.trans haxes'), fun j ⟨hfirst, hown, herror⟩ => ?_⟩
  exact (hrep.nat j herror).trans ((State.latched_nat_ne _ b hfirst hown).trans (hnat' j))

theorem State.faultDropped_frame (cause k dt cls : Nat) :
    (s.faultDropped b cause k dt cls).cas = s.cas ∧ (s.faultDropped b cause k dt cls).axes = s.axes ∧
      ∀ j, unrecorded b j → (s.faultDropped b cause k dt cls).nat j = s.nat j := by
  obtain ⟨hcas, haxes, hnat⟩ := s.faultLatched_frame b cause k dt cls
  unfold State.faultDropped
  dsimp only
  split
  · obtain ⟨hcas', haxes', hnat'⟩ := (s.faultLatched b cause k dt cls).dropSafe_frame
    exact ⟨hcas'.trans hcas, haxes'.trans haxes, fun j hj => (hnat' j).trans (hnat j hj)⟩
  · exact ⟨hcas, haxes, hnat⟩

end Frame

/-! ## A stuck input (R433) -/

theorem State.faultTakes_stuck {s : State} {b : Nat} (k : Nat) (hlow : 28 ≤ b) (hhigh : b ≤ 31) : s.faultTakes b 3 k = (1, none) :=
  (if_neg (by omega)).trans ((if_pos ⟨hlow, hhigh⟩).trans (if_pos rfl))

/-- An error line of the anchor inputs has no effect of its own. -/
theorem State.errorLine_input {s : State} {b : Nat} (cause k dt : Nat) (hlow : 28 ≤ b) (hhigh : b ≤ 31) :
    s.errorLine b cause k dt = s.fault b cause k dt := by
  unfold State.errorLine
  rw [if_neg (by omega), if_neg (by omega), if_neg (by omega), if_neg (by omega), if_neg (by omega), if_neg (by omega),
    if_neg (by omega), if_neg (by omega)]

theorem unrecorded_of_index {b k : Nat} (hk : k / 256 ≠ 0x2200 ∧ k / 256 ≠ 0x2210 + b ∧ 0x2000 ≤ k / 256) : unrecorded b k := by
  obtain ⟨hfirst, hown, hlow⟩ := hk
  exact ⟨by rintro rfl; exact hfirst rfl, not_recordObject_of_index b hown, not_errorObject (by omega)⟩

/-- The flags and the class of a bit are no part of its record. -/
theorem unrecorded_flags (b : Nat) {j : Nat} (hj : j < 3) : unrecorded b (oFlt b j) := by
  refine ⟨oFlt_ne_first b (by omega), ?_, not_errorObject (le_oFlt b)⟩
  rintro ⟨i, hi, -, h⟩
  rw [oFlt_inj] at h
  omega

theorem unrecorded_casState {b : Nat} (c : Nat) (hb : b < 64) : unrecorded b (oCas c 2 1) := by
  refine unrecorded_of_index ?_
  unfold oCas ky
  omega

/-- Settles O55: class 1 has no reaction, and neither the record nor a dropped pin touches casements, axes or the mode. -/
theorem stuckInputsDegrade : Obligations.StuckInputsDegrade := by
  unfold Obligations.StuckInputsDegrade
  intro t s0 b k dt s hlow hhigh hmode
  have htakes : s.faultTakes b 3 k = (1, none) := s.faultTakes_stuck k hlow hhigh
  obtain ⟨hcas, haxes, hnat⟩ := s.faultDropped_frame b 3 k dt 1
  refine ⟨htakes, s.faultDropped b 3 k dt 1, ?_, hcas, haxes, hnat _ ?_, fun c _ => hnat _ (unrecorded_casState c b.isLt)⟩
  · refine (if_neg hmode).trans (congrArg Host.Outcome.next ?_)
    exact (State.errorLine_input 3 k dt hlow hhigh).trans (State.fault_degrades dt (by omega) htakes)
  · exact unrecorded_of_index (show 0x2100 ≠ 0x2200 ∧ 0x2100 ≠ 0x2210 + b.val ∧ 0x2000 ≤ 0x2100 by omega)

/-! ## The SAFE pins (R437, R445) -/

/-- SAFE_A and SAFE_B as the collector drives them. -/
def State.pins (s : State) : Bool × Bool := (s.flt.safeA, s.flt.safeB)

@[simp] theorem State.setn_pins (s : State) (k : Nat) (n : Int) : (s.setn k n).pins = s.pins := rfl

@[simp] theorem State.event_pins (s : State) (src cause inst : Nat) (data : Bytes) : (s.event src cause inst data).pins = s.pins := by
  simp [State.pins]

/-- Dropped pins are low. -/
@[simp] theorem State.dropSafe_pins (s : State) : s.dropSafe.pins = (false, false) := by
  unfold State.dropSafe
  split
  next => rw [State.event_pins]; rfl
  next h => simpa [State.pins] using h

@[simp] theorem State.stopPulses_pins (s : State) (c : Nat) : (s.stopPulses c).pins = s.pins := by
  unfold State.stopPulses
  extract_lets x hit s1
  split <;> rfl

@[simp] theorem State.casFault_pins (s : State) (c cause : Nat) : (s.casFault c cause).pins = s.pins := by
  unfold State.casFault
  split
  · rfl
  · rw [State.setn_pins, State.setCas, State.setn_pins, State.stopPulses_pins]
    rfl

@[simp] theorem State.casStop_pins (s : State) (b c : Nat) : (s.casStop b c).pins = s.pins := by
  unfold State.casStop
  extract_lets s1
  have h1 : s1.pins = s.pins := s.casFault_pins c 1
  split <;> exact h1

@[simp] theorem State.putAx_pins (s : State) (a : Nat) (x : Axis) : (s.putAx a x).pins = s.pins := by
  unfold State.putAx
  split <;> rfl

@[simp] theorem State.rampFaulted_pins (s : State) (a : Nat) : (s.rampFaulted a).pins = s.pins := by
  simp [State.rampFaulted, State.setAxState]

@[simp] theorem State.axStop_pins (s : State) (a why : Nat) : (s.axStop a why).pins = s.pins := by
  unfold State.axStop
  extract_lets x
  split
  · rfl
  · split <;> rfl
  · split
    · exact s.rampFaulted_pins a
    · rfl
  · rfl

@[simp] theorem State.lsyncHold_pins (s : State) (x : Nat) : (s.lsyncHold x).pins = s.pins := by
  unfold State.lsyncHold
  split <;> rfl

@[simp] theorem State.startProgram_pins (s : State) (x e : Nat) : (s.startProgram x e).pins = s.pins := by
  unfold State.startProgram
  extract_lets lim s1 s2 lamp s3
  have h3 : s3.pins = s2.pins := by unfold s3; split <;> rfl
  exact h3.trans (s.lsyncHold_pins x)

@[simp] theorem State.hwShutdown_pins (s : State) : s.hwShutdown.pins = s.pins := by
  unfold State.hwShutdown
  split
  · rfl
  · exact s.startProgram_pins ..

@[simp] theorem State.enterMode_pins (s : State) (m : Nat) : (s.enterMode m).pins = s.pins := by
  unfold State.enterMode
  rw [State.event_pins]
  rfl

@[simp] theorem State.enterSafe_pins (s : State) : s.enterSafe.pins = s.pins := by
  unfold State.enterSafe
  split
  · refine List.foldlRecOn (motive := fun u : State => u.pins = s.pins) _ _ ?start fun u hu a _ => ?stop
    case start =>
      rw [State.hwShutdown_pins, State.enterMode_pins]
      rfl
    case stop =>
      split
      · exact (u.axStop_pins a 3).trans hu
      · exact hu
  · rfl

/-- The reaction of a class leaves the pins as the DROP flag left them. -/
theorem State.fault_pins (s : State) {b : Nat} (cause k dt : Nat) (hb : b < 56) :
    (s.fault b cause k dt).pins = (s.faultDropped b cause k dt (s.faultTakes b cause k).1).pins := by
  obtain ⟨c, h⟩ | h | h | h := s.fault_reacts cause k dt hb
  · rw [h, State.casStop_pins]
  · rw [h, State.axStop_pins]
  · rw [h, State.enterSafe_pins]
  · rw [h]

/-- Where the DROP flag of the bit is set the pins are low before the class reacts. -/
theorem State.faultDropped_pins {s : State} {b : Nat} (cause k dt cls : Nat) (hdrop : s.obit (oFlt b 2) 1 = true) :
    (s.faultDropped b cause k dt cls).pins = (false, false) := by
  have hkept : (s.faultLatched b cause k dt cls).obit (oFlt b 2) 1 = true := by
    obtain ⟨-, -, hnat⟩ := s.faultLatched_frame b cause k dt cls
    rw [State.obit, hnat _ (unrecorded_flags b (by decide))]
    exact hdrop
  unfold State.faultDropped
  rw [if_pos hkept]
  exact State.dropSafe_pins _

/-! ## Writes of the flags of bit 55 (R437, R448) -/

theorem findRow_flags55 : findRow 0x2247 2 = some (0x2210, 55, ⟨2, 1, .uns 1, 3, false, 1, .rng 0 3, .imm⟩) := by decide

theorem bit_one_or_two (n : Nat) : bit (n ||| 2) 1 = true := by
  rw [bit_eq_testBit, Nat.testBit_or]
  exact Bool.or_true _

/-- A write of the flags of bit 55 that is accepted leaves DROP set. -/
theorem State.act_flags55 (s0 s : State) (p : Path) (v : Val) (b : Bytes) :
    (State.act s0 s p true 0x2247 0x2210 55 2 v b).obit (oFlt 55 2) 1 = true := by
  have hact : State.act s0 s p true 0x2247 0x2210 55 2 v b = s.setn (oFlt 55 2) (v.int.toNat ||| 2 : Nat) :=
    State.act_line b (by decide) (by decide) (by decide) rfl
  rw [hact, State.obit, State.nat_setn_self, Int.toNat_natCast]
  exact bit_one_or_two _

theorem State.writeOne_flags55 {s : State} (p : Path) (b : Bytes) (hdrop : s.obit (oFlt 55 2) 1 = true) :
    (s.writeOne p true 0x2247 2 b).1.obit (oFlt 55 2) 1 = true := by
  unfold State.writeOne
  split
  next => exact hdrop
  next base i row v hparse =>
    obtain ⟨w, hx, -⟩ := State.writeParse_ok_row findRow_flags55 hparse
    cases hx
    dsimp only
    split
    next => exact hdrop
    next => exact State.act_flags55 _ _ _ _ b

/-- A write over a path is answered without effect, waits over a restart, or is the one write of `State.writeOne`. -/
theorem State.dictWrite_cases (s : State) (p : Path) (idx sub : Nat) (b : Bytes) :
    (∃ r, s.dictWrite p idx sub b = s.answer r) ∨
      s.dictWrite p idx sub b = { s with net := { s.net with held := s.net.held ++ [Held.write p idx sub b] } }.answer .waits ∨
      (∃ r, s.dictWrite p idx sub b = (s.writeOne p true idx sub b).1.answer r) ∨
      s.dictWrite p idx sub b = (s.writeOne p true idx sub b).1 := by
  unfold State.dictWrite
  cases p
  case bar0 => exact .inl ⟨_, rfl⟩
  all_goals
    dsimp only
    split_ifs
    · exact .inl ⟨_, rfl⟩
    · exact .inr (.inl rfl)
    · split
      next u r hw => exact .inr (.inr (.inl ⟨_, by rw [hw]⟩))
      next u hw => exact .inr (.inr (.inr (by rw [hw])))

theorem State.dictWrite_flags55 {s : State} (p : Path) (b : Bytes) (hdrop : s.obit (oFlt 55 2) 1 = true) :
    (s.dictWrite p 0x2247 2 b).obit (oFlt 55 2) 1 = true := by
  have hone := State.writeOne_flags55 p b hdrop
  obtain ⟨r, h⟩ | h | ⟨r, h⟩ | h := s.dictWrite_cases p 0x2247 2 b
  · rw [h]
    exact hdrop
  · rw [h]
    exact hdrop
  · rw [h]
    exact hone
  · rw [h]
    exact hone

/-- A refused register write changes no object but the count of the host interface's errors. -/
theorem State.hostError_flags55 {s : State} (off : Nat) (r : Refuse) (bar2 : Bool) (hdrop : s.obit (oFlt 55 2) 1 = true) :
    (s.hostError off r bar2).obit (oFlt 55 2) 1 = true := by
  unfold State.hostError
  split
  · exact hdrop
  · dsimp only
    rw [State.obit, State.answer_nat, State.event_nat, State.bump_nat_ne _ (by decide)]
    exact hdrop

/-- FCFG55 writes DROP as 1. -/
theorem State.regWord_flags55 {s : State} (v : Nat) (hdrop : s.obit (oFlt 55 2) 1 = true) :
    (s.regWord 0x307E0 v).obit (oFlt 55 2) 1 = true := by
  have hword : s.wordLow 0x307E0 v = s.fcfgWrite 55 v := rfl
  unfold State.regWord
  rw [if_pos (by decide), hword, State.fcfgWrite]
  dsimp only
  split_ifs
  · exact State.hostError_flags55 _ _ _ hdrop
  · exact State.hostError_flags55 _ _ _ hdrop
  · rw [State.obit, State.nat_setn_self]
    cases bit v 5 <;> rfl
  · exact absurd rfl ‹¬(55 : Nat) = 55›

/-- Settles O56: the pins are low before the class reacts and no reaction raises them; each way of writing the flags of bit 55 writes DROP
as 1. -/
theorem dropFlag : Obligations.DropFlag := by
  unfold Obligations.DropFlag
  refine ⟨?drop, ?reset, ?dictionary, ?register⟩
  case drop =>
    intro s b cause k dt hb hdrop
    have hpins := (s.fault_pins cause k dt (show b < 56 by omega)).trans (State.faultDropped_pins cause k dt _ hdrop)
    exact Prod.mk.inj hpins
  case reset => decide +kernel
  case dictionary =>
    intro t s0 p b hdrop
    exact ⟨_, rfl, State.dictWrite_flags55 p b hdrop⟩
  case register =>
    intro t s0 v hdrop
    by_cases hmode : (s0.tick t).modeN = 0
    · exact ⟨_, if_pos hmode, hdrop⟩
    · exact ⟨_, if_neg hmode, State.regWord_flags55 _ hdrop⟩

/-! # Which status bits a clear clears (R441, R443) -/

/-- The clear of bit `b` by a write of `mask`, the live conditions being `live`. -/
def State.clearBit (live mask : BitVec 64) (s : State) (b : Nat) : State :=
  if !(mask.getLsbD b && s.flt.fsw.getLsbD b) then s
  else if onClock s.flt.lastT b s.now then s.faultAgain b
  else if live.getLsbD b then s.event 0xCD 0x0652 b
  else
    let s := { s with flt := { s.flt with
      fsw := s.flt.fsw &&& ~~~(BitVec.ofNat 64 (2 ^ b)), setT := offList s.flt.setT b, lastT := offList s.flt.lastT b,
      concern := s.flt.concern.filter (fun p => p.1 != b) } }
    ([3, 4, 5, 6, 7].foldl (fun s i => s.setn (oFlt b i) 0) s).event 0xCD 0x0651 b

/-- The clears of the bits below `n`. -/
def State.clearBits (s : State) (mask : BitVec 64) (n : Nat) : State := (List.range n).foldl (State.clearBit s.liveNow mask) s

theorem State.clearFaults_eq (s : State) (mask : BitVec 64) :
    s.clearFaults mask =
      let u := s.clearBits mask 55
      (if u.flt.fsw = 0 then u.setn (ky 0x2200 3) 255 else u).errReg := rfl

theorem State.clearBits_succ (s : State) (mask : BitVec 64) (n : Nat) :
    s.clearBits mask (n + 1) = (s.clearBits mask n).clearBit s.liveNow mask n := by
  simp [State.clearBits, List.range_succ]

theorem onClock_offList_ne {l : List (Nat × Time)} {b j : Nat} (t : Time) (h : j ≠ b) : onClock (offList l b) j t = onClock l j t := by
  unfold onClock offList
  rw [List.any_filter]
  congr 1
  funext p
  by_cases hp : p.1 = j
  · simp [hp, h]
  · simp [hp]

section Bit
variable (live mask : BitVec 64) (s : State) (b : Nat)

/-- A bit's record is cleared when its status bit is lifted (R441). -/
def State.lifted : State :=
  [3, 4, 5, 6, 7].foldl (fun s i => s.setn (oFlt b i) 0) { s with flt := { s.flt with
    fsw := s.flt.fsw &&& ~~~(BitVec.ofNat 64 (2 ^ b)), setT := offList s.flt.setT b, lastT := offList s.flt.lastT b,
    concern := s.flt.concern.filter (fun p => p.1 != b) } }

/-- The four outcomes of the clear of one bit. -/
theorem State.clearBit_cases :
    ((mask.getLsbD b && s.flt.fsw.getLsbD b) = false ∧ s.clearBit live mask b = s) ∨
    ((mask.getLsbD b && s.flt.fsw.getLsbD b) = true ∧ onClock s.flt.lastT b s.now = true ∧ s.clearBit live mask b = s.faultAgain b) ∨
    ((mask.getLsbD b && s.flt.fsw.getLsbD b) = true ∧ onClock s.flt.lastT b s.now = false ∧ live.getLsbD b = true ∧
      s.clearBit live mask b = s.event 0xCD 0x0652 b) ∨
    ((mask.getLsbD b && s.flt.fsw.getLsbD b) = true ∧ onClock s.flt.lastT b s.now = false ∧ live.getLsbD b = false ∧
      s.clearBit live mask b = (s.lifted b).event 0xCD 0x0651 b) := by
  unfold State.clearBit
  cases hset : mask.getLsbD b && s.flt.fsw.getLsbD b
  · exact .inl ⟨rfl, rfl⟩
  cases hclk : onClock s.flt.lastT b s.now
  · cases hlive : live.getLsbD b
    · exact .inr (.inr (.inr ⟨rfl, rfl, rfl, rfl⟩))
    · exact .inr (.inr (.inl ⟨rfl, rfl, rfl, rfl⟩))
  · exact .inr (.inl ⟨rfl, rfl, rfl⟩)

theorem State.faultAgain_flt : (s.faultAgain b).flt = { s.flt with setT := (b, s.now) :: offList s.flt.setT b } := by
  unfold State.faultAgain
  rw [State.event_flt]
  rfl

/-- A clear of one bit lifts it where it is named, set, not live and not occurring on this clock; every other bit stays. -/
theorem State.clearBit_fsw (hb : b < 64) (j : Nat) :
    (s.clearBit live mask b).flt.fsw.getLsbD j = (s.flt.fsw.getLsbD j &&
      !(decide (j = b) && mask.getLsbD b && !live.getLsbD b && !onClock s.flt.lastT b s.now)) := by
  obtain ⟨hset, h⟩ | ⟨-, hclk, h⟩ | ⟨-, -, hlive, h⟩ | ⟨hset, hclk, hlive, h⟩ := s.clearBit_cases live mask b
  · rw [h]
    by_cases hj : j = b
    · subst hj
      cases hm : mask.getLsbD j
      · simp
      · simp [show s.flt.fsw.getLsbD j = false by simpa [hm] using hset]
    · simp [hj]
  · simp [h, hclk, State.faultAgain_flt]
  · simp [h, hlive]
  · have hm : mask.getLsbD b = true := (Bool.and_eq_true _ _ ▸ hset).1
    have hfsw : (s.lifted b).flt.fsw = s.flt.fsw &&& ~~~(BitVec.ofNat 64 (2 ^ b)) := rfl
    rw [h, State.event_flt, hfsw, BitVec.getLsbD_and, BitVec.getLsbD_not, getLsbD_twoPow b j hb, hm, hlive, hclk]
    by_cases hj : j < 64
    · simp [hj]
    · simp [BitVec.getLsbD_of_ge s.flt.fsw j (by omega)]

/-- What a clear of one bit leaves alone. -/
structure State.ClearKeeps (s u : State) (b : Nat) : Prop where
  now : u.now = s.now
  live : u.flt.live = s.flt.live
  cas : u.cas = s.cas
  mem : u.mem = s.mem
  last : ∀ j, j ≠ b → onClock u.flt.lastT j s.now = onClock s.flt.lastT j s.now
  nat : ∀ k, ¬recordObject b k → u.nat k = s.nat k

theorem State.lifted_nat_ne {k : Nat} (hk : ¬recordObject b k) : (s.lifted b).nat k = s.nat k := by
  have hne {sub : Nat} (hsub : 3 ≤ sub ∧ sub ≤ 7) : k ≠ oFlt b sub := fun e => hk ⟨sub, hsub.1, hsub.2, e⟩
  exact (State.nat_setn_ne _ _ (hne (by decide))).trans ((State.nat_setn_ne _ _ (hne (by decide))).trans
    ((State.nat_setn_ne _ _ (hne (by decide))).trans ((State.nat_setn_ne _ _ (hne (by decide))).trans
      (State.nat_setn_ne _ _ (hne (by decide))))))

theorem State.faultAgain_nat (k : Nat) :
    (s.faultAgain b).nat k = (((s.setn (oFlt b 3) (s.nat (oFlt b 6) : Nat)).setn (oFlt b 4) (s.nat (oFlt b 7) : Nat)).setn (oFlt b 5) 1).nat k := by
  unfold State.faultAgain
  generalize ((s.setn (oFlt b 3) (s.nat (oFlt b 6) : Nat)).setn (oFlt b 4) (s.nat (oFlt b 7) : Nat)).setn (oFlt b 5) 1 = u
  exact State.event_nat ..

theorem State.faultAgain_nat_ne {k : Nat} (hk : ¬recordObject b k) : (s.faultAgain b).nat k = s.nat k := by
  have hne {sub : Nat} (hsub : 3 ≤ sub ∧ sub ≤ 7) : k ≠ oFlt b sub := fun e => hk ⟨sub, hsub.1, hsub.2, e⟩
  rw [State.faultAgain_nat]
  exact (State.nat_setn_ne _ _ (hne (by decide))).trans
    ((State.nat_setn_ne _ _ (hne (by decide))).trans (State.nat_setn_ne _ _ (hne (by decide))))

theorem State.clearBit_keeps : s.ClearKeeps (s.clearBit live mask b) b := by
  obtain ⟨-, h⟩ | ⟨-, -, h⟩ | ⟨-, -, -, h⟩ | ⟨-, -, -, h⟩ := s.clearBit_cases live mask b <;> rw [h]
  · exact ⟨rfl, rfl, rfl, rfl, fun _ _ => rfl, fun _ _ => rfl⟩
  · exact ⟨State.event_now .., by rw [State.faultAgain_flt], State.event_cas .., State.event_mem ..,
      fun _ _ => by rw [State.faultAgain_flt], fun k hk => s.faultAgain_nat_ne b hk⟩
  · exact ⟨by simp, by simp, by simp, by simp, fun _ _ => by simp, fun _ _ => by simp⟩
  · refine ⟨State.event_now .., by rw [State.event_flt]; rfl, State.event_cas .., State.event_mem .., fun j hj => ?_, fun k hk => ?_⟩
    · rw [State.event_flt]
      exact onClock_offList_ne s.now hj
    · rw [State.event_nat]
      exact s.lifted_nat_ne b hk

/-- An occurrence on the clock of the clear is the first one of a new record (R441). -/
theorem State.faultAgain_record :
    (s.faultAgain b).nat (oFlt b 5) = 1 ∧ (s.faultAgain b).nat (oFlt b 3) = s.nat (oFlt b 6) ∧
      (s.faultAgain b).nat (oFlt b 4) = s.nat (oFlt b 7) := by
  simp only [State.faultAgain_nat, State.nat_setn, oFlt_inj]
  exact ⟨rfl, rfl, rfl⟩

end Bit

/-! ## All bits -/

/-- Bits have records of their own. -/
theorem not_recordObject_of_ne {b c j : Nat} (hj : j < 256) (h : b ≠ c) : ¬recordObject b (oFlt c j) :=
  not_recordObject_of_index b (by rw [oFlt_index c hj]; omega)

section Bits
variable (s : State) (mask : BitVec 64)

theorem State.clearBits_keeps (n : Nat) :
    (s.clearBits mask n).now = s.now ∧ (s.clearBits mask n).flt.live = s.flt.live ∧ (s.clearBits mask n).cas = s.cas ∧
      (s.clearBits mask n).mem = s.mem ∧ (∀ j, n ≤ j → onClock (s.clearBits mask n).flt.lastT j s.now = onClock s.flt.lastT j s.now) ∧
      ∀ k, (∀ b, b < n → ¬recordObject b k) → (s.clearBits mask n).nat k = s.nat k := by
  induction n with
  | zero => exact ⟨rfl, rfl, rfl, rfl, fun _ _ => rfl, fun _ _ => rfl⟩
  | succ n ih =>
    obtain ⟨hnow, hlive, hcas, hmem, hlast, hnat⟩ := ih
    have hk := (s.clearBits mask n).clearBit_keeps s.liveNow mask n
    rw [State.clearBits_succ]
    refine ⟨hk.now.trans hnow, hk.live.trans hlive, hk.cas.trans hcas, hk.mem.trans hmem, fun j hj => ?_, fun k hrec => ?_⟩
    · rw [← hnow, hk.last j (by omega), hnow, hlast j (by omega)]
    · rw [hk.nat k (hrec n (by omega)), hnat k fun b hb => hrec b (by omega)]

/-- The status bits after the clears of the bits below `n`. -/
theorem State.clearBits_fsw {n : Nat} (hn : n ≤ 55) (j : Nat) :
    (s.clearBits mask n).flt.fsw.getLsbD j = (s.flt.fsw.getLsbD j &&
      !(decide (j < n) && mask.getLsbD j && !s.liveNow.getLsbD j && !onClock s.flt.lastT j s.now)) := by
  induction n with
  | zero => simp [State.clearBits]
  | succ n ih =>
    obtain ⟨hnow, -, -, -, hlast, -⟩ := s.clearBits_keeps mask n
    rw [State.clearBits_succ, State.clearBit_fsw _ _ _ n (by omega), ih (by omega), hnow, hlast n (Nat.le_refl n)]
    by_cases hj : j = n
    · subst hj
      simp
    · have : j < n + 1 ↔ j < n := by omega
      simp [hj, this]

/-- A set and named bit that occurs on the clock of the clear has a new record, and later clears leave it. -/
theorem State.clearBits_record {b n : Nat} (hbn : b < n) (hn : n ≤ 55) (hm : mask.getLsbD b = true) (hset : s.flt.fsw.getLsbD b = true)
    (hclk : onClock s.flt.lastT b s.now = true) :
    (s.clearBits mask n).nat (oFlt b 5) = 1 ∧ (s.clearBits mask n).nat (oFlt b 3) = s.nat (oFlt b 6) ∧
      (s.clearBits mask n).nat (oFlt b 4) = s.nat (oFlt b 7) := by
  induction n with
  | zero => omega
  | succ n ih =>
    obtain ⟨hnow, -, -, -, hlast, hnat⟩ := s.clearBits_keeps mask n
    rw [State.clearBits_succ]
    by_cases hb : b = n
    · subst hb
      have hfsw := s.clearBits_fsw mask (n := b) (by omega) b
      have hother (j : Nat) (hj : j < 256) (c : Nat) (hc : c < b) : ¬recordObject c (oFlt b j) := not_recordObject_of_ne hj (by omega)
      have hagain : (s.clearBits mask b).clearBit s.liveNow mask b = (s.clearBits mask b).faultAgain b := by
        obtain ⟨h, -⟩ | ⟨-, -, h⟩ | ⟨-, h, -⟩ | ⟨-, h, -⟩ := (s.clearBits mask b).clearBit_cases s.liveNow mask b
        · simp [hfsw, hm, hset] at h
        · exact h
        · simp [hnow, hlast b (Nat.le_refl b), hclk] at h
        · simp [hnow, hlast b (Nat.le_refl b), hclk] at h
      rw [hagain, ← hnat _ (hother 6 (by decide)), ← hnat _ (hother 7 (by decide))]
      exact State.faultAgain_record _ b
    · obtain ⟨h5, h3, h4⟩ := ih (by omega) (by omega)
      have hk := (s.clearBits mask n).clearBit_keeps s.liveNow mask n
      have hother (j : Nat) (hj : j < 256) : ¬recordObject n (oFlt b j) := not_recordObject_of_ne hj (Ne.symm hb)
      exact ⟨(hk.nat _ (hother 5 (by decide))).trans h5, (hk.nat _ (hother 3 (by decide))).trans h3,
        (hk.nat _ (hother 4 (by decide))).trans h4⟩

/-- After the bits FIRST_FAULT and the error register are set. -/
theorem State.clearFaults_nat {k : Nat} (hk : ¬errorObject k) :
    (s.clearFaults mask).nat k =
      if k = ky 0x2200 3 ∧ (s.clearBits mask 55).flt.fsw = 0 then 255 else (s.clearBits mask 55).nat k := by
  rw [State.clearFaults_eq]
  dsimp only
  have hreg : k ≠ ky 0x1001 0 := by
    rintro rfl
    exact hk (.inl rfl)
  refine (State.nat_setn_ne _ _ hreg).trans ?_
  by_cases h0 : (s.clearBits mask 55).flt.fsw = 0
  · rw [if_pos h0, State.nat_setn]
    simp only [h0, and_true]
    rfl
  · rw [if_neg h0, if_neg fun h => h0 h.2]

theorem State.clearFaults_frame :
    (s.clearFaults mask).flt = (s.clearBits mask 55).flt ∧ (s.clearFaults mask).cas = (s.clearBits mask 55).cas ∧
      (s.clearFaults mask).mem = (s.clearBits mask 55).mem := by
  rw [State.clearFaults_eq]
  dsimp only
  split <;> exact ⟨rfl, rfl, rfl⟩

end Bits

/-- Settles O54: each bit below 55 is cleared by itself, and neither its status bit nor its record is touched by the clear of another. -/
theorem faultClearing : Obligations.FaultClearing := by
  unfold Obligations.FaultClearing
  intro s m
  obtain ⟨hflt, hcas, hmem⟩ := s.clearFaults_frame m
  obtain ⟨-, hlive, hcas', hmem', -, hnat⟩ := s.clearBits_keeps m 55
  have hrecord (b j : Nat) (hj : j < 256) : (s.clearFaults m).nat (oFlt b j) = (s.clearBits m 55).nat (oFlt b j) :=
    (s.clearFaults_nat m (not_errorObject (le_oFlt b))).trans (if_neg fun h => oFlt_ne_first b hj h.1)
  refine ⟨fun b => ?_, fun b hb hm hset hclk => ?_, ?_, (congrArg _ hflt).trans hlive, hcas.trans hcas', hmem.trans hmem'⟩
  · rw [hflt, s.clearBits_fsw m (Nat.le_refl 55)]
  · rw [hrecord b 5 (by decide), hrecord b 3 (by decide), hrecord b 4 (by decide)]
    exact s.clearBits_record m hb (Nat.le_refl 55) hm hset hclk
  · rw [hflt, s.clearFaults_nat m (not_errorObject (by decide)),
      hnat (ky 0x2200 3) fun b _ => not_recordObject_of_index b (show 0x2200 ≠ 0x2210 + b by omega)]
    simp

/-! # Fault collector commands (R435, R438, R441 to R448) -/

theorem findRow_faultClear : findRow 0x2200 4 = some (0x2200, 0, ⟨4, 1, .uns 8, 63, true, 0, .any, .imm⟩) := by decide

theorem findRow_inject : findRow 0x2260 5 = some (0x2260, 0, ⟨5, 1, .uns 1, 19, true, 0, .set [1], .imm⟩) := by decide

/-- A path that serves the dictionary is not BAR0. -/
theorem State.ne_bar0_of_serves {s : State} {p : Path} (hp : s.serves p = true) : p ≠ .bar0 := by
  obtain ⟨hbar, -, -, -⟩ := (s.serves_iff p).mp hp
  exact hbar

section Writes
variable {s : State} {p : Path} (hp : s.serves p = true)
include hp

/-- A clear mask over the dictionary acts in every mode from CONFIGURE on (R441). -/
theorem State.dictNum_faultClear (hmode : s.modeN ≤ 7) (mask : BitVec 64) :
    s.dictNum p 0x2200 4 mask.toNat = (s.answer .ok).clearFaults mask := by
  have hmask : BitVec.ofNat 64 mask.toNat = mask := (BitVec.ofNat_toNat 64 mask).trans (BitVec.setWidth_eq mask)
  exact State.dictNum_lineObject hp findRow_faultClear rfl (modeTakes_served (State.modeN_of_serves hp) hmode) mask.isLt
    (rowRange_any rfl rfl mask.isLt) (State.writeVal_command _ _ rfl rfl) rfl (fun _ => rfl) fun _ =>
      congrArg (State.clearFaults _) hmask

theorem State.dictNum_inject (hmode : s.modeN = 2 ∨ s.modeN = 3 ∨ s.modeN = 6) (hcheck : s.injectCheck = none) :
    s.dictNum p 0x2260 5 1 = (s.answer .ok).injectAct :=
  State.dictNum_lineObject hp findRow_inject rfl (modeTakes_idle hmode) (by decide) (by decide)
    (State.writeVal_command _ _ rfl rfl) rfl (fun _ => hcheck) fun _ => rfl

end Writes

section Events
variable {t : Time} {s0 : State}

theorem execFaultClear_served {p : Path} {mask : BitVec 64} (hp : (s0.tick t).serves p = true) (hmode : (s0.tick t).modeN ≤ 7) :
    exec (.faultClear t p mask) s0 = .next (((s0.tick t).answer .ok).clearFaults mask) := by
  rw [← State.dictNum_faultClear hp hmode]
  cases p with
  | bar0 => exact absurd rfl (State.ne_bar0_of_serves hp)
  | _ => rfl

theorem execInjectionExecute_served {p : Path} (hp : (s0.tick t).serves p = true)
    (hmode : (s0.tick t).modeN = 2 ∨ (s0.tick t).modeN = 3 ∨ (s0.tick t).modeN = 6) (hcheck : (s0.tick t).injectCheck = none) :
    exec (.injectionExecute t p) s0 = .next (((s0.tick t).answer .ok).injectAct) := by
  rw [← State.dictNum_inject hp hmode hcheck]
  cases p with
  | bar0 => exact absurd rfl (State.ne_bar0_of_serves hp)
  | _ => rfl

/-- Once its period is over the watchdog holds the cluster (R442). -/
theorem execWatchdog_over {code : Nat} (hmode : 1 < (s0.tick t).modeN) (hheld : (s0.tick t).flt.clusterHeld = false)
    (hover : (s0.tick t).flt.wdogT + msT (s0.tick t).flt.wdogMs ≤ t) :
    exec (.watchdog t code) s0 = .next (
      let s := s0.tick t
      let u := (if s.modeN = 7 then s else s.fault 52 1 0 code).event 0xCC 0x0641 0
      { u with flt := { u.flt with clusterHeld := true }, net := { u.net with restarting := false } }) := by
  refine if_neg ?_
  rintro (h | h | h)
  · exact absurd h hmode.not_ge
  · exact absurd h (by rw [hheld]; decide)
  · exact absurd h (Nat.not_lt.mpr hover)

/-- A held cluster restarts once the system executor is idle (R442). -/
theorem execWatchdogRestartStart_idle (hheld : (s0.tick t).flt.clusterHeld = true) (hidle : (s0.tick t).exBusy sysEx = false) :
    exec (.watchdogRestartStart t) s0 = .next (
      let u := (s0.tick t).beginRestart
      { u with flt := { u.flt with wdogRestart := true } }) := by
  refine if_neg ?_
  rw [hheld, hidle]
  decide

/-- The state in which a measured temperature is compared with the limit, which storing it leaves as it is. -/
theorem execDieTemperatureMeasure_due {v : Int} (hmode : (s0.tick t).modeN ≠ 0)
    (hdue : elapsed (s0.tick t).flt.tempT (msT 1) t = true) :
    exec (.dieTemperatureMeasure t v) s0 = .next (
      let s := s0.tick t
      let u := { s with flt := { s.flt with tempT := some t } }.setn (ky 0x2200 8) (wrapS 16 v)
      if s.num (ky 0x2200 7) < wrapS 16 v then (u.setLive 54 true).fault 54 1 0 (wrapU 16 (wrapS 16 v)).toNat
      else if wrapS 16 v ≤ s.num (ky 0x2200 7) - 5 then u.setLive 54 false
      else u) := by
  have hlimit : ({ s0.tick t with flt := { (s0.tick t).flt with tempT := some t } }.setn (ky 0x2200 8) (wrapS 16 v)).num (ky 0x2200 7) =
      (s0.tick t).num (ky 0x2200 7) := State.num_setn_ne _ _ (by decide)
  change execDieTemperatureMeasure t v s0 = _
  rw [execDieTemperatureMeasure, if_neg (by rw [hdue]; simpa using hmode)]
  dsimp only
  rw [hlimit]
  split_ifs <;> rfl

end Events

/-- Settles O38, command by command: each hypothesis is one check that the write passes, or the state in which its event occurs. -/
theorem faultCommands : Obligations.FaultCommands := by
  unfold Obligations.FaultCommands
  refine ⟨?occurrence, ?clearBar0, ?clear, ?status, ?live, ?watchdog, ?restart, ?lockstep, ?hot, ?cool, ?between, ?pll, ?oscillator,
    ?inject, ?rewrite, ?heartbeat⟩
  case occurrence =>
    intro t s0 b cause k dt s hmode
    exact if_neg hmode
  case clearBar0 =>
    intro t s0 mask s hmode
    exact if_neg hmode
  case clear =>
    intro t s0 p mask s hp hmode
    exact execFaultClear_served hp hmode
  case status =>
    intro t s0 s hmode
    exact if_neg hmode
  case live =>
    intro t s0 s hmode
    exact if_neg hmode
  case watchdog =>
    intro t s0 code s u hmode hheld hover
    exact execWatchdog_over hmode hheld hover
  case restart =>
    intro t s0 s u hheld hidle
    exact execWatchdogRestartStart_idle hheld hidle
  case lockstep =>
    intro t s0 group s hmode
    exact if_neg hmode
  case hot =>
    intro t s0 v s u hmode hdue hhot
    exact (execDieTemperatureMeasure_due hmode hdue).trans (congrArg Host.Outcome.next (if_pos hhot))
  case cool =>
    intro t s0 v s u hmode hdue hcool
    exact (execDieTemperatureMeasure_due hmode hdue).trans (congrArg Host.Outcome.next
      ((if_neg (not_lt.mpr (hcool.trans (Int.sub_le_self _ (by decide))))).trans (if_pos hcool)))
  case between =>
    intro t s0 v s u hmode hdue hnot hnear
    exact (execDieTemperatureMeasure_due hmode hdue).trans (congrArg Host.Outcome.next
      ((if_neg (not_lt.mpr hnot)).trans (if_neg (not_le.mpr hnear))))
  case pll =>
    intro t s0 i s hmode
    exact if_neg hmode
  case oscillator =>
    intro t s0 s hmode
    exact if_neg hmode
  case inject =>
    intro t s0 p s hp hmode hcheck
    exact execInjectionExecute_served hp hmode hcheck
  case rewrite =>
    intro t s0 b i dt k s u w harm
    change execInjectionRewrite t s0 = _
    simp only [execInjectionRewrite, s, harm]
    rfl
  case heartbeat =>
    intro t s0 s hforce hon hdue
    exact if_pos ⟨hforce, hon, hdue⟩

/-! # Rails (R383, R385 to R388) -/

section Rails
variable {t : Time} {s0 : State} {n : Fin 64} {v : Bool}

/-- Power-good of a ramping rail makes it GOOD (R385). -/
theorem execPgChange_ramping (hstate : ((s0.tick t).setRail n { (s0.tick t).railOf n with pg := v }).railState n = 1)
    (hgood : ((s0.tick t).setRail n { (s0.tick t).railOf n with pg := v }).pgGood n = true) :
    exec (.pgChange t n v) s0 = .next (((s0.tick t).setRail n { (s0.tick t).railOf n with pg := v }).railGood n) := by
  change execPgChange t n v s0 = _
  simp only [execPgChange, hstate, hgood, if_true]

/-- A GOOD rail that loses power-good stops the pulses of its casement and takes the rail fault (R386). -/
theorem execPgChange_lost (hstate : ((s0.tick t).setRail n { (s0.tick t).railOf n with pg := v }).railState n = 2)
    (hgood : ((s0.tick t).setRail n { (s0.tick t).railOf n with pg := v }).pgGood n = false) :
    exec (.pgChange t n v) s0 = .next (
      let u := (s0.tick t).setRail n { (s0.tick t).railOf n with pg := v }
      (if u.railOwner n < 48 then u.stopPulses (u.railOwner n) else u).railFault n 0x0501) := by
  change execPgChange t n v s0 = _
  simp only [execPgChange, hstate, hgood, Bool.false_eq_true, if_false]

end Rails

/-- Settles O30, event by event: each hypothesis is part of the guard of its event. -/
theorem railCommands : Obligations.RailCommands := by
  unfold Obligations.RailCommands
  refine ⟨?good, ?lost, ?timeout, ?retry, ?count⟩
  case good =>
    intro t s0 n v s u hstate hgood
    exact execPgChange_ramping hstate hgood
  case lost =>
    intro t s0 n v s u k hstate hgood
    exact execPgChange_lost hstate hgood
  case timeout =>
    intro t s0 n s x hstate htimed hdue
    exact if_pos ⟨hstate, congrArg Bool.not htimed, hdue⟩
  case retry =>
    intro t s0 n s hstate hdue
    exact if_pos ⟨hstate, hdue⟩
  case count =>
    intro t s0 n s x hstate hdue
    exact if_pos ⟨hstate, hdue⟩

/-! # Instructions of system programs (R389 to R391, R394 to R396) -/

section Steps
variable {t : Time} {s0 : State} {x : Fin 49}

/-- ENABLE switches rails on, but on a casement executor under the lock it ends the program (R388, R389). -/
theorem execEnable_atOp (hop : (s0.tick t).atOp x 1 = true) :
    exec (.enable t x) s0 = (
      let s := s0.tick t
      if x.val ≠ sysEx ∧ s.lamp.locked = true then .next (s.endProgram x 0xF2)
      else .next (((s.named x (s.stepWord x)).foldl State.railEnable s).goNext x 1)) :=
  if_neg (not_bnot_of_true hop)

/-- WAIT_PG goes on once all its rails show the level (R390). -/
theorem execWaitPg_shown (hop : (s0.tick t).atOp x 4 = true)
    (hshown : ((s0.tick t).named x ((s0.tick t).stepWord x)).all ((s0.tick t).showsLevel (bit ((s0.tick t).stepWord x) 25)) = true) :
    exec (.waitPg t x) s0 = .next ((s0.tick t).goNext x 1) :=
  (if_neg (not_bnot_of_true hop)).trans (if_pos hshown)

/-- A WAIT_PG for power-good whose time is over takes the power-good timeout of the rails that still ramp (R387, R390). -/
theorem execWaitPg_expires (hop : (s0.tick t).atOp x 4 = true)
    (hshown : ((s0.tick t).named x ((s0.tick t).stepWord x)).all ((s0.tick t).showsLevel (bit ((s0.tick t).stepWord x) 25)) = false)
    (hlevel : bit ((s0.tick t).stepWord x) 25 = false) (hlimit : bits ((s0.tick t).stepWord x) 23 8 ≠ 0)
    (hover : ((s0.tick t).exOf x).stepT + usT (100 * bits ((s0.tick t).stepWord x) 23 8) ≤ t)
    (hfirst : ((s0.tick t).exOf x).expired = false) :
    exec (.waitPg t x) s0 = .next (
      let s := s0.tick t
      (s.named x (s.stepWord x)).foldl
        (fun s n => if s.railState n = 1 ∧ !(s.railOf n).timed then s.railFault n 0x0502 else s)
        (s.setEx x { s.exOf x with expired := true })) := by
  refine (if_neg (not_bnot_of_true hop)).trans ((if_neg (by rw [hshown]; decide)).trans ((if_neg (by rw [hlevel]; decide)).trans
    (if_pos ⟨hlimit, Nat.ble_eq.mpr hover, ?_⟩)))
  rw [hfirst]
  rfl

/-- SYNC_STEP with LSYNC by the number of its step: reached already, skipping one, or the next (R394 to R396). -/
theorem execSyncStep_lsync (hop : (s0.tick t).atOp x 6 = true) (hon : (s0.tick t).lsyncOn = true) :
    exec (.syncStep t x) s0 = (
      let s := s0.tick t
      let w := s.stepWord x
      let e := s.exOf x
      if bits w 7 0 ≤ s.nat (ky 0x2143 2) then .next (s.goNext x 0)
      else if s.nat (ky 0x2143 2) + 1 < bits w 7 0 then .next (s.endProgram x 0xF6)
      else if e.released = true ∨ s.lamp.qualT.isSome = true then .next s
      else
        let u := s.setEx x { e with released := true, due := e.stepT + usT (100 * (if bits w 23 8 = 0 then s.nat (ky 0x2143 3) else bits w 23 8)) }
        .next { u with lamp := { u.lamp with lsyncLow := false } }) :=
  (if_neg (not_bnot_of_true hop)).trans (if_neg (not_bnot_of_true hon))

end Steps

/-- Settles O31, instruction by instruction: each hypothesis is part of the guard of the branch that the step takes. -/
theorem programSteps : Obligations.ProgramSteps := by
  unfold Obligations.ProgramSteps
  refine ⟨?endStep, ?enable, ?locked, ?disable, ?wait, ?shown, ?expires, ?jump, ?alone, ?reached, ?skips, ?next⟩
  case endStep =>
    intro t s0 x s hop
    exact if_pos hop
  case enable =>
    intro t s0 x s hop hfree
    refine (execEnable_atOp hop).trans (if_neg fun h => ?_)
    rcases hfree with hsys | hfree
    · exact h.1 hsys
    · exact absurd (hfree.symm.trans h.2) (by decide)
  case locked =>
    intro t s0 x s hop hcas hlocked
    exact (execEnable_atOp hop).trans (if_pos ⟨hcas, hlocked⟩)
  case disable =>
    intro t s0 x s hop
    exact if_pos hop
  case wait =>
    intro t s0 x s hop hdue
    exact if_pos ⟨hop, hdue⟩
  case shown =>
    intro t s0 x s w hop hshown
    exact execWaitPg_shown hop hshown
  case expires =>
    intro t s0 x s w e l hop hshown hlevel hlimit hover hfirst
    exact execWaitPg_expires hop hshown hlevel hlimit hover hfirst
  case jump =>
    intro t s0 x s w hop
    exact if_neg (not_bnot_of_true hop)
  case alone =>
    intro t s0 x s hop halone
    exact (if_neg (not_bnot_of_true hop)).trans (if_pos (congrArg Bool.not halone))
  case reached =>
    intro t s0 x s n hop hon hreached
    exact (execSyncStep_lsync hop hon).trans (if_pos hreached)
  case skips =>
    intro t s0 x s n hop hon hskips
    exact (execSyncStep_lsync hop hon).trans ((if_neg (Nat.not_le.mpr (Nat.lt_of_succ_lt hskips))).trans (if_pos hskips))
  case next =>
    intro t s0 x s w e u hop hon hnext hrel hqual
    have hahead : ¬bits w 7 0 ≤ s.nat (ky 0x2143 2) := by omega
    have hstep : ¬s.nat (ky 0x2143 2) + 1 < bits w 7 0 := by omega
    refine (execSyncStep_lsync hop hon).trans ((if_neg hahead).trans ((if_neg hstep).trans (if_neg ?_)))
    rintro (h | h)
    · exact absurd (hrel.symm.trans h) (by decide)
    · exact absurd (hqual ▸ h) (by decide)

/-! # LSYNC, the button, starts and the program store (R388, R392 to R400) -/

theorem findRow_programStart :
    findRow 0x2142 1 = some (0x2142, 0, ⟨1, 1, .uns 1, 31, true, 0, .set [0, 1, 2, 6, 7, 8, 9, 10, 11, 12, 13, 14, 15], .imm⟩) := by decide

theorem findRow_storeCommit : findRow 0x2140 3 = some (0x2140, 0, ⟨3, 1, .uns 1, 19, true, 0, .set [1], .imm⟩) := by decide

section Writes
variable {s : State} {p : Path} (hp : s.serves p = true)
include hp

/-- A start write names one of the device's entry points (R388). -/
theorem State.dictNum_programStart (hmode : s.modeN ≤ 6) {v : Nat} (hv : v ≤ 2 ∨ 6 ≤ v ∧ v ≤ 15) (hcheck : s.startCheck v = none) :
    s.dictNum p 0x2142 1 v = (s.answer .ok).startAct v := by
  have hlt : v < 2 ^ (8 * 1) := by omega
  have hrange : rowRange ⟨1, 1, .uns 1, 31, true, 0, .set [0, 1, 2, 6, 7, 8, 9, 10, 11, 12, 13, 14, 15], .imm⟩ (.num v) = true := by
    simp [rowRange]
    omega
  exact State.dictNum_lineObject hp findRow_programStart rfl (modeTakes_notSafe (State.modeN_of_serves hp) hmode) hlt hrange
    (State.writeVal_command _ _ rfl rfl) rfl (fun _ => hcheck) fun _ => rfl

/-- A commit of the program store needs every executor idle (R392). -/
theorem State.dictNum_storeCommit (hmode : s.modeN = 2 ∨ s.modeN = 3 ∨ s.modeN = 6) (hidle : s.anyExec = false) :
    s.dictNum p 0x2140 3 1 = (s.answer .ok).lampCommit :=
  State.dictNum_lineObject hp findRow_storeCommit rfl (modeTakes_idle hmode) (by decide) (by decide)
    (State.writeVal_command _ _ rfl rfl) rfl (fun _ => busyIf_false hidle) fun _ => rfl

end Writes

section Button
variable {t : Time} {s0 : State}

/-- A short press starts the program of its action, where it has one and the system executor is idle (R397). -/
theorem execShort_pressed {p : Time} (hpress : (s0.tick t).lamp.pressT = some p) (hforced : (s0.tick t).lamp.forced = false)
    (hshort : t < p + secT (s0.tick t).lamp.longS) :
    exec (.short t) s0 = .next (
      let s := s0.tick t
      let u := { s with lamp := { s.lamp with pressT := none, forced := false } }.event 0xC4 0x0542 0
      if u.nat (ky 0x2144 3) ≠ 0xFF ∧ (!u.exBusy sysEx) = true then u.startProgram sysEx (u.nat (ky 0x2144 3)) else u) := by
  have hblt : Nat.blt t (p + secT (s0.tick t).lamp.longS) = true := Nat.blt_eq.mpr hshort
  change execShort t s0 = _
  simp only [execShort, hpress, hforced, hblt, Bool.not_false, Bool.and_self, Bool.not_true, Bool.false_eq_true, if_false]

/-- A long press forces all rails off, and a shutdown that runs has ended with that (R397). -/
theorem execForceOff_pressed {p : Time} (hpress : (s0.tick t).lamp.pressT = some p) (hforced : (s0.tick t).lamp.forced = false)
    (hlong : p + secT (s0.tick t).lamp.longS ≤ t) :
    exec (.forceOff t) s0 = .next (
      let s := s0.tick t
      let u := ((List.range 49).foldl State.abandon { s with lamp := { s.lamp with forced := true, locked := true, upOk := false } }).allOff
      let w := (u.event 0xC4 0x0543 0).fault 43 1 0 0
      if s.exBusy sysEx = true ∧ (s.exOf sysEx).entry = 2 ∧ w.exBusy sysEx = false then w.shutdownEnded else w) := by
  have hguard : ¬((s0.tick t).lamp.forced = true ∨ t < p + secT (s0.tick t).lamp.longS) := by
    rw [hforced]
    exact not_or.mpr ⟨by decide, Nat.not_lt.mpr hlong⟩
  change execForceOff t s0 = _
  rw [execForceOff]
  simp only [hpress, if_neg hguard, Bool.and_eq_true, decide_eq_true_eq, Bool.not_eq_true', and_assoc]
  rfl

end Button

/-- Settles O32, command by command: each hypothesis is one check that the write passes, or the guard of its event. -/
theorem lampCommands : Obligations.LampCommands := by
  unfold Obligations.LampCommands
  refine ⟨?qualify, ?redrive, ?syncTimeout, ?contention, ?limit, ?shutdownLimit, ?pressed, ?short, ?forceOff, ?manualReset, ?start, ?commit⟩
  case qualify =>
    intro t s0 x s u hsync
    change execLsyncQualify t s0 = _
    simp only [execLsyncQualify, s, hsync]
    rfl
  case redrive =>
    intro t s0 q s hqual hdue
    change execLsyncRedrive t s0 = _
    simp only [execLsyncRedrive, s, hqual, if_pos hdue]
  case syncTimeout =>
    intro t s0 x s e hbusy hrel hdue
    exact if_pos ⟨hbusy, hrel, hdue⟩
  case contention =>
    intro t s0 s hon hlow hmode
    exact if_pos ⟨hon, hlow, hmode⟩
  case limit =>
    intro t s0 x s e hbusy hentry hover
    exact if_pos ⟨hbusy, hentry, hover⟩
  case shutdownLimit =>
    intro t s0 s e hbusy hentry hover
    exact if_pos ⟨hbusy, hentry, hover⟩
  case pressed =>
    intro t s0 s hmode
    exact if_neg hmode
  case short =>
    intro t s0 p s u e hpress hforced hshort
    exact execShort_pressed hpress hforced hshort
  case forceOff =>
    intro t s0 p s u w hpress hforced hlong
    exact execForceOff_pressed hpress hforced hlong
  case manualReset =>
    intro t s0 s hmode hmr
    exact if_neg (not_or.mpr ⟨hmode, by rw [hmr]; decide⟩)
  case start =>
    intro t s0 p v s hp hmode hv hcheck
    exact congrArg Host.Outcome.next (State.dictNum_programStart hp hmode hv hcheck)
  case commit =>
    intro t s0 p s hp hmode hidle
    exact congrArg Host.Outcome.next (State.dictNum_storeCommit hp hmode hidle)

/-! # Loop engine commands (R277, R278, R286 to R288, R291) -/

theorem findRow_loopApply (n : Fin 64) :
    findRow (0x4A00 + 8 * n + 1) 0x0B = some (0x4A01, n.val, ⟨0x0B, 1, .uns 1, 31, true, 0, .set [1], .imm⟩) := by
  revert n
  decide +kernel

theorem findRow_loopOverrun : findRow 0x2030 6 = some (0x2030, 0, ⟨6, 1, .bool, 31, false, 0, .set [0], .imm⟩) := by decide

section Writes
variable {s : State} {p : Path} (hp : s.serves p = true) (hmode : s.modeN ≤ 6)
include hp hmode

/-- The staged coefficients of a slot are applied (R286). -/
theorem State.dictNum_loopApply (n : Fin 64) : s.dictNum p (0x4A00 + 8 * n + 1) 0x0B 1 = (s.answer .ok).loopApply n := by
  have hput := State.writeVal_command (s := s) (r := ⟨0x0B, 1, .uns 1, 31, true, 0, .set [1], .imm⟩)
    (ky (0x4A00 + 8 * n + 1) 0x0B) (.num (1 : Nat)) rfl rfl
  have hrel : s.relAxis n 0x4A010B 1 1 = none := if_neg fun h => Bool.false_ne_true h.2
  obtain ⟨b, hwrite⟩ := State.dictNum_accepted (n := 1) hp (by decide) (findRow_loopApply n) rfl
    (modeTakes_notSafe (State.modeN_of_serves hp) hmode) (by decide) (by decide) fun b => by
      rw [hput]
      exact (State.relCheck_axis b (.inl (by decide))).trans hrel
  rw [hwrite, hput]
  exact State.act_axis b (.inl (by decide)) rfl

theorem State.dictNum_loopOverrun : s.dictNum p 0x2030 6 0 = (s.setn (ky 0x2030 6) 0).answer .ok :=
  State.dictNum_boolObject hp findRow_loopOverrun rfl (modeTakes_notSafe (State.modeN_of_serves hp) hmode) (by decide) (by decide)
    (State.writeVal_held _ rfl (by decide) rfl) rfl (fun _ => rfl) fun _ => rfl

end Writes

/-- A tick starts at every 20,000 ns, each once (R277). -/
theorem State.loopDue_iff {s : State} {t : Time} :
    s.loopDue t = true ↔ t % nsT 20000 = 0 ∧ ∀ l, s.clk.loopT = some l → l < t := by
  simp [State.loopDue, Option.all_eq_true]

/-- Settles O23: the tick is the body of its definition, and the slots that ran, the use and the first miss are what its pass leaves. -/
theorem loopCommands : Obligations.LoopCommands := by
  unfold Obligations.LoopCommands
  refine ⟨?apply, ?overrun, ?tick, ?plan⟩
  case apply =>
    intro t s0 p n s hp hmode
    exact congrArg Host.Outcome.next (State.dictNum_loopApply hp hmode n)
  case overrun =>
    intro t s0 p s hp hmode
    exact congrArg Host.Outcome.next (State.dictNum_loopOverrun hp hmode)
  case tick =>
    intro t s0 s w0 N w due r u v hmode hdue honce
    have hstart : s.loopDue t = true := State.loopDue_iff.mpr ⟨hdue, honce⟩
    refine if_neg (not_or.mpr ⟨Nat.not_lt.mpr hmode, ?_⟩)
    rw [show (s0.tick t).loopDue t = true from hstart]
    decide
  case plan =>
    intro t s0 s hmode
    exact if_neg hmode.not_ge

/-! # Register, window and dictionary accesses (R293, R294, R301, R327, R330, R331, R355) -/

section Registers
variable {t : Time} {s0 : State} (hmode : (s0.tick t).modeN ≠ 0)
include hmode

/-- An aligned write acts on the low word, and a wide one on the word above it too (R293). -/
theorem execRegisterWrite_aligned {off : Nat} {wide : Bool} {v : BitVec 64} (halign : off % (if wide then 8 else 4) = 0) :
    exec (.registerWrite t off wide v) s0 = .next (
      let u := ((s0.tick t).answer .ok).regWord off (v.toNat % 2 ^ 32)
      if wide then u.regWord (off + 4) (v.toNat / 2 ^ 32) else u) :=
  (if_neg hmode).trans (if_neg (not_not.mpr halign))

/-- An access inside the window and installed DRAM (R294). -/
theorem execBar2Access_inside {off len : Nat} {w : Option Bytes} {bad : Bool} {n : Nat} (hn : n = (w.map List.length).getD len)
    (hwindow : off + n ≤ 268435456) (hdram : (s0.tick t).inDram ((s0.tick t).host.bar2 * 1048576 + off) n = true) :
    exec (.bar2Access t off w len bad) s0 = (
      let s := s0.tick t
      let a := s.host.bar2 * 1048576 + off
      match w with
      | some b => .next ((s.dramWrite a b).answer .ok)
      | none =>
        if bad then .next ((s.fault 16 1 3 (a / 1048576)).answer (.poisoned (s.dramRead a n)))
        else .next (s.answer (.data (s.dramRead a n)))) := by
  have hin : ¬(268435456 < off + n ∨ (!(s0.tick t).inDram ((s0.tick t).host.bar2 * 1048576 + off) n) = true) := by
    rw [hdram]
    exact not_or.mpr ⟨Nat.not_lt.mpr hwindow, by decide⟩
  subst hn
  cases w with
  | some b => exact (if_neg hmode).trans (if_neg hin)
  | none => exact (if_neg hmode).trans (if_neg hin)

end Registers

/-! ## DRAM through object 0x2070 -/

theorem findRow_dramData : findRow 0x2070 2 = some (0x2070, 0, ⟨2, 1, .ostr 1 1024, 31, false, 0, .any, .imm⟩) := by decide

section Writes
variable {s : State} {p : Path} (hp : s.serves p = true)
include hp

/-- Bytes written to the data object go to DRAM from the address of 0x2070:01 on (R355). -/
theorem State.dictWrite_dramData {b : Bytes} (hmode : s.modeN ≤ 6) (hlow : 1 ≤ b.length) (hhigh : b.length ≤ 1024)
    (hdram : s.dramAccess b.length = true) :
    s.dictWrite p 0x2070 2 b = (s.answer .ok).dramWrite (s.nat (ky 0x2070 1)) b := by
  have hdec : decodeVal (.ostr 1 1024) b = some (.str b) := by simp [decodeVal, hhigh]
  have hrange : rowRange ⟨2, 1, .ostr 1 1024, 31, false, 0, .any, .imm⟩ (.str b) = true := by simpa [rowRange] using hlow
  have hparse : s.writeParse 0x2070 2 b = .ok (0x2070, 0, ⟨2, 1, .ostr 1 1024, 31, false, 0, .any, .imm⟩, .str b) := by
    rw [State.writeParse_decoded findRow_dramData (modeTakes_notSafe (State.modeN_of_serves hp) hmode) hdec, hrange]
    simp
  have hput : s.writeVal (ky 0x2070 2) ⟨2, 1, .ostr 1 1024, 31, false, 0, .any, .imm⟩ (.str b) = s :=
    State.writeVal_notHeld _ _ (by decide)
  have hrel : s.relCheck 0x2070 0 2 (.str b) b = none :=
    State.relCheck_line b (by decide) (by decide) (by decide) rfl (badIf_false (by rw [hdram]; rfl))
  rw [State.dictWrite_accepted hp hparse (by rw [hput]; exact hrel), hput,
    State.act_line b (by decide) (by decide) (by decide) (by decide)]
  rfl

theorem State.dictReadOn_dramData (hdram : s.dramAccess (s.nat (ky 0x2070 3)) = true) :
    s.dictReadOn p 0x2070 2 false = s.answer (.data (s.dramRead (s.nat (ky 0x2070 1)) (s.nat (ky 0x2070 3)))) := by
  have hside : s.readSide 0x2070 2 = s := by
    unfold State.readSide
    rw [findRow_dramData]
    rfl
  rw [State.dictReadOn_served hp (State.dictRead_row findRow_dramData fun _ _ => hdram), hside]
  rfl

end Writes

/-! ## Doorbells over the dictionary -/

theorem findRow_bellQueue : findRow 0x2504 1 = some (0x2504, 0, ⟨1, 1, .uns 2, 31, false, 16, .rng 16 16383, .sub⟩) := by decide

theorem findRow_bellValue : findRow 0x2504 2 = some (0x2504, 0, ⟨2, 1, .uns 4, 31, false, 0, .any, .sub⟩) := by decide

theorem findRow_bellRing : findRow 0x2504 3 = some (0x2504, 0, ⟨3, 1, .uns 1, 31, true, 0, .set [1], .imm⟩) := by decide

/-- A parameter of an execute object is put into its object. -/
theorem State.writeVal_parameter {s : State} {k : Nat} {r : Row} (v : Val) (hte : r.te = .sub) (hheld : notHeld k = false) :
    s.writeVal k r v = s.setv k v := by
  have hwo : (r.wo && r.te != .sub) = false := by
    rw [hte]
    exact Bool.and_false _
  rw [State.writeVal, hwo, hheld, hte]
  rfl

/-- No object but the mode's has a say in which paths serve the dictionary. -/
theorem State.serves_setn {s : State} {k : Nat} (v : Int) (p : Path) (hk : ky 0x2100 2 ≠ k) : (s.setn k v).serves p = s.serves p := by
  have hserved (i : Nat) : (s.setn k v).usdoServed i = s.usdoServed i := by
    unfold State.usdoServed State.canOn
    rw [State.modeN_setn_ne v hk]
    rfl
  unfold State.serves
  rw [State.modeN_setn_ne v hk]
  cases p with
  | usdo i => exact congrArg (_ && ·) (hserved i)
  | _ => rfl

/-- An answered write is followed by the next one. -/
theorem State.dictSeq_answered {s u : State} {p : Path} {idx sub n : Nat} {r : List (Nat × Nat × Nat)} (hwrite : s.dictNum p idx sub n = u)
    (hok : u.resp = .ok) : s.dictSeq p ((idx, sub, n) :: r) = u.dictSeq p r := by
  subst hwrite
  rw [State.dictSeq, hok]

theorem State.dictSeq_last (s : State) (p : Path) (idx sub n : Nat) : s.dictSeq p [(idx, sub, n)] = s.dictNum p idx sub n := by
  unfold State.dictSeq
  dsimp only
  split <;> rfl

section Bell
variable {s : State} {p : Path} (hp : s.serves p = true) (hmode : s.modeN ≤ 6)
include hp hmode

theorem State.dictNum_bellQueue {q : Nat} (hlow : 16 ≤ q) (hhigh : q < 16384) :
    s.dictNum p 0x2504 1 q = (s.setn (ky 0x2504 1) q).answer .ok :=
  State.dictNum_lineObject hp findRow_bellQueue rfl (modeTakes_notSafe (State.modeN_of_serves hp) hmode) (by omega)
    (rowRange_between rfl rfl (by omega) (by omega)) (State.writeVal_parameter _ rfl (by decide)) rfl (fun _ => rfl) fun _ => rfl

theorem State.dictNum_bellValue (v : BitVec 32) : s.dictNum p 0x2504 2 v.toNat = (s.setn (ky 0x2504 2) v.toNat).answer .ok :=
  State.dictNum_lineObject hp findRow_bellValue rfl (modeTakes_notSafe (State.modeN_of_serves hp) hmode) v.isLt
    (rowRange_any rfl rfl v.isLt) (State.writeVal_parameter _ rfl (by decide)) rfl (fun _ => rfl) fun _ => rfl

theorem State.dictNum_bellRing (hcheck : s.doorbellCheck (s.nat (ky 0x2504 1)) (s.nat (ky 0x2504 2)) = none) :
    s.dictNum p 0x2504 3 1 = (s.answer .ok).doorbell (s.nat (ky 0x2504 1)) (s.nat (ky 0x2504 2)) :=
  State.dictNum_lineObject hp findRow_bellRing rfl (modeTakes_notSafe (State.modeN_of_serves hp) hmode) (by decide) (by decide)
    (State.writeVal_command _ _ rfl rfl) rfl (fun _ => hcheck) fun _ => rfl

/-- The three writes of a doorbell over the dictionary (R327). -/
theorem State.dictSeq_doorbell {q : Nat} {v : BitVec 32} (hlow : 16 ≤ q) (hhigh : q < 16384)
    (hcheck : s.doorbellCheck q v.toNat = none) :
    s.dictSeq p [(0x2504, 1, q), (0x2504, 2, v.toNat), (0x2504, 3, 1)] =
      (((s.setn (ky 0x2504 1) q).setn (ky 0x2504 2) v.toNat).answer .ok).doorbell q v.toNat := by
  let s1 := (s.setn (ky 0x2504 1) q).answer .ok
  let s2 := (s1.setn (ky 0x2504 2) v.toNat).answer .ok
  have hp1 : s1.serves p = true := (State.serves_setn (s := s) (k := ky 0x2504 1) q p (by decide)).trans hp
  have hm1 : s1.modeN ≤ 6 := (State.modeN_setn_ne (s := s) (k := ky 0x2504 1) q (by decide)).trans_le hmode
  have hp2 : s2.serves p = true := (State.serves_setn (s := s1) (k := ky 0x2504 2) v.toNat p (by decide)).trans hp1
  have hm2 : s2.modeN ≤ 6 := (State.modeN_setn_ne (s := s1) (k := ky 0x2504 2) v.toNat (by decide)).trans_le hm1
  have hq : s2.nat (ky 0x2504 1) = q :=
    (State.nat_setn_ne s1 _ (by decide)).trans (State.nat_setn_self s _ _)
  have hv : s2.nat (ky 0x2504 2) = v.toNat := State.nat_setn_self s1 _ _
  have h1 : s.dictNum p 0x2504 1 q = s1 := State.dictNum_bellQueue hp hmode hlow hhigh
  have h2 : s1.dictNum p 0x2504 2 v.toNat = s2 := State.dictNum_bellValue hp1 hm1 v
  have h3 : s2.dictNum p 0x2504 3 1 = (s2.answer .ok).doorbell q v.toNat := by
    have := State.dictNum_bellRing hp2 hm2 (by rw [hq, hv]; exact hcheck)
    rwa [hq, hv] at this
  rw [State.dictSeq_answered h1 rfl, State.dictSeq_answered h2 rfl, State.dictSeq_last, h3]
  rfl

end Bell

/-- A doorbell that its check accepts is one of a user queue. -/
theorem State.queue_of_doorbellCheck {s : State} {q v : Nat} (hcheck : s.doorbellCheck q v = none) : 16 ≤ q := by
  unfold State.doorbellCheck queueRef at hcheck
  by_contra hlow
  rw [if_pos (Nat.lt_of_not_le hlow)] at hcheck
  exact nomatch hcheck

/-- A doorbell register's word over BAR0 (R301). -/
theorem State.regWord_doorbell {s : State} {q v : Nat} (hmode : 1 < s.modeN) (hq : q < 16384) (hcheck : s.doorbellCheck q v = none) :
    s.regWord (0x200000 + 16 * q) v = s.doorbell q v := by
  have hword : s.wordHigh (0x200000 + 16 * q) v = .ok (s.doorbell q v) := by
    have hindex : (0x200000 + 16 * q - 0x200000) / 16 = q := by omega
    unfold State.wordHigh
    rw [if_neg (by omega), if_pos (by omega)]
    dsimp only
    rw [if_pos (by omega), hindex, hcheck]
    rfl
  unfold State.regWord
  rw [if_neg (by omega), if_neg (by omega), hword]

theorem execDoorbellWrite_served {t : Time} {s0 : State} {p : Path} {q : Nat} {v : BitVec 32} (hp : (s0.tick t).serves p = true)
    (hmode : (s0.tick t).modeN ≤ 6) (hq : q < 16384) (hcheck : (s0.tick t).doorbellCheck q v.toNat = none) :
    exec (.doorbellWrite t p q v) s0 =
      .next (((((s0.tick t).setn (ky 0x2504 1) q).setn (ky 0x2504 2) v.toNat).answer .ok).doorbell q v.toNat) := by
  rw [← State.dictSeq_doorbell hp hmode (State.queue_of_doorbellCheck hcheck) hq hcheck]
  cases p with
  | bar0 => exact absurd rfl (State.ne_bar0_of_serves hp)
  | _ => rfl

/-- Settles O24, access by access: each hypothesis is one check that the access passes. -/
theorem accessCommands : Obligations.AccessCommands := by
  unfold Obligations.AccessCommands
  refine ⟨?word, ?wide, ?window, ?windowRead, ?poisoned, ?dictionary, ?dram, ?dramRead, ?bell, ?bellDictionary⟩
  case word =>
    intro t s0 off v s hmode halign
    exact execRegisterWrite_aligned hmode halign
  case wide =>
    intro t s0 off v s hmode halign
    exact execRegisterWrite_aligned hmode halign
  case window =>
    intro t s0 off len b bad s a hmode hwindow hdram
    exact execBar2Access_inside hmode rfl hwindow hdram
  case windowRead =>
    intro t s0 off len s a hmode hwindow hdram
    exact execBar2Access_inside hmode rfl hwindow hdram
  case poisoned =>
    intro t s0 off len s a hmode hwindow hdram
    exact execBar2Access_inside hmode rfl hwindow hdram
  case dictionary =>
    intro t s0 p idx sub b base i row v s u hp hparse hrel
    exact congrArg Host.Outcome.next (State.dictWrite_accepted hp hparse hrel)
  case dram =>
    intro t s0 p b s hp hmode hlow hhigh hdram
    exact congrArg Host.Outcome.next (State.dictWrite_dramData hp hmode hlow hhigh hdram)
  case dramRead =>
    intro t s0 p s hp hdram
    exact congrArg Host.Outcome.next (State.dictReadOn_dramData hp hdram)
  case bell =>
    intro t s0 q v s hmode hq hcheck
    refine (if_neg (not_or.mpr ⟨hmode.not_ge, Nat.not_le.mpr hq⟩)).trans (congrArg Host.Outcome.next ?_)
    exact State.regWord_doorbell (s := s.answer .ok) hmode hq hcheck
  case bellDictionary =>
    intro t s0 p q v s hp hmode hq hcheck
    exact execDoorbellWrite_served hp hmode hq hcheck

/-! # What a DRAM write through the dictionary stores (R355) -/

theorem State.dramRead_one (s : State) (a : Nat) : s.dramRead a 1 = [tget zeroCell s.mem.dram a] := rfl

/-- Settles O52: the write of the data object is a write of DRAM, which leaves everything else. -/
theorem dramWindowFrame : Obligations.DramWindowFrame := by
  unfold Obligations.DramWindowFrame
  intro t s0 p b s hp hmode hlow hhigh hdram
  refine ⟨(s.answer .ok).dramWrite (s.nat (ky 0x2070 1)) b,
    congrArg Host.Outcome.next (State.dictWrite_dramData hp hmode hlow hhigh hdram), fun x => ?_, fun x => ⟨rfl, rfl⟩,
    rfl, rfl, rfl, rfl, rfl, rfl, rfl⟩
  rw [State.dramRead_one, State.dram_dramWrite]
  split_ifs
  · rfl
  · rfl

/-! # Queue, Porter, writer and mailbox commands (R298 to R316) -/

theorem queueRef_user {q : Nat} (hlow : 16 ≤ q) (hhigh : q < 16384) : queueRef q = none :=
  (if_neg (Nat.not_lt.mpr hlow)).trans (if_neg (Nat.not_le.mpr hhigh))

section Events
variable {t : Time} {s0 : State} {q : Nat}

/-! ## Enabling and disabling (R299, R300) -/

theorem execQueueEnable_user (hmode : 1 < (s0.tick t).modeN) (hlow : 16 ≤ q) (hhigh : q < 16384)
    (hoff : ((s0.tick t).qOf q).enabled = false) : exec (.queueEnable t q) s0 = .next (((s0.tick t).queueEnable q).answer .ok) := by
  refine (if_neg (not_or.mpr ⟨hmode.not_ge, Nat.not_le.mpr hhigh⟩)).trans ?_
  rw [queueRef_user hlow hhigh]
  dsimp only
  rw [hoff]
  rfl

theorem execQueueDisable_user (hmode : 1 < (s0.tick t).modeN) (hlow : 16 ≤ q) (hhigh : q < 16384) :
    exec (.queueDisable t q) s0 = .next (((s0.tick t).queueDisable q).answer .ok) := by
  refine (if_neg (not_or.mpr ⟨hmode.not_ge, Nat.not_le.mpr hhigh⟩)).trans ?_
  rw [queueRef_user hlow hhigh]

/-! ## The Porter (R308, R309) -/

/-- A grant goes to the queue that the order picks (R309). -/
theorem execPorterGrant_picks {ok : Bool} {k : Nat} {fresh : Bool} (hmode : 1 < (s0.tick t).porterScan.modeN)
    (hflight : (s0.tick t).porterScan.inFlight < 32) (hspaced : (s0.tick t).porterScan.host.grantT ≤ t)
    (hpick : (s0.tick t).porterScan.porterPick = some (q, k, fresh)) :
    exec (.porterGrant t ok) s0 = .next (
      let w := (s0.tick t).porterScan
      let n := if fresh then 1 else (w.host.grants[k]?).getD 0 + 1
      let u := { w with host := { w.host with pointer := w.host.pointer.set k q, grants := w.host.grants.set k n, grantT := t + clocks480 8 } }
      let x := u.qOf q
      (((u.setQ q { x with eff := x.cls, agedAt := none }).bump (ky 0x2502 1)).fetched q ok).porterScan) := by
  have hguard : ¬((s0.tick t).porterScan.modeN ≤ 1 ∨ 32 ≤ (s0.tick t).porterScan.inFlight ∨ t < (s0.tick t).porterScan.host.grantT) :=
    not_or.mpr ⟨hmode.not_ge, not_or.mpr ⟨Nat.not_le.mpr hflight, Nat.not_lt.mpr hspaced⟩⟩
  change execPorterGrant t ok s0 = _
  rw [execPorterGrant]
  simp only [if_neg hguard, hpick]

/-- Aging promotes a queue by one class (R309). -/
theorem execAgingPromotion_due {a : Time} (haged : ((s0.tick t).porterScan.qOf q).agedAt = some a)
    (heff : 0 < ((s0.tick t).porterScan.qOf q).eff)
    (hdue : a + usT ((s0.tick t).porterScan.nat (ky 0x2502 (((s0.tick t).porterScan.qOf q).eff + 1))) ≤ t) :
    exec (.agingPromotion t q) s0 = .next (
      let w := (s0.tick t).porterScan
      let x := w.qOf q
      w.setQ q { x with eff := x.eff - 1, agedAt := some t }) := by
  change execAgingPromotion t q s0 = _
  rw [execAgingPromotion]
  simp only [haged, if_pos (And.intro heff hdue)]

/-! ## Acceptance (R304 to R306) -/

/-- The request that an entry of a mark-request queue makes (R304). -/
def State.requestOf (s : State) (q : Nat) (b : Bytes) (ovr : Option (Nat × Bytes)) (t : Time) : ReqEntry :=
  { queue := q, index := (s.qOf q).cons, template := if bit (byteAt b 1) 4 then some (fieldLE b 4 2) else none, tag := fieldLE b 8 4,
    cookie := fieldLE b 0x0C 4, anchor := wrapS 64 (fieldLE b 0x10 8), ovr := ovr, t := t }

/-- The entry at the front of queue `q` is counted and freed. -/
def State.countEntry (s : State) (q : Nat) : State :=
  (s.setQ q { s.qOf q with count := ((s.qOf q).count + 1) % 2 ^ 32 }).popEntry q

/-- An accepted mark request frees its entry; in trigger source 2 it makes its anchor, and else it waits for its product. -/
theorem execMarkRequestAccept_accepted {ok : Bool} {b : Bytes} {r : List Bytes} {n : Nat} {ovr : Option (Nat × Bytes)}
    (hgot : ((s0.tick t).qOf q).got = b :: r) (hcas : (s0.tick t).requestCas q = some n) (htyp : ((s0.tick t).qOf q).typ = 1)
    (hfree : (s0.tick t).blocked q = false) (hovr : (s0.tick t).override b ok = some ovr) :
    exec (.markRequestAccept t q ok) s0 = .next (
      let e := (s0.tick t).requestOf q b ovr t
      let u := (s0.tick t).countEntry q
      (if u.nat (oCas n 0 1) = 2 then (u.anchorsFirst n t).leadAnchor n (.request q ((s0.tick t).qOf q).cons) e.anchor t (some e)
        else (u.setCasement n { u.casOf n with reqs := (u.casOf n).reqs ++ [e] }).pair n).blockEvent q) := by
  change execMarkRequestAccept t q ok s0 = _
  rw [execMarkRequestAccept]
  simp only [hgot, hcas, htyp, hfree, hovr, ne_eq, not_true_eq_false, Bool.false_eq_true, or_self, if_false, State.requestOf, State.countEntry]

/-- An accepted record joins its queue's pool, and is a change for the marks decided from now on (R306). -/
theorem execRecordAccept_joins {ok : Bool} {b : Bytes} {r : List Bytes} (hgot : ((s0.tick t).qOf q).got = b :: r)
    (htyp : ((s0.tick t).qOf q).typ = 2) (hfree : (s0.tick t).blocked q = false)
    (hreads : bit (byteAt b 1) 0 = true → ok = true ∧ (bit (byteAt b 1) 1 = true → (s0.tick t).inDram (fieldLE b 0x10 8) (byteAt b 2) = true)) :
    exec (.recordAccept t q ok) s0 = .next (
      let s := s0.tick t
      let x := s.qOf q
      let d := if bit (byteAt b 1) 0 then s.memRead (bit (byteAt b 1) 1) (fieldLE b 0x10 8) (byteAt b 2) else sliceB b 0x10 (byteAt b 2)
      let u := s.setQ q { x with count := (x.count + 1) % 2 ^ 32, pool := x.pool ++ [(d, fieldLE b 8 8, t)] }
      let v := { u with comp := { u.comp with changes := u.comp.changes ++ [(t, Change.record q)] } }
      (v.popEntry q).blockEvent q) := by
  have hreadable : ¬(bit (byteAt b 1) 0 = true ∧
      ((!ok) = true ∨ bit (byteAt b 1) 1 = true ∧ (!(s0.tick t).inDram (fieldLE b 0x10 8) (byteAt b 2)) = true)) := by
    rintro ⟨href, h⟩
    obtain ⟨hok, hdram⟩ := hreads href
    rcases h with h | ⟨hspace, h⟩
    · exact absurd h (by rw [hok]; decide)
    · exact absurd h (by rw [hdram hspace]; decide)
  change execRecordAccept t q ok s0 = _
  rw [execRecordAccept]
  simp only [hgot, htyp, hfree, ne_eq, not_true_eq_false, Bool.false_eq_true, or_self, if_false, if_neg hreadable]

/-- A record whose data cannot be read is malformed (R303, R306). -/
theorem execRecordAccept_malformed {ok : Bool} {b : Bytes} {r : List Bytes} (hgot : ((s0.tick t).qOf q).got = b :: r)
    (htyp : ((s0.tick t).qOf q).typ = 2) (hfree : (s0.tick t).blocked q = false) (href : bit (byteAt b 1) 0 = true)
    (hbad : ok = false ∨ bit (byteAt b 1) 1 = true ∧ (s0.tick t).inDram (fieldLE b 0x10 8) (byteAt b 2) = false) :
    exec (.recordAccept t q ok) s0 = .next (((s0.tick t).malformed q ((s0.tick t).qOf q).cons 0x10).popEntry q) := by
  have hunreadable : bit (byteAt b 1) 0 = true ∧
      ((!ok) = true ∨ bit (byteAt b 1) 1 = true ∧ (!(s0.tick t).inDram (fieldLE b 0x10 8) (byteAt b 2)) = true) :=
    ⟨href, by simpa only [Bool.not_eq_true'] using hbad⟩
  change execRecordAccept t q ok s0 = _
  rw [execRecordAccept]
  simp only [hgot, htyp, hfree, ne_eq, not_true_eq_false, Bool.false_eq_true, or_self, if_false, if_pos hunreadable]

/-! ## The writers (R302, R311 to R315) -/

/-- The entries of queue `q` that one drain moves, and what it leaves in the buffer (R312). -/
def State.drained (s : State) (q : Nat) : List Bytes × List Compl :=
  let x := s.qOf q
  takeEntries q (min 8 (min (2 ^ x.z - x.level) (2 ^ x.z - x.prod % 2 ^ x.z))) s.host.buffer

/-- Completions are moved to their queue (R312). -/
theorem execCompletionDrain_moves (hon : ((s0.tick t).qOf q).enabled = true) (htyp : ((s0.tick t).qOf q).typ = 3)
    (hroom : ((s0.tick t).qOf q).atEnd = false) (hspaced : (s0.tick t).host.drainT ≤ t) (hsome : ((s0.tick t).drained q).1 ≠ []) :
    exec (.completionDrain t q) s0 = .next (
      let s := s0.tick t
      let k := s.drained q
      let u := { s with host := { s.host with buffer := k.2, drainT := t + usT k.1.length / 64 } }
      (u.setn (ky 0x2501 1) (u.occupancy : Nat)).produce q k.1) := by
  refine (if_neg ?_).trans (if_neg hsome)
  rw [hon, htyp, hroom]
  simp only [Bool.not_true, Bool.false_eq_true, ne_eq, not_true_eq_false, false_or]
  exact Nat.not_lt.mpr hspaced

/-- A pending event whose queue takes it is written there (R314). -/
theorem execEventWrite_writes {e : Nat} {r : EvRec}
    (hfind : let w := (s0.tick t).holdEvents ((s0.tick t).host.events.map Prod.fst)
      w.host.events.find? (fun p => w.routeOf p.1 != 0 && !w.eventHeld p.1) = some (e, r))
    (hspaced : ((s0.tick t).holdEvents ((s0.tick t).host.events.map Prod.fst)).host.eventT ≤ t) :
    exec (.eventWrite t) s0 = .next (
      let w := (s0.tick t).holdEvents ((s0.tick t).host.events.map Prod.fst)
      let u := ({ w with host := { w.host with events := tdel w.host.events e, eventT := t + clocks480 1 } }).produce (w.routeOf e)
        [eventEntry e r]
      let k := tget (fun _ => 0) u.host.routes e
      if bit k 24 = true then u.msix (bits k 23 16) else u) := by
  change execEventWrite t s0 = _
  rw [execEventWrite]
  simp only at hfind
  simp only [hfind, if_neg (Nat.not_lt.mpr hspaced)]

/-! ## Dictionary requests (R307) -/

/-- The mailbox's request is answered in the mailbox. -/
theorem execDictionaryRequest_mailbox {r : DReq} {l : List DReq} (hmode : 1 < (s0.tick t).modeN) (hserves : (s0.tick t).deaf = false)
    (hreqs : (s0.tick t).host.reqs = r :: l) (hqueue : r.queue = none) :
    exec (.dictionaryRequest t) s0 = .next (
      let w := { s0.tick t with host := { (s0.tick t).host with reqs := l } }.serveEntry .mailbox r.entry
      { w.2 with host := { w.2.host with mbox := w.1, mboxBusy := false } }) := by
  change execDictionaryRequest t s0 = _
  rw [execDictionaryRequest]
  simp only [hserves, hreqs, hqueue, hmode.not_ge, Bool.false_eq_true, or_self, if_false]

/-- A queue's request is answered in its slot. -/
theorem execDictionaryRequest_queue {r : DReq} {l : List DReq} (hmode : 1 < (s0.tick t).modeN) (hserves : (s0.tick t).deaf = false)
    (hreqs : (s0.tick t).host.reqs = r :: l) (hqueue : r.queue = some q) :
    exec (.dictionaryRequest t) s0 = .next (
      let w := { s0.tick t with host := { (s0.tick t).host with reqs := l } }.serveEntry (.queue q) r.entry
      let x := w.2.qOf q
      let v := w.2.memWrite x.dram (x.slot r.index) w.1
      ((v.setQ q { x with count := (x.count + 1) % 2 ^ 32 }).popEntry q).queueIrq q 1) := by
  change execDictionaryRequest t s0 = _
  rw [execDictionaryRequest]
  simp only [hserves, hreqs, hqueue, hmode.not_ge, Bool.false_eq_true, or_self, if_false]

end Events

/-- Settles O25, command by command: each hypothesis is part of the guard of the branch that the command takes. -/
theorem queueCommands : Obligations.QueueCommands := by
  unfold Obligations.QueueCommands
  refine ⟨?enable, ?disable, ?moderation, ?grant, ?aging, ?request, ?anchor, ?record, ?malformed, ?drain, ?event, ?submit, ?mailbox, ?queue⟩
  case enable =>
    intro t s0 q s hmode hlow hhigh hoff
    exact execQueueEnable_user hmode hlow hhigh hoff
  case disable =>
    intro t s0 q s hmode hlow hhigh
    exact execQueueDisable_user hmode hlow hhigh
  case moderation =>
    intro t s0 q s x hon hsome hdue
    exact if_pos ⟨hon, hsome, hdue⟩
  case grant =>
    intro t s0 ok q k fresh s w n u x hmode hflight hspaced hpick
    exact execPorterGrant_picks hmode hflight hspaced hpick
  case aging =>
    intro t s0 q a s w x haged heff hdue
    exact execAgingPromotion_due haged heff hdue
  case request =>
    intro t s0 q ok b r n ovr s x e u y hgot hcas htyp hfree hovr hsource
    exact (execMarkRequestAccept_accepted hgot hcas htyp hfree hovr).trans
      (congrArg (fun v => Host.Outcome.next (State.blockEvent v q)) (if_neg hsource))
  case anchor =>
    intro t s0 q ok b r n ovr s x e u hgot hcas htyp hfree hovr hsource
    exact (execMarkRequestAccept_accepted hgot hcas htyp hfree hovr).trans
      (congrArg (fun v => Host.Outcome.next (State.blockEvent v q)) (if_pos hsource))
  case record =>
    intro t s0 q ok b r s x a n d u v hgot htyp hfree hreads
    exact execRecordAccept_joins hgot htyp hfree hreads
  case malformed =>
    intro t s0 q ok b r s x hgot htyp hfree href hbad
    exact execRecordAccept_malformed hgot htyp hfree href hbad
  case drain =>
    intro t s0 q s x k u hon htyp hroom hspaced hsome
    exact execCompletionDrain_moves hon htyp hroom hspaced hsome
  case event =>
    intro t s0 e r s w q u k hfind hspaced
    exact execEventWrite_writes hfind hspaced
  case submit =>
    intro t s0 v s hmode hbit hfree
    exact (if_neg hmode.not_ge).trans ((if_neg (by rw [hbit]; decide)).trans (if_neg (by rw [hfree]; decide)))
  case mailbox =>
    intro t s0 r l s u w hmode hserves hreqs hqueue
    exact execDictionaryRequest_mailbox hmode hserves hreqs hqueue
  case queue =>
    intro t s0 r l q s u w x v hmode hserves hreqs hqueue
    exact execDictionaryRequest_queue hmode hserves hreqs hqueue

/-! # DMA and host link commands (R317 to R326) -/

/-- Settles O26, command by command: each hypothesis is part of the guard of the branch that the command takes. -/
theorem linkCommands : Obligations.LinkCommands := by
  unfold Obligations.LinkCommands
  refine ⟨?start, ?abort, ?burst, ?reset, ?loss, ?linkUp⟩
  case start =>
    intro t s0 n s hmode
    exact if_neg hmode
  case abort =>
    intro t s0 n s hmode
    exact if_neg hmode
  case burst =>
    intro t s0 n ok s u hmode hready hturn
    refine if_neg (not_or.mpr ⟨hmode, not_or.mpr ⟨not_bnot_of_true hready, ?_⟩⟩)
    exact ne_true_of_eq_false hturn
  case reset =>
    intro t s0 k s hmode hkind
    refine (if_neg hmode).trans ?_
    cases k with
    | linkLoss => exact absurd rfl hkind
    | _ => rfl
  case loss =>
    intro t s0 s u hmode
    exact if_neg hmode
  case linkUp =>
    intro t s0 v w s hmode
    exact if_neg hmode

/-! # Frames and links of the fabric (R358 to R370) -/

section LinkIn
variable {s : State} {p seq : Nat} (f : State → State) (hup : (s.portOf p).up = true)
include hup

/-- A new control frame is acknowledged and passed on (R361). -/
theorem State.linkIn_new (hnew : s.linkNew p seq = true) : s.linkIn p seq f = f (s.taken p seq) :=
  (if_neg (not_bnot_of_true hup)).trans (if_pos hnew)

/-- A repeated control frame is acknowledged alone (R361). -/
theorem State.linkIn_repeated (hold : s.linkNew p seq = false) : s.linkIn p seq f = s.send (.fabric p (ackSet seq)) :=
  (if_neg (not_bnot_of_true hup)).trans (if_neg (by rw [hold]; decide))

end LinkIn

/-! ## What the frames of discovery do (R363, R364) -/

/-- A neighbour of the own fabric (R363). -/
theorem State.hello_own {s : State} {p src fabric np : Nat} {root : Bool} {serial : Nat} (hfabric : fabric = s.frcN (ky 0x2400 3)) :
    s.hello p src fabric np root serial = (
      let x := s.portOf p
      let v := if src = s.node ∧ serial ≠ s.nat (ky 0x2000 5) then s.enterConflict else s
      let u := { v with fab := { v.fab with roots := (if root then [src] else []) ++ v.fab.roots.filter (· != src) } }
      if x.nb = some (src, np) ∧ x.mismatch = false ∧ u.fab.view.any (fun n => n.node = u.node ∧
          n.entries.any (fun e => e.port = p ∧ e.nbNode = src ∧ e.nbPort = np)) then u
        else (u.setPort p { x with nb := some (src, np), mismatch := false }).portsChanged) := by
  unfold State.hello
  dsimp only
  rw [if_neg (not_not.mpr hfabric)]
  simp only [Bool.not_eq_true']

/-- A newer TOPOLOGY of another node enters the view and is flooded (R364). -/
theorem State.topology_newer {s : State} {p src v : Nat} {l : List TopoEntry} (husable : s.usable p = true) (hother : src ≠ s.node)
    (hnewer : s.fab.view.any (fun x => x.node = src ∧ v ≤ x.version) = false) :
    s.topology p src v l = (
      let u := s.setView ⟨src, v, l⟩
      let back := l.filterMap (fun e => if e.state = 1 ∨ e.state = 2 then some (linkId (src * 4 + e.port, e.nbNode * 4 + e.nbPort)) else none)
      let own := (List.range 4).filterMap (fun q => (u.linkOf q).map linkId)
      let f := u.fab.failed.filter (fun l => own.contains l || !back.contains l)
      let w := { u with fab := { u.fab with failed := f, redisc := u.fab.redisc || f != u.fab.failed } }
      (w.flood 4 (topoBytes v l) (some p) src).discovering) :=
  (if_neg (not_bnot_of_true husable)).trans ((if_neg hother).trans (if_neg (by rw [hnewer]; decide)))

/-- A newer TREE is passed on and staged (R364). -/
theorem State.treeIn_newer {s : State} {p v a r e : Nat} (husable : s.usable p = true)
    (hnewer : s.fab.staged = none ∧ (s.nat (ky 0x2400 7) / 256 ≠ r ∨ s.fab.treeVersion < v) ∨
      ∃ y, s.fab.staged = some y ∧ (y.2.2.1 ≠ r ∨ y.1 < v)) :
    s.treeIn p v a r e = (s.flood 5 (treeBytes v a r e) (some p) r).stageTree v a r e := by
  unfold State.treeIn
  rw [husable]
  rcases hnewer with ⟨hnone, hnewer⟩ | ⟨⟨w, b, r', e'⟩, hsome, hnewer⟩
  · simp only [hnone]
    refine if_neg ?_
    simp only [Bool.not_true, Bool.false_or, decide_eq_true_eq, not_and, not_le]
    exact fun hroot => hnewer.resolve_left (not_not.mpr hroot)
  · simp only [hsome]
    refine if_neg ?_
    simp only [Bool.not_true, Bool.false_or, decide_eq_true_eq, not_and, not_le]
    exact fun hroot => hnewer.resolve_left (not_not.mpr hroot)

section Events
variable {t : Time} {s0 : State}

/-- A port that goes down takes the failover of its tree link (R358, R366). -/
theorem State.portDown_up {s : State} {p : Nat} {k : DownCause} (hup : (s.portOf p).up = true) :
    s.portDown p k = (
      let u := (s.setPort p { s.portOf p with up := false, replay := [], since := s.now }).event (0xD0 + p) 0x0702 p
      let w := if k = .replay then u.event (0xD0 + p) 0x0703 p else u
      let v := if s.nodeState = 2 then (w.setLive (48 + p) true).fault (48 + p) (downCode k) p 0 else w
      (match s.linkOf p with
        | some l => if s.fab.tree.any (fun e => linkId e = linkId l) then v.passFailover (linkId l) (some p) else v
        | none => v).portsChanged) := by
  unfold State.portDown
  dsimp only
  rw [if_neg (not_bnot_of_true hup)]
  cases s.linkOf p with
  | none => rfl
  | some l => rfl

/-- The node is JOINED once its view has been stable for 1 ms; the root schedules a tree (R364). -/
theorem execViewStable_stable (hstate : (s0.tick t).nodeState = 1) (hstable : (s0.tick t).fab.viewT + msT 1 ≤ t) :
    exec (.viewStable t) s0 = (
      let s := s0.tick t
      let u := (s.setn (ky 0x2400 6) 2).event 0xD4 0x0711 s.node
      let r := u.newTree.1
      let old := u.nat (ky 0x2400 7)
      let e := if old / 256 = r then old % 256 else (old + 1) % 256
      let v := u.fab.treeVersion + 1
      let w := (wrapU 64 (u.ftime + 200000)).toNat
      if r ≠ u.node then .next u else .next ((u.flood 5 (treeBytes v w r e) none u.node).stageTree v w r e)) :=
  if_neg (not_or.mpr ⟨not_not.mpr hstate, Nat.not_lt.mpr hstable⟩)

/-- A staged tree is applied at its time (R364). -/
theorem execTreeApply_due {v a r e : Nat} (hstaged : (s0.tick t).fab.staged = some (v, a, r, e)) (hdue : (a : Int) ≤ (s0.tick t).ftime) :
    exec (.treeApply t) s0 = .next (
      let s := s0.tick t
      let u := ({ s with fab := { s.fab with staged := none, treeVersion := v, tree := s.newTree.2, failSeen := s.fab.failed, redisc := false } }).setn
        (ky 0x2400 7) (r * 256 + e : Nat)
      let w := if r = u.node then u.setn (ky 0x2400 8) 0 else u
      (if s.nat (ky 0x2400 7) / 256 = r then w else w.event 0xD7 0x0741 r).showPorts.stitchResend) := by
  change execTreeApply t s0 = _
  rw [execTreeApply]
  simp only [hstaged, if_neg (not_lt.mpr hdue)]

end Events

/-- Settles O27, command by command: each hypothesis is part of the guard of the branch that the command takes. -/
theorem fabricLinks : Obligations.FabricLinks := by
  unfold Obligations.FabricLinks
  refine ⟨?up, ?down, ?failover, ?rediscovery, ?helloSend, ?hello, ?mismatch, ?repeated, ?topology, ?joined, ?root, ?tree, ?apply⟩
  case up =>
    intro t s0 p s x hon hdown
    exact if_neg (not_or.mpr ⟨not_bnot_of_true hon, by rw [show ((s0.tick t).portOf p).up = false from hdown]; decide⟩)
  case down =>
    intro t s0 p k s x u w v hup
    exact congrArg Host.Outcome.next (State.portDown_up hup)
  case failover =>
    intro t s0 p l s husable
    exact if_neg (not_bnot_of_true husable)
  case rediscovery =>
    intro t s0 l s u hfailed hhere
    exact if_pos ⟨hfailed, hhere⟩
  case helloSend =>
    intro t s0 s w hon hdue
    exact if_neg (not_or.mpr ⟨not_bnot_of_true hon, not_bnot_of_true hdue⟩)
  case hello =>
    intro t s0 p q src fid np root serial s a x v u hup hnew hfabric
    exact congrArg Host.Outcome.next ((State.linkIn_new _ hup hnew).trans (State.hello_own hfabric))
  case mismatch =>
    intro t s0 p q src fid np root serial s a x hup hnew hfabric
    exact congrArg Host.Outcome.next ((State.linkIn_new _ hup hnew).trans (if_pos hfabric))
  case repeated =>
    intro t s0 p q src fid np root serial s hup hold
    exact congrArg Host.Outcome.next (State.linkIn_repeated _ hup hold)
  case topology =>
    intro t s0 p q src v l s a u back own f w hup hnew husable hother hnewer
    exact congrArg Host.Outcome.next ((State.linkIn_new _ hup hnew).trans (State.topology_newer husable hother hnewer))
  case joined =>
    intro t s0 s u hstate hstable hroot
    exact (execViewStable_stable hstate hstable).trans (if_pos hroot)
  case root =>
    intro t s0 s u r old e v w hstate hstable hroot
    exact (execViewStable_stable hstate hstable).trans (if_neg (not_not.mpr hroot))
  case tree =>
    intro t s0 p q v a r e s u hup hnew husable hnewer
    exact congrArg Host.Outcome.next ((State.linkIn_new _ hup hnew).trans (State.treeIn_newer husable hnewer))
  case apply =>
    intro t s0 v a r e s old u w hstaged hdue
    exact execTreeApply_due hstaged hdue

/-! # Acknowledgements, fabric time and shared axes (R359, R361, R367 to R370) -/

/-- The child of a tree link takes the exchange (R367). -/
theorem State.timeSync_child {s : State} {p : Nat} {t1 t2 t3 t4 fp : Int} (hchild : s.childOn p = true) :
    s.timeSync p t1 t2 t3 t4 fp = (
      let dl := tdiv ((t4 - s.num (oPort p 0x30) - t1) - (t3 - t2)) 2
      let fo := s.num (ky 0x2400 8)
      (s.setn (oPort p 3) (wrapU 32 dl)).setn (ky 0x2400 8) (fo + asr (fp + tdiv (t2 - t1 - dl) 10 - fo) 3)) :=
  if_pos hchild

/-- The parent of a tree link answers (R367). -/
theorem State.timeSync_parent {s : State} {p : Nat} {t1 t2 t3 t4 fp : Int} (hparent : s.childOn p = false) (hon : s.fabricOn = true)
    (htree : s.portStateOf p = 1) :
    s.timeSync p t1 t2 t3 t4 fp = s.sendCtl p 2 0 0xFF
      (leBytes 8 (wrapU 64 t1).toNat ++ leBytes 8 (wrapU 64 (t2 - s.num (oPort p 0x30))).toNat ++ leBytes 8 (wrapU 64 t3).toNat) :=
  (if_neg (by rw [hparent]; decide)).trans (if_pos ⟨hon, htree⟩)

section Events
variable {t : Time} {s0 : State}

theorem execReplayTimeout_due {p : Fin 4} {f : Sent}
    (hfind : ((s0.tick t).portOf p).replay.find? (fun f => f.tries ≠ 0 ∧ f.at_ + usT 2 ≤ t) = some f) :
    exec (.replayTimeout t p) s0 = .next ((s0.tick t).resendFrame p f.seq) := by
  change execReplayTimeout t p s0 = _
  rw [execReplayTimeout]
  simp only [hfind]

/-- A fresh POSITION of the present epoch, of an axis that no exported slot names here (R365, R369). -/
theorem execPosition_fresh {p : Fin 4} {f : PosFrame} (hon : (s0.tick t).fabricOn = true) (htree : (s0.tick t).portStateOf p = 1)
    (hslot : 8 ≤ f.slot) :
    let u := (s0.tick t).sendPos f.src f.seq (posBytes f.slot f.axis f.status f.epoch f.ftime f.pos f.vel) (some p.val)
    let n := f.src * 32 + f.axis
    let last := tget (fun _ => 65536) u.fab.axisSeq n
    let b := u.fab
    let w := { u with fab := { b with
      axisSeq := tset (fun _ => 65536) b.axisSeq n (f.seq % 65536), axisT := tset (fun _ => 0) b.axisT n t
      axisTb := tset (fun _ => 0) b.axisTb n ((f.ftime : Int) - u.num (ky 0x2400 8)), poss := tset (fun _ => 0) b.poss n f.pos
      vels := tset (fun _ => 0) b.vels n f.vel } }
    f.epoch = u.nat (ky 0x2400 7) % 256 → (last = 65536 ∨ 0 < wrapS 16 ((f.seq : Int) - last)) →
    exec (.position t p f) s0 =
      .next ((w.followers n).foldl (fun s k => if bit f.status 0 then s.takePos k f else s.sourceFault k t) w) := by
  intro u n last b w hepoch hfresh
  have hguard : ¬((!(s0.tick t).fabricOn) = true ∨ (s0.tick t).portStateOf p ≠ 1) := not_or.mpr ⟨not_bnot_of_true hon, not_not.mpr htree⟩
  have hclash : ¬(f.src ≠ (u).node ∧ f.slot < 8 ∧ u.frcN (ky (0x2408 + f.slot) 1) ≤ 31 ∧ (!u.fab.slotConflict.contains f.slot) = true) :=
    fun h => absurd h.2.1 (Nat.not_lt.mpr hslot)
  have htaken : ¬(f.epoch ≠ u.nat (ky 0x2400 7) % 256 ∨ (!decide (last = 65536 ∨ 0 < wrapS 16 ((f.seq : Int) - last))) = true) :=
    not_or.mpr ⟨not_not.mpr hepoch, not_bnot_of_true (decide_eq_true hfresh)⟩
  change execPosition t p f s0 = _
  rw [execPosition]
  dsimp only
  rw [if_neg hguard, if_neg hclash, if_neg htaken]

end Events

/-- Settles O28, command by command: each hypothesis is part of the guard of the branch that the command takes. -/
theorem fabricFrames : Obligations.FabricFrames := by
  unfold Obligations.FabricFrames
  refine ⟨?ack, ?nak, ?timeout, ?syncSend, ?child, ?parent, ?send, ?position, ?loss⟩
  case ack =>
    intro t s0 p q s x
    rfl
  case nak =>
    intro t s0 p q s
    rfl
  case timeout =>
    intro t s0 p f s hfind
    exact execReplayTimeout_due hfind
  case syncSend =>
    intro t s0 p s w hchild hdue
    exact if_pos ⟨hchild, hdue⟩
  case child =>
    intro t s0 p q t1 t2 t3 t4 fp s a dl fo hup hnew hchild
    exact congrArg Host.Outcome.next ((State.linkIn_new _ hup hnew).trans (State.timeSync_child hchild))
  case parent =>
    intro t s0 p q t1 t2 t3 t4 fp s a hup hnew hparent hon htree
    exact congrArg Host.Outcome.next ((State.linkIn_new _ hup hnew).trans (State.timeSync_parent hparent hon htree))
  case send =>
    intro t s0 j s k q b u hon hk hconflict hslot hports hdue
    refine if_neg ?_
    rintro (h | h | h | h | h | h)
    · exact not_bnot_of_true hon h
    · exact absurd h (Nat.not_lt.mpr hk)
    · exact Bool.false_ne_true (hconflict.symm.trans h)
    · exact Bool.false_ne_true (hslot.symm.trans h)
    · exact hports h
    · exact not_bnot_of_true hdue h
  case position =>
    intro t s0 p f s u n last b w hon htree hslot hepoch hfresh
    exact execPosition_fresh hon htree hslot hepoch hfresh
  case loss =>
    intro t s0 k s x hkind hfaulty hover
    exact if_pos ⟨hkind, hfaulty, hover⟩

/-! # Stitched marks: reports to the lead (R75, R377) -/

/-- A REPORT for a lead here is judged by the tolerance that governs the lead's mark (R75), and the mark settles or closes with it. -/
theorem execReport_lead {t : Time} {s0 : State} {p : Fin 4} {q : Nat} {id : MarkId} {src n late : Nat} {fl : BitVec 32} {x : Stitch}
    (hup : ((s0.tick t).portOf p).up = true) (hnew : (s0.tick t).linkNew p q = true) (htree : ((s0.tick t).taken p q).portStateOf p = 1)
    (hlead : id.node = ((s0.tick t).taken p q).node) (hstitch : ((s0.tick t).taken p q).stitchOf id = some x) :
    exec (.report t p q id src n fl late) s0 = .next (
      let a := (s0.tick t).taken p q
      let u := a.setStitch { x with
        reports := (src, n) :: x.reports, bad := x.bad || bit fl.toNat 15 || bit fl.toNat 11 || decide (a.leadTolerance id < late) }
      if (x.closed && u.allReported id.casement id) = true then
        { u with fab := { u.fab with stitches := u.fab.stitches.filter (fun y => y.id != id) } }
      else u.leadTry id) := by
  refine congrArg Host.Outcome.next ((State.linkIn_new _ hup hnew).trans
    ((if_neg (not_not.mpr htree)).trans ((if_neg (not_not.mpr hlead)).trans ?_)))
  rw [hstitch]

/-! ## A tolerance that waits -/

/-- The mark that casement 0 of node 0 leads. -/
def ledMark : MarkId := ⟨0, 0, 0⟩

/-- What its lead holds: nothing has been voted, decided or reported. -/
def ledStitch : Stitch := ⟨ledMark, [], none, none, [], false, [], false, 0⟩

/-- Node 0 with port 0 in the tree, leading a stitched mark; a tolerance of 100 blank lines has just been written and waits under R65. -/
def leadState : State :=
  { State.reset with
    obj := [(oCas 0 0 0x0C, .num 100)]
    waits := [⟨oCas 0 0 0x0C, .num 100, 0⟩]
    fab := { State.reset.fab with
      ports := [(0, { FPort.init with up := true, nb := some (1, 0) })]
      tree := [(0, 4)]
      stitches := [ledStitch] } }

/-- A REPORT on port 0 of `leadState` is one for its lead. -/
theorem leadState_reported :
    ((leadState.tick 0).portOf 0).up = true ∧ (leadState.tick 0).linkNew 0 0 = true ∧
      ((leadState.tick 0).taken 0 0).portStateOf 0 = 1 ∧ ledMark.node = ((leadState.tick 0).taken 0 0).node ∧
      ((leadState.tick 0).taken 0 0).stitchOf ledMark = some ledStitch := by
  decide

/-- Refutes O29: the statement judges a report by what the tolerance object reads, where R75 takes the value that governs the mark. In
`leadState` the object reads 100 already, but 0 governs for 2 us more, so a REPORT of 50 blank lines is bad. `execReport_lead` is the
claim with the tolerance that governs. -/
theorem not_stitchCommands : ¬ Obligations.StitchCommands := by
  unfold Obligations.StitchCommands
  rintro ⟨-, -, -, -, -, -, -, -, -, hclaim, -⟩
  obtain ⟨hup, hnew, htree, hlead, hstitch⟩ := leadState_reported
  have hread := hclaim 0 leadState 0 0 ledMark 1 0 0 50 ledStitch hup hnew htree hlead hstitch
  have hgoverns := execReport_lead (t := 0) (s0 := leadState) (p := 0) (src := 1) (n := 0) (late := 50) (fl := 0) hup hnew htree hlead hstitch
  have hbad := congrArg (fun s : State => s.fab.stitches.map Stitch.bad) (Host.Outcome.next.inj (hgoverns.symm.trans hread))
  exact absurd hbad (by decide)

/-! # NMT and bus-state commands (R340, R342, R344) -/

/-- An NMT command to a node on its bus acts at once, where no restart holds it (R342). -/
theorem State.nmt_served {s : State} {i : Nat} (c : NmtCmd) (hup : s.canUp i = true) (hserves : s.deaf = false) : s.nmt i c = s.nmtDo i c :=
  (if_neg (not_bnot_of_true hup)).trans (if_neg (by rw [hserves]; decide))

/-- Settles O41: the five commands are one, which `State.nmtDo` tells apart; the bus events are the body of their definitions. -/
theorem nmtCommands : Obligations.NmtCommands := by
  unfold Obligations.NmtCommands
  refine ⟨?start, ?preop, ?preopSafe, ?stop, ?resetComm, ?resetNode, ?busOff, ?recovery, ?passive⟩
  case preop =>
    intro t s0 i s hup hserves hmode
    refine congrArg Host.Outcome.next ((State.nmt_served .preop hup hserves).trans ?_)
    unfold State.nmtDo
    dsimp only
    rw [if_neg (show ¬(s0.tick t).modeN = 7 from hmode)]
  case preopSafe =>
    intro t s0 i s u hup hserves hmode
    have hready : ¬(s0.tick t).modeN = 4 := by
      rw [show (s0.tick t).modeN = 7 from hmode]
      decide
    exact congrArg Host.Outcome.next
      ((State.nmt_served .preop hup hserves).trans ((if_neg hready).trans (if_pos hmode)))
  case busOff =>
    intro t s0 i s hup
    exact if_neg (not_bnot_of_true hup)
  case recovery =>
    intro t s0 i s hoff
    exact if_neg (not_not.mpr hoff)
  case passive =>
    intro t s0 i v s hup hchange
    exact if_neg (not_or.mpr ⟨not_bnot_of_true hup, hchange⟩)
  case resetNode =>
    intro t s0 i s u hup hserves
    exact congrArg Host.Outcome.next (State.nmt_served .resetNode hup hserves)
  all_goals
    intro t s0 i s hup hserves
    exact congrArg Host.Outcome.next (State.nmt_served _ hup hserves)

/-! # Ethernet, KDP and PTP commands (R339, R346, R347, R352 to R354) -/

section Events
variable {t : Time} {s0 : State}

/-- A request datagram that fits is served at once (R347). -/
theorem State.kdpRequest_served {s : State} {m src port : Nat} {b : Bytes} (hup : s.macUp m = true) (hon : s.frcN (ky (0x2068 + m) 7) = 1)
    (hfits : b.length ≤ 1472) (hserves : s.deaf = false) : s.kdpRequest m src port b = s.kdpServe m src port b :=
  (if_neg (not_or.mpr ⟨not_bnot_of_true hup, not_not.mpr hon⟩)).trans
    ((if_neg (Nat.not_lt.mpr hfits)).trans (if_neg (by rw [hserves]; decide)))

/-- Queued KDP events go out where an interface is up (R352). -/
theorem execKdpEventSend_sends (hqueue : (s0.tick t).nat (ky 0x206A 0x0B) ≠ 0)
    (hon : ((s0.tick t).qOf ((s0.tick t).nat (ky 0x206A 0x0B))).enabled = true)
    (htyp : ((s0.tick t).qOf ((s0.tick t).nat (ky 0x206A 0x0B))).typ = 4)
    (hsome : min 22 ((s0.tick t).qOf ((s0.tick t).nat (ky 0x206A 0x0B))).level ≠ 0) (hserves : (s0.tick t).deaf = false)
    (hup : (s0.tick t).macUp 0 = true ∧ (s0.tick t).frcN (ky 0x2068 7) = 1 ∨
      (s0.tick t).macUp 1 = true ∧ (s0.tick t).frcN (ky 0x2069 7) = 1) :
    exec (.kdpEventSend t) s0 = .next (
      let s := s0.tick t
      let q := s.nat (ky 0x206A 0x0B)
      let x := s.qOf q
      let n := min 22 x.level
      let entries := (List.range n).map (fun j => s.memRead x.dram (x.slot (x.cons + j)) 64)
      ((s.kdpEventTo entries 1).kdpEventTo entries 2).doorbell q ((x.cons + n) % 2 ^ 32)) := by
  have hany : [0, 1].any (fun m => (s0.tick t).macUp m && (s0.tick t).frcN (ky (0x2068 + m) 7) == 1) = true := by
    simpa using hup
  exact if_neg (not_or.mpr ⟨hqueue, not_or.mpr ⟨not_bnot_of_true hon, not_or.mpr ⟨not_not.mpr htyp, not_or.mpr ⟨hsome,
    not_or.mpr ⟨by rw [hserves]; decide, not_bnot_of_true hany⟩⟩⟩⟩⟩)

section Ptp
variable (hport : (s0.tick t).ptpOn 0 = true ∨ (s0.tick t).ptpOn 1 = true)
include hport

theorem State.ptpOn_any : ((s0.tick t).ptpOn 0 || (s0.tick t).ptpOn 1) = true := by
  rw [Bool.or_eq_true]
  exact hport

/-- A slave sends its delay request (R353). -/
theorem execPtpTransmit_slave (hslave : (s0.tick t).ptpSlave = true) :
    exec (.ptpTransmit t .delayReq) s0 = .next (
      let s := s0.tick t
      let p := s.net.ptp
      { s with net := { s.net with ptp := { p with reqSeq := (p.reqSeq + 1) % 65536, reqTx := s.ptpOut } } }.send (.ptp .delayReq)) :=
  (if_neg (not_bnot_of_true (State.ptpOn_any hport))).trans (if_pos (.inl hslave))

/-- A master sends its Announce and Sync (R353). -/
theorem execPtpTransmit_master {m : PtpSend} (hmaster : (s0.tick t).ptpState = 6) (hmsg : m ≠ .delayReq) :
    exec (.ptpTransmit t m) s0 = .next ((s0.tick t).send (.ptp m)) := by
  refine (if_neg (not_bnot_of_true (State.ptpOn_any hport))).trans ?_
  cases m with
  | delayReq => exact absurd rfl hmsg
  | _ => exact if_pos hmaster

/-- Without an Announce within its timeout a slave or a listening port becomes master, or listens where it is slave-only (R353). -/
theorem execPtpAnnounceTimeout_late
    (hlate : (s0.tick t).net.ptp.lastAnnounce + (s0.tick t).nat (ky 0x2308 8) * (s0.tick t).announceInterval ≤ t)
    (hstate : (s0.tick t).ptpSlave = true ∨ (s0.tick t).ptpState = 4) :
    exec (.ptpAnnounceTimeout t) s0 = .next ((s0.tick t).ptpTo (if (s0.tick t).nat (ky 0x2308 6) = 1 then 4 else 6)) := by
  have hwaits : ((s0.tick t).ptpSlave || (s0.tick t).ptpState == 4) = true := by
    simpa using hstate
  exact if_neg (not_or.mpr ⟨not_bnot_of_true (State.ptpOn_any hport), not_or.mpr ⟨not_bnot_of_true (decide_eq_true hlate), not_bnot_of_true hwaits⟩⟩)

end Ptp

end Events

/-- Settles O42, command by command: each hypothesis is part of the guard of the branch that the command takes. -/
theorem ethernetCommands : Obligations.EthernetCommands := by
  unfold Obligations.EthernetCommands
  refine ⟨?linkUp, ?linkDown, ?arp, ?icmp, ?kdp, ?events, ?ptp, ?announce, ?request, ?master⟩
  case linkUp =>
    intro t s0 m speed s cfg v hon hmode hspeed hnew
    refine if_neg ?_
    rintro (h | h | h | h | h)
    · exact h hon
    · exact absurd h hmode.not_ge
    · change v = 0 at h
      omega
    · change 2 < v at h
      omega
    · exact hnew h
  case linkDown =>
    intro t s0 m s hup
    exact if_neg (not_bnot_of_true hup)
  case arp =>
    intro t s0 m target sender mac s hup htarget
    refine (if_neg (not_or.mpr ⟨not_bnot_of_true hup, not_not.mpr htarget⟩)).trans ?_
    rw [htarget]
  case icmp =>
    intro t s0 m src dst data s hup hdst
    exact if_neg (not_or.mpr ⟨not_bnot_of_true hup, not_not.mpr hdst⟩)
  case kdp =>
    intro t s0 m src port b s hup hon hfits hserves
    exact congrArg Host.Outcome.next (State.kdpRequest_served hup hon hfits hserves)
  case events =>
    intro t s0 s q x n entries hqueue hon htyp hsome hserves hup
    exact execKdpEventSend_sends hqueue hon htyp hsome hserves hup
  case ptp =>
    intro t s0 m msg s hon
    exact if_pos ⟨hon, rfl⟩
  case announce =>
    intro t s0 s hport hlate hstate
    exact execPtpAnnounceTimeout_late hport hlate hstate
  case request =>
    intro t s0 s p hport hslave
    exact execPtpTransmit_slave hport hslave
  case master =>
    intro t s0 m s hport hmaster hmsg
    exact execPtpTransmit_master hport hmaster hmsg

/-! # What a KDP request does before its operations run (R347, R350, R351) -/

section Kdp
variable {s : State} {m src port : Nat} {b : Bytes}

/-- A datagram without a good header is counted as dropped, with its event (R347). -/
theorem State.kdpServe_bad (hbad : b.length < 16 ∨ fieldLE b 0 4 ≠ 0x5044444B ∨ fieldLE b 4 1 ≠ 1 ∨ fieldLE b 5 1 ≠ 1 ∨
      fieldLE b 7 1 = 0 ∨ 32 < fieldLE b 7 1) :
    s.kdpServe m src port b = (s.bump (ky (0x2068 + m) 0x0A)).event (0xFA + m) 0x0B08 m := by
  unfold State.kdpServe
  dsimp only
  rw [if_pos hbad]
  rfl

section Good
variable {ops : List KOp} (hlen : 16 ≤ b.length) (hmagic : fieldLE b 0 4 = 0x5044444B) (hversion : fieldLE b 4 1 = 1)
  (htype : fieldLE b 5 1 = 1) (hlow : 1 ≤ fieldLE b 7 1) (hhigh : fieldLE b 7 1 ≤ 32)
  (hops : kdpOps (fieldLE b 7 1) (b.drop 16) = some ops)
include hlen hmagic hversion htype hlow hhigh hops

/-- A good header leaves the operations to be served. -/
theorem kdpOps_of_header :
    (if b.length < 16 ∨ fieldLE b 0 4 ≠ 0x5044444B ∨ fieldLE b 4 1 ≠ 1 ∨ fieldLE b 5 1 ≠ 1 ∨ fieldLE b 7 1 = 0 ∨ 32 < fieldLE b 7 1 then none
      else kdpOps (fieldLE b 7 1) (b.drop 16)) = some ops := by
  rw [if_neg ?good, hops]
  rintro (h | h | h | h | h | h)
  · omega
  · exact h hmagic
  · exact h hversion
  · exact h htype
  · omega
  · omega

/-- A source that the access list turns away (R351). -/
theorem State.kdpServe_turnedAway (haccess : s.kdpAccess src = none) : s.kdpServe m src port b = s.bump (ky (0x2068 + m) 0x0A) := by
  unfold State.kdpServe
  dsimp only
  rw [kdpOps_of_header hlen hmagic hversion htype hlow hhigh hops]
  dsimp only
  rw [haccess]
  rfl

section Cached
variable {x : KdpClient} (haccess : s.kdpAccess src ≠ none)
  (hfind : s.net.kdp.find? (fun x => x.src == src && x.port == port && x.session == fieldLE b 8 4) = some x)
include haccess hfind

/-- The cached answer is given again, and only its place in the cache and its counter change (R350). -/
theorem State.kdpServe_cached (hseq : fieldLE b 12 4 = x.seq) :
    s.kdpServe m src port b =
      ({ s with net := { s.net with kdp := kdpKeep s.net.kdp ⟨src, port, fieldLE b 8 4, fieldLE b 12 4, x.resp⟩ } }.bump
        (ky 0x206A 0x0C)).send (.kdp m src port (kdpResponse b true x.resp)) := by
  obtain ⟨perm, hperm⟩ := Option.ne_none_iff_exists'.mp haccess
  unfold State.kdpServe
  dsimp only
  rw [kdpOps_of_header hlen hmagic hversion htype hlow hhigh hops]
  dsimp only
  rw [hperm]
  dsimp only
  rw [hfind]
  dsimp only
  rw [if_pos hseq.symm]

/-- An earlier SEQUENCE is dropped (R350). -/
theorem State.kdpServe_earlier (hseq : fieldLE b 12 4 ≠ x.seq) (hearlier : wrapS 32 ((fieldLE b 12 4 : Int) - x.seq) < 0) :
    s.kdpServe m src port b = s.bump (ky (0x2068 + m) 0x0A) := by
  obtain ⟨perm, hperm⟩ := Option.ne_none_iff_exists'.mp haccess
  unfold State.kdpServe
  dsimp only
  rw [kdpOps_of_header hlen hmagic hversion htype hlow hhigh hops]
  dsimp only
  rw [hperm]
  dsimp only
  rw [hfind]
  dsimp only
  rw [if_neg (Ne.symm hseq), if_pos hearlier]
  rfl

end Cached

end Good

end Kdp

/-- Settles O43: each datagram ends before its operations run, dropped or answered from the cache. -/
theorem kdpRequests : Obligations.KdpRequests := by
  unfold Obligations.KdpRequests
  refine ⟨?bad, ?turnedAway, ?client⟩
  case bad =>
    intro s m src port b hbad
    exact State.kdpServe_bad hbad
  case turnedAway =>
    intro s m src port b ops hlen hmagic hversion htype hlow hhigh hops haccess
    exact State.kdpServe_turnedAway hlen hmagic hversion htype hlow hhigh hops haccess
  case client =>
    intro s m src port b ops x hlen hmagic hversion htype hlow hhigh hops haccess hfind
    refine ⟨fun hseq => ⟨kdpResponse b true x.resp, ?_⟩, fun hseq hearlier =>
      State.kdpServe_earlier hlen hmagic hversion htype hlow hhigh hops haccess hfind hseq hearlier⟩
    rw [State.kdpServe_cached hlen hmagic hversion htype hlow hhigh hops haccess hfind hseq]
    exact ⟨rfl, rfl, rfl, rfl, rfl, rfl, fun k hk => (State.val_setn _ _ _ k).trans (if_neg hk)⟩

/-! # CANopen FD: a synchronous RPDO (R343) -/

/-- A synchronous RPDO whose writes are all accepted waits for SYNC; an earlier one of its number is no longer the last one refused. -/
theorem execRpdoReceive_waits {t : Time} {s0 : State} {i : Fin 2} {n : Fin 16} {data : Bytes} (hserved : (s0.tick t).pdoServed false i n = true)
    (hserves : (s0.tick t).deaf = false) (hsync : (s0.tick t).nat (ky (0x1400 + n) 2) ≤ 240)
    (haccepted : ((s0.tick t).groupWrite (.usdo i) (pdoWrites ((s0.tick t).pdoMap 0x1600 n) data)).2.all Option.isNone = true) :
    exec (.rpdoReceive t i n data) s0 = .next (
      let s := s0.tick t
      let x := s.canOf i
      s.setCan i { x with rpdoWait := tset (fun _ => []) x.rpdoWait n data, rpdoBad := x.rpdoBad.filter (· != n.val) }) := by
  refine congrArg Host.Outcome.next ((if_neg (not_bnot_of_true hserved)).trans ((if_neg (by rw [hserves]; decide)).trans ((if_pos hsync).trans ?_)))
  exact if_pos haccepted

/-- Node 0 is operational and carries RPDO 0, which maps nothing, waits for SYNC and was refused when it last came. -/
def refusedPdoState : State :=
  { State.reset with
    obj := [(ky 0x1400 1, .num 0x200), (ky 0x1400 2, .num 0), (ky 0x2100 2, .num 2)]
    force := [(ky 0x2060 1, .num 1)]
    net := { State.reset.net with can := [(0, { Can.init with nmt := 5, rpdoBad := [0] })] } }

/-- RPDO 0 is served in `refusedPdoState`, and none of its writes is refused. -/
theorem refusedPdoState_accepts :
    let s := refusedPdoState.tick 0
    s.pdoServed false (0 : Fin 2) (0 : Fin 16) = true ∧ s.deaf = false ∧ s.nat (ky (0x1400 + (0 : Fin 16)) 2) ≤ 240 ∧
      (s.groupWrite (.usdo 0) (pdoWrites (s.pdoMap 0x1600 (0 : Fin 16)) [])).2.all Option.isNone = true := by
  decide

/-- Refutes O40: the statement keeps an accepted synchronous RPDO among those refused and not accepted since, though EMCY 0xFF10 is sent once
per RPDO number until one of that number is accepted (R343). In `refusedPdoState` RPDO 0, refused before, is accepted and waits for SYNC.
`execRpdoReceive_waits` is the claim with that record ended. -/
theorem not_canCommands : ¬ Obligations.CanCommands := by
  unfold Obligations.CanCommands
  rintro ⟨-, -, -, hclaim, -⟩
  obtain ⟨hserved, hserves, hsync, haccepted⟩ := refusedPdoState_accepts
  have hstays := hclaim 0 refusedPdoState 0 0 [] hserved hserves hsync haccepted
  have hlifted := execRpdoReceive_waits (t := 0) (s0 := refusedPdoState) (i := 0) (n := 0) (data := []) hserved hserves hsync haccepted
  have hbad := congrArg (fun s : State => (s.canOf 0).rpdoBad) (Host.Outcome.next.inj (hlifted.symm.trans hstays))
  exact absurd hbad (by decide)

end Sys2Proof.Machine
